-- ==== Sys2Proof/Word.lean ====
section
/-! DEFINITION. The word types of the HNL-3612 and the type of sparse tables (00_scope.md Table 0.6: values are little-endian,
bit 0 least significant). -/

namespace Sys2Proof

/-- One byte. -/
abbrev Byte := BitVec 8

/-- One aligned 64-bit word, the unit of protection (R193) and of atomic writes (R27). -/
abbrev Word64 := BitVec 64

/-- A fault, abort or event code: class in 31..24, block in 23..16, detail in 15..0 (R28, R341). -/
abbrev Code := BitVec 32

/-- A sparse table: entries by key, keys strictly rising; a key without an entry has the table's default value. -/
abbrev Tab (α : Type) := List (Nat × α)

/-- A set of numbers as a list without repeats. -/
abbrev NatSet := List Nat

end Sys2Proof
end

