-- ==== Sys2Proof/Syntax.lean ====
section
/-! DEFINITION. The commands of the module: one constructor of `Instr` for each row of spec/opcode_table.json, with the row's
operands, and the records those operands carry (spec/95_what_each_step_holds.md lists what each step holds). -/

namespace Sys2Proof

/-- An initiator of memory accesses, the columns of Table 1.11 (R25). -/
inductive Initiator where
  | pip (tile : Nat)
  | cracker (channel : Nat)
  | remote (conn : Nat)
  | acorn
  | hazel
  deriving DecidableEq, Repr

/-- The message header of Table 13.3 with its data bytes; `op` is given by the row that carries the request. -/
structure Request where
  version : Nat
  requestId : BitVec 32
  session : BitVec 64
  target : BitVec 24
  index : Nat
  sub : Nat
  typ : BitVec 8
  offset : Nat
  length : Nat
  applyAt : Nat
  batch : Nat
  viewStaged : Bool
  viewPending : Bool
  viewSnapshot : Bool
  data : List Byte
  deriving DecidableEq, Repr

/-- A packet of the peer fabric: the transport header of Table 9.7, its payload (R230), and which 64-bit words of the payload
carry a poison mark (R202, R224). -/
structure Packet where
  ptype : Nat
  cls : Nat
  detoured : Bool
  flagOr : Bool
  dst : BitVec 24
  src : BitVec 24
  comm : Nat
  streamSeq : BitVec 32
  step : Nat
  srcSlot : Nat
  dstSlot : Nat
  group : Nat
  fmt : Nat
  deferred : Bool
  reverse : Bool
  elemOffset : Nat
  collId : Nat
  epoch : Nat
  arg : BitVec 64
  payload : List Byte
  poison : NatSet
  deriving DecidableEq, Repr

/-- A collective: communication group, parameter group (0x1FFF for none) and the ordinal of a free-standing one (R237). -/
structure CollKey where
  comm : Nat
  group : Nat
  collId : Nat
  deriving DecidableEq, Repr

/-- An end-to-end stream: source, destination, class and communication group (R231). -/
structure StreamKey where
  src : BitVec 24
  dst : BitVec 24
  cls : Nat
  comm : Nat
  deriving DecidableEq, Repr

/-- What the sensors of power control deliver at one 8 µs sample (R310, R318, R320): the mean input voltage in mV and power
in W, the rail voltages (mV) and currents (mA), the sensors of Table 12.8 in 0.1 °C, the measured energy of partitions
0 to 42 and 44 in mJ, and the Cracker's part of partition 20. -/
structure PowerReading where
  inputMv : Nat
  inputW : Nat
  railMv : List Nat
  railMa : List Nat
  temps : List Int
  energyMj : List Nat
  crackerMj : Nat
  moduleMj : Nat
  deriving DecidableEq, Repr

/-- What the built-in tests of Table 14.8 find: the outcome of test 0; the failed TSVs of each interface (entry 5p + i, count);
the tiles failing tests 2, 3 and 4; the slices (4p + layer − 1) failing test 5. -/
structure BistFinding where
  huskFails : Bool
  tsvFails : List (Nat × Nat)
  clusterFails : NatSet
  logicFails : NatSet
  marchFails : NatSet
  sliceFails : NatSet
  deriving DecidableEq, Repr

/-- What HBM training and the row pass find (tests 6 and 7 of Table 14.8): failed channels 32 × stack + c, and the failing
rows of banks (bank key, row). -/
structure HbmFinding where
  channelFails : NatSet
  rowFails : List (Nat × Nat)
  deriving DecidableEq, Repr

/-- One attempt of a vertical transfer as its receiver sees it: every word with its check bits, and whether the control
group's encoding held (R196, R210). -/
structure TransferAttempt where
  words : List (Word64 × Byte)
  controlOk : Bool
  deriving DecidableEq, Repr

/-- A flit as a port receives it: its 256 bytes and, lane by lane, how many errors the FEC corrected in it (R219, R222). -/
structure ReceivedFlit where
  bytes : List Byte
  fec : List Nat
  deriving DecidableEq, Repr

/-- Where an RDMA request comes from: the connection, and whether its packets bear a CE mark (R253, R254). -/
structure RdmaOrigin where
  conn : Nat
  ce : Bool
  deriving DecidableEq, Repr

/-- A command of the module. A flit comes with what the FEC corrected on each lane (R219), an RDMA request with its CE mark
(R253). One constructor per row of spec/opcode_table.json, in the table's order. A row that is a write of an object carries
the write's message; a row of a tile's sequencer carries the logical tile, whose next descriptor is in memory at its program
counter (R86, R88). -/
inductive Instr where
  | powerOn (inputMv : Nat)
  | inputStop (inputMv : Nat)
  | converterFail (converter : Nat)
  | shutdownAssert
  | shutdownRelease
  | moduleInsert
  | moduleRemove
  | stackReset (cause : Nat) (code : Code)
  | stackResetWrite (r : Request)
  | watchdogExpiry (hazelCore : Nat)
  | romVerify
  | hazelBoot
  | railsUp
  | builtInTest (found : BistFinding)
  | serviceFill
  | hbmTraining (found : HbmFinding)
  | defaultsApply
  | mgmtLinkLoss
  | railBelowFloor (layer mv : Nat)
  | railAboveFloor (layer mv : Nat)
  | railBelowRetention (layer mv : Nat)
  | paceWindow (rings : List Nat)
  | paceClear (r : Request)
  | powerSample (x : PowerReading)
  | rampStep
  | droopBegin (rail mv : Nat)
  | droopEnd (rail mv : Nat)
  | gateRestartStep (row : Nat)
  | thermalLimitStep
  | thermalTrip
  | energyClear (r : Request)
  | throttleClear (r : Request)
  | tempClear (r : Request)
  | verticalTransfer (column interface : Nat) (attempts : List TransferAttempt) (spareTests : List Bool)
  | powerClusterFail (tile : Nat)
  | tileFloorTimeout (tile : Nat)
  | homeSliceAccess (who : Initiator) (addr length : Nat) (write : Option (List Byte))
  | sliceFillReturn (line : Nat) (onDieFail : Bool)
  | lineRepair (line : Nat)
  | hbmRefresh (stack : Nat) (busNs : Nat)
  | patrolScrub (store : Nat)
  | hbmChannelFail (stack channel : Nat)
  | stallSample
  | tileProgramStart (tile : Nat)
  | nop (tile : Nat)
  | loop (tile : Nat)
  | setb (tile : Nat)
  | loadb (tile : Nat)
  | matmul (tile : Nat)
  | endProgram (tile : Nat)
  | copy (tile : Nat)
  | fill (tile : Nat)
  | add (tile : Nat)
  | sub (tile : Nat)
  | mul (tile : Nat)
  | fma (tile : Nat)
  | div (tile : Nat)
  | sqrt (tile : Nat)
  | rsqrt (tile : Nat)
  | exp (tile : Nat)
  | log (tile : Nat)
  | tanh (tile : Nat)
  | logistic (tile : Nat)
  | sin (tile : Nat)
  | cos (tile : Nat)
  | max (tile : Nat)
  | min (tile : Nat)
  | abs (tile : Nat)
  | cmpgt (tile : Nat)
  | select (tile : Nat)
  | axpb (tile : Nat)
  | addsr (tile : Nat)
  | rsum (tile : Nat)
  | rmax (tile : Nat)
  | rsumsq (tile : Nat)
  | rmaxabs (tile : Nat)
  | mxpack (tile : Nat)
  | mxunpack (tile : Nat)
  | update (tile : Nat)
  | load (tile : Nat)
  | store (tile : Nat)
  | streamGather (tile : Nat)
  | streamScatter (tile : Nat)
  | streamFill (tile : Nat)
  | descriptorComplete (tile : Nat) (number : Nat)
  | trap (tile : Nat)
  | tileCountersClear (r : Request)
  | crackerGather (channel : Nat)
  | crackerScatter (channel : Nat)
  | grad (channel : Nat)
  | flatGather (channel : Nat)
  | batchRelease (channel : Nat)
  | sectorDone (channel : Nat) (sector : Nat)
  | mergePass (binding : Nat)
  | sweepFeed (binding : Nat)
  | stagedRowReady (binding row : Nat)
  | crackerCountersClear (r : Request)
  | denseCheckUpdate (group : Nat)
  | stagingCut
  | sweepRow (group row : Nat)
  | sweepWriteAck (group row : Nat)
  | sweepResume
  | stepBoundary (durationPeriods : Nat)
  | abortStep (r : Request)
  | silentClear (r : Request)
  | portMode (r : Request)
  | laneFail (port lane : Nat)
  | portTrainingDone (port : Nat) (goodLanes : NatSet) (version : Nat)
  | trainingRetry (port : Nat) (goodLanes : NatSet) (version : Nat)
  | flitReceive (port : Nat) (flit : ReceivedFlit)
  | hopDeadline (port : Nat)
  | probe (port : Nat)
  | data (p : Packet)
  | ready (p : Packet)
  | go (p : Packet)
  | result (p : Packet)
  | ack (p : Packet)
  | pathNotice (p : Packet)
  | inbound (p : Packet)
  | tableReq (p : Packet)
  | tableRsp (p : Packet)
  | mirror (p : Packet)
  | mirrorAck (p : Packet)
  | relayedRequest (p : Packet)
  | relayedReply (p : Packet)
  | committedStepReport (p : Packet)
  | restorePoint (p : Packet)
  | lineRequest (p : Packet)
  | lineReply (p : Packet)
  | fullTransferRequest (p : Packet)
  | holdNotice (p : Packet)
  | ackTimer (k : StreamKey)
  | resendTimeout (k : StreamKey)
  | epochWrite (r : Request)
  | allReduce (k : CollKey)
  | reduceScatter (k : CollKey)
  | allGather (k : CollKey)
  | allToAll (k : CollKey)
  | broadcast (k : CollKey)
  | exchange (k : CollKey)
  | reductionDeadline (k : CollKey)
  | collectiveComplete (k : CollKey)
  | resultSend
  | fabricCountersClear (r : Request)
  | feMode (r : Request)
  | fePortReset (r : Request)
  | neighborRequest (port : Nat) (ipv6 : Bool) (addr : BitVec 128)
  | rdmaWrite (origin : RdmaOrigin) (rkey : BitVec 32) (addr : BitVec 64) (bytes : List Byte)
  | rdmaRead (origin : RdmaOrigin) (rkey : BitVec 32) (addr : BitVec 64) (length : Nat)
  | flushReadRelease (conn : Nat)
  | cnpReceive (conn : Nat)
  | egressRateRise (conn : Nat)
  | transportRetryTimeout (conn : Nat)
  | connEnable (r : Request)
  | connReset (r : Request)
  | postCount (conn : Nat)
  | cqConsumed (conn : Nat)
  | entryRead (queue : Nat)
  | entryReread (queue : Nat)
  | queueEnable (r : Request)
  | queueDisable (r : Request)
  | dispatch (queue seq : Nat)
  | fillCommand (queue seq : Nat)
  | exportEntry (queue seq : Nat)
  | exportAck (conn : Nat)
  | nopEntry (queue seq : Nat)
  | entryComplete (queue seq : Nat)
  | feCountersClear (r : Request)
  | buddy (r : Request)
  | buddyTimeout
  | snapshotBase (r : Request)
  | memberTimeout (node : BitVec 24)
  | recoveryWrite (r : Request)
  | shardVerify (group : Nat) (source : BitVec 24) (step : Nat) (digest : BitVec 256) (bytes : List Byte)
  | restoreSubmit (r : Request)
  | replay
  | resume (r : Request)
  | twinTimeout
  | twinLateLimit
  | twinRejoin
  | read (r : Request)
  | write (r : Request)
  | revert (r : Request)
  | seal (r : Request)
  | abandon (r : Request)
  | describe (r : Request)
  | enumerate (r : Request)
  | hello (r : Request)
  | prove (r : Request)
  | close (r : Request)
  | sessionExpire (session : BitVec 64)
  | helloLockoutEnd
  | relayTimeout (requestId : BitVec 32)
  | batchExpire (session : BitVec 64) (batch : Nat)
  | eventAck (r : Request)
  | snapshotTake (r : Request)
  | memCountersClear (r : Request)
  | protCountersClear (r : Request)
  | floorCommit (r : Request)
  | uploadTarget (r : Request)
  | uploadData (r : Request)
  | uploadVerify (r : Request)
  | attestRequest (r : Request)
  | attestReady
  | testStateEnter (r : Request)
  | testStateExit (r : Request)
  | marginSweep (r : Request)
  | marginSweepEnd (failed : List (Nat × Nat)) (lost : NatSet)
  | bistRerun (r : Request) (found : BistFinding) (hbm : HbmFinding)
  | feLinkDown (port : Nat)
  | feLinkUp (port : Nat)
  | priorityFlowControlFrame (port priority quanta : Nat)
  | writeBackComplete (line : Nat)
  | tileSupplyBelowFloor (tile mv : Nat)
  | tileSupplyRestored (tile mv : Nat)
  deriving DecidableEq, Repr

end Sys2Proof
end

