-- ==== Sys2Proof/WellFormed.lean ====
section
/-! DEFINITION. Which commands are well formed: every operand within the width or the range the spec gives it (Table 13.3,
Table 9.7, Table 1.13, R11, R22, R81, R172, R254, R261). -/

namespace Sys2Proof

/-- The fields of a message header within their widths, at most 1,024 data bytes (Table 13.3). -/
def Request.wf (r : Request) : Bool :=
  decide (r.version < 256 ∧ r.index < 65536 ∧ r.sub < 256 ∧ r.offset < 2 ^ 32 ∧ r.length < 65536 ∧ r.applyAt < 2 ^ 64 ∧
    r.batch < 65536 ∧ r.data.length ≤ 1024)

/-- The fields of a transport header within their widths, a payload of at most 4,096 bytes (Table 9.7). -/
def Packet.wf (p : Packet) : Bool :=
  decide (p.ptype < 16 ∧ p.cls < 4 ∧ p.comm < 256 ∧ p.step < 2 ^ 64 ∧ p.srcSlot < 4096 ∧ p.dstSlot < 4096 ∧ p.group < 8192 ∧
    p.fmt < 16 ∧ p.elemOffset < 2 ^ 40 ∧ p.collId < 2 ^ 32 ∧ p.epoch < 2 ^ 32 ∧ p.payload.length ≤ 4096)

/-- A collective's key within the widths of Table 9.7. -/
def CollKey.wf (k : CollKey) : Bool :=
  decide (k.comm < 256 ∧ k.group < 8192 ∧ k.collId < 2 ^ 32)

/-- A stream's key within the widths of Table 9.7. -/
def StreamKey.wf (k : StreamKey) : Bool :=
  decide (k.cls < 4 ∧ k.comm < 256)

/-- An initiator that exists: a logical tile number, a Cracker channel, a connection. -/
def Initiator.wf : Initiator → Bool
  | .pip t => decide (t < 384)
  | .cracker c => decide (c < 16)
  | .remote n => decide (n < 1024)
  | .acorn => true
  | .hazel => true

/-- A reading names all eight rails and all 236 sensors and gives the energies of partitions 0 to 42 (Tables 12.2, 12.6, 12.8). -/
def PowerReading.wf (x : PowerReading) : Bool :=
  decide (x.railMv.length = 8 ∧ x.railMa.length = 8 ∧ x.temps.length = 236 ∧ x.energyMj.length = 43)

/-- A finding of the built-in tests names tiles, interfaces and slices that exist (R11, Table 14.8). -/
def BistFinding.wf (x : BistFinding) : Bool :=
  x.tsvFails.all (fun e => decide (e.1 < 1920)) && (x.clusterFails ++ x.logicFails ++ x.marchFails).all (fun p => decide (p < 384)) &&
    x.sliceFails.all (fun i => decide (i < 1536))

/-- A finding of HBM training names channels that exist (R148). -/
def HbmFinding.wf (x : HbmFinding) : Bool := x.channelFails.all (fun c => decide (c < 384))

/-- A tile number (R81). -/
def tileOk (t : Nat) : Bool := decide (t < 384)

/-- A peer port (Table 1.1). -/
def portOk (p : Nat) : Bool := decide (p < 7)

/-- A front-end connection (R254). -/
def connOk (c : Nat) : Bool := decide (c < 1024)

/-- A work queue (R261). -/
def queueOk (q : Nat) : Bool := decide (q < 64)

/-- A Cracker channel (R172). -/
def channelOk (c : Nat) : Bool := decide (c < 16)

/-- A front-end port (Table 1.1). -/
def fePortOk (p : Nat) : Bool := decide (p < 2)

/-- Whether a command's operands are in range. -/
def Instr.wf : Instr → Bool
  | .powerOn _ => true
  | .inputStop _ => true
  | .converterFail c => decide (c < 4)
  | .shutdownAssert => true
  | .shutdownRelease => true
  | .moduleInsert => true
  | .moduleRemove => true
  | .stackReset cause _ => decide (cause ≤ 6)
  | .stackResetWrite r => r.wf
  | .watchdogExpiry c => decide (c < 16)
  | .romVerify => true
  | .hazelBoot => true
  | .railsUp => true
  | .builtInTest found => found.wf
  | .serviceFill => true
  | .hbmTraining found => found.wf
  | .defaultsApply => true
  | .mgmtLinkLoss => true
  | .railBelowFloor l _ => decide (l < 6)
  | .railAboveFloor l _ => decide (l < 6)
  | .railBelowRetention l _ => decide (l < 6)
  | .paceWindow rings => decide (rings.length = 6)
  | .paceClear r => r.wf
  | .powerSample x => x.wf
  | .rampStep => true
  | .droopBegin rail _ => decide (rail < 8)
  | .droopEnd rail _ => decide (rail < 8)
  | .gateRestartStep row => decide (row < 16)
  | .thermalLimitStep => true
  | .thermalTrip => true
  | .energyClear r => r.wf
  | .throttleClear r => r.wf
  | .tempClear r => r.wf
  | .verticalTransfer col i attempts _ => decide (col < 384 ∧ i < 5 ∧ attempts ≠ [])
  | .powerClusterFail t => tileOk t
  | .tileFloorTimeout t => tileOk t
  | .homeSliceAccess who addr len _ => who.wf && decide (addr < 2 ^ 64 ∧ 1 ≤ len ∧ len ≤ 64)
  | .sliceFillReturn _ _ => true
  | .lineRepair _ => true
  | .hbmRefresh st _ => decide (st < 12)
  | .patrolScrub st => decide (st < 5)
  | .hbmChannelFail st ch => decide (st < 12 ∧ ch < 32)
  | .stallSample => true
  | .tileProgramStart t => tileOk t
  | .nop t => tileOk t
  | .loop t => tileOk t
  | .setb t => tileOk t
  | .loadb t => tileOk t
  | .matmul t => tileOk t
  | .endProgram t => tileOk t
  | .copy t => tileOk t
  | .fill t => tileOk t
  | .add t => tileOk t
  | .sub t => tileOk t
  | .mul t => tileOk t
  | .fma t => tileOk t
  | .div t => tileOk t
  | .sqrt t => tileOk t
  | .rsqrt t => tileOk t
  | .exp t => tileOk t
  | .log t => tileOk t
  | .tanh t => tileOk t
  | .logistic t => tileOk t
  | .sin t => tileOk t
  | .cos t => tileOk t
  | .max t => tileOk t
  | .min t => tileOk t
  | .abs t => tileOk t
  | .cmpgt t => tileOk t
  | .select t => tileOk t
  | .axpb t => tileOk t
  | .addsr t => tileOk t
  | .rsum t => tileOk t
  | .rmax t => tileOk t
  | .rsumsq t => tileOk t
  | .rmaxabs t => tileOk t
  | .mxpack t => tileOk t
  | .mxunpack t => tileOk t
  | .update t => tileOk t
  | .load t => tileOk t
  | .store tile => tileOk tile
  | .streamGather t => tileOk t
  | .streamScatter t => tileOk t
  | .streamFill t => tileOk t
  | .descriptorComplete t _ => tileOk t
  | .trap t => tileOk t
  | .tileCountersClear r => r.wf
  | .crackerGather c => channelOk c
  | .crackerScatter c => channelOk c
  | .grad c => channelOk c
  | .flatGather c => channelOk c
  | .batchRelease c => channelOk c
  | .sectorDone c _ => channelOk c
  | .mergePass b => decide (b < 32)
  | .sweepFeed b => decide (b < 32)
  | .stagedRowReady b _ => decide (b < 32)
  | .crackerCountersClear r => r.wf
  | .denseCheckUpdate g => decide (g < 4096)
  | .stagingCut => true
  | .sweepRow g _ => decide (4096 ≤ g ∧ g < 4128)
  | .sweepWriteAck g _ => decide (4096 ≤ g ∧ g < 4128)
  | .sweepResume => true
  | .stepBoundary _ => true
  | .abortStep r => r.wf
  | .silentClear r => r.wf
  | .portMode r => r.wf
  | .laneFail p l => portOk p && decide (l < 9)
  | .portTrainingDone p _ _ => portOk p
  | .trainingRetry p _ _ => portOk p
  | .flitReceive p flit => portOk p && decide (flit.bytes.length = 256 ∧ flit.fec.length ≤ 9)
  | .hopDeadline p => portOk p
  | .probe p => portOk p
  | .data p => p.wf
  | .ready p => p.wf
  | .go p => p.wf
  | .result p => p.wf
  | .ack p => p.wf
  | .pathNotice p => p.wf
  | .inbound p => p.wf
  | .tableReq p => p.wf
  | .tableRsp p => p.wf
  | .mirror p => p.wf
  | .mirrorAck p => p.wf
  | .relayedRequest p => p.wf
  | .relayedReply p => p.wf
  | .committedStepReport p => p.wf
  | .restorePoint p => p.wf
  | .lineRequest p => p.wf
  | .lineReply p => p.wf
  | .fullTransferRequest p => p.wf
  | .holdNotice p => p.wf
  | .ackTimer k => k.wf
  | .resendTimeout k => k.wf
  | .epochWrite r => r.wf
  | .allReduce k => k.wf
  | .reduceScatter k => k.wf
  | .allGather k => k.wf
  | .allToAll k => k.wf
  | .broadcast k => k.wf
  | .exchange k => k.wf
  | .reductionDeadline k => k.wf
  | .collectiveComplete k => k.wf
  | .resultSend => true
  | .fabricCountersClear r => r.wf
  | .feMode r => r.wf
  | .fePortReset r => r.wf
  | .neighborRequest p _ _ => decide (p < 3)
  | .rdmaWrite o _ _ _ => connOk o.conn
  | .rdmaRead o _ _ _ => connOk o.conn
  | .flushReadRelease c => connOk c
  | .cnpReceive c => connOk c
  | .egressRateRise c => connOk c
  | .transportRetryTimeout c => connOk c
  | .connEnable r => r.wf
  | .connReset r => r.wf
  | .postCount c => connOk c
  | .cqConsumed c => connOk c
  | .entryRead q => queueOk q
  | .entryReread q => queueOk q
  | .queueEnable r => r.wf
  | .queueDisable r => r.wf
  | .dispatch q _ => queueOk q
  | .fillCommand q _ => queueOk q
  | .exportEntry q _ => queueOk q
  | .exportAck c => connOk c
  | .nopEntry q _ => queueOk q
  | .entryComplete q _ => queueOk q
  | .feCountersClear r => r.wf
  | .buddy r => r.wf
  | .buddyTimeout => true
  | .snapshotBase r => r.wf
  | .memberTimeout _ => true
  | .recoveryWrite r => r.wf
  | .shardVerify g _ _ _ _ => decide (g < 4128)
  | .restoreSubmit r => r.wf
  | .replay => true
  | .resume r => r.wf
  | .twinTimeout => true
  | .twinLateLimit => true
  | .twinRejoin => true
  | .read r => r.wf
  | .write r => r.wf
  | .revert r => r.wf
  | .seal r => r.wf
  | .abandon r => r.wf
  | .describe r => r.wf
  | .enumerate r => r.wf
  | .hello r => r.wf
  | .prove r => r.wf
  | .close r => r.wf
  | .sessionExpire _ => true
  | .helloLockoutEnd => true
  | .relayTimeout _ => true
  | .batchExpire _ b => decide (1 ≤ b ∧ b < 65536)
  | .eventAck r => r.wf
  | .snapshotTake r => r.wf
  | .memCountersClear r => r.wf
  | .protCountersClear r => r.wf
  | .floorCommit r => r.wf
  | .uploadTarget r => r.wf
  | .uploadData r => r.wf
  | .uploadVerify r => r.wf
  | .attestRequest r => r.wf
  | .attestReady => true
  | .testStateEnter r => r.wf
  | .testStateExit r => r.wf
  | .marginSweep r => r.wf
  | .marginSweepEnd _ _ => true
  | .bistRerun r found hbm => r.wf && found.wf && hbm.wf
  | .feLinkDown p => fePortOk p
  | .feLinkUp p => fePortOk p
  | .priorityFlowControlFrame p pr q => fePortOk p && decide (pr < 8 ∧ q < 65536)
  | .writeBackComplete _ => true
  | .tileSupplyBelowFloor t _ => tileOk t
  | .tileSupplyRestored t _ => tileOk t

end Sys2Proof
end

