-- ==== Sys2Proof/Decode.lean ====
section
/-! DEFINITION. Decoding of command words. spec/opcode_table.json gives no row any bits: commands reach the module as packets,
messages and events, so there is no word that spells one. -/

namespace Sys2Proof

/-- The command that a word spells by the table's bits: none, since no row of the table has bits. -/
def decodeTableWord (_nbits _w : Nat) : Option Instr := none

end Sys2Proof
end

