-- ==== Sys2Proof/Config.lean ====
section
/-! DEFINITION. What the spec leaves open: free values (opaque constants, applied to a counter of the state or to the operands)
and functions that other standards or the unit's factory data fix. Nothing here has a value that a proof can see. -/

namespace Sys2Proof.Config

/-- A byte that reads as nothing the spec fixes: the free counter of the state and the byte's address (R206, R115, R158,
R167, R180). Assumption 3. -/
opaque freeByte : Nat → Nat → BitVec 8

/-- The syndrome with which a never-written 64-bit word reads: counter and word number (R206). Assumption 3. -/
opaque freeSyndrome : Nat → Nat → BitVec 8

/-- Result bits of a transcendental function before profile H's bound is put on them (R59): profile, vop, working format wide,
operand bits. Assumption 4. -/
opaque transcendental : Nat → Nat → Bool → BitVec 64 → BitVec 64

/-- A byte of the Husk entropy source: draw number and byte index (R356). Assumption 5. -/
opaque entropy : Nat → Nat → BitVec 8

/-- XMSS verification of RFC 8391 under XMSS-SHAKE256_20_256: public key, message, signature (R347, R348). Assumption 6. -/
opaque xmssVerify : List (BitVec 8) → List (BitVec 8) → List (BitVec 8) → Bool

/-- A byte of the XMSS^MT signature of a message under the unit's identity key: index, message, byte number (R357, R359).
Assumption 6. -/
opaque xmssmtSign : Nat → List (BitVec 8) → Nat → BitVec 8

/-- The factory's power model of R312: power of the last sample (W), gate and setpoint (mV) it was drawn at, gate and setpoint
asked about; the answer is the predicted power (W). Assumption 7. -/
opaque predictedPower : Nat → Nat → Nat → Nat → Nat → Nat

/-- Which HBM row of its bank the scrubber or controller finds needing repair, and other choices of the unit that the spec
leaves to it, by counter. Assumption 3. -/
opaque unitChoice : Nat → Nat → Nat

/-- Words of Husk state storage beyond the first, each held in two copies (Table 8.2). Assumption 78. -/
opaque huskWords : Nat

/-- The address that the scrub log gives for a word of Husk state storage, which has none in the module's space: copy number.
Assumption 78. -/
opaque huskAddress : Nat → Nat

/-- Rows that a member slot sends to this module in an EXCHANGE: group, step, slot, and whether they are its deferred
contribution. No field or packet of the spec tells a receiver their number (R188, R242). Assumption 68. -/
opaque exchangeRows : Nat → Nat → Nat → Bool → Nat

/-- The placement that the spec leaves open of what Acorn writes in its area: client, record number (R282). Assumption 8. -/
opaque acornPlace : Nat → Nat → Nat

/-- Where in its area a module puts what the spec gives no place in it: a deferred contribution (area 0: group, step), a client's
record (area 1: node, kind, group, step), the copy of a DELTA (area 2: group, step). Assumption 77. -/
opaque areaPlace : Nat → List Nat → Nat

end Sys2Proof.Config
end

