-- ==== Sys2Proof/Machine/Table.lean ====
section
/-! DEFINITION. The operations of sparse tables: reading a key with its default, and writing one so that the canonical form
(keys strictly rising, no entry equal to the default) is kept. -/

namespace Sys2Proof.Machine

open Sys2Proof

/-- The entry of key `k`, if there is one. -/
def tabFind {α : Type} : Tab α → Nat → Option α
  | [], _ => none
  | (j, v) :: t, k => if j = k then some v else if k < j then none else tabFind t k

/-- The value of key `k` in a table whose unlisted keys have value `d`. -/
def tabGet {α : Type} (d : α) (t : Tab α) (k : Nat) : α :=
  (tabFind t k).getD d

/-- The table without an entry for `k`. -/
def tabErase {α : Type} : Tab α → Nat → Tab α
  | [], _ => []
  | (j, v) :: t, k => if j = k then t else if k < j then (j, v) :: t else (j, v) :: tabErase t k

/-- The table with entry `v` for `k`. -/
def tabInsert {α : Type} : Tab α → Nat → α → Tab α
  | [], k, v => [(k, v)]
  | (j, u) :: t, k, v =>
    if j = k then (k, v) :: t else if k < j then (k, v) :: (j, u) :: t else (j, u) :: tabInsert t k v

/-- The table in which `k` has value `v`: an entry equal to the default is left out. -/
def tabSet {α : Type} [DecidableEq α] (d : α) (t : Tab α) (k : Nat) (v : α) : Tab α :=
  if v = d then tabErase t k else tabInsert t k v

/-- The table with key `k` changed by `f`. -/
def tabModify {α : Type} [DecidableEq α] (d : α) (t : Tab α) (k : Nat) (f : α → α) : Tab α :=
  tabSet d t k (f (tabGet d t k))

/-- The table without the keys from `lo` to `hi` − 1. -/
def tabDrop {α : Type} (t : Tab α) (lo hi : Nat) : Tab α :=
  t.filter (fun e => decide (e.1 < lo ∨ hi ≤ e.1))

/-- The entries with keys from `lo` to `hi` − 1, their keys counted from `lo`. -/
def tabSlice {α : Type} (t : Tab α) (lo hi : Nat) : Tab α :=
  (t.filter (fun e => decide (lo ≤ e.1 ∧ e.1 < hi))).map (fun e => (e.1 - lo, e.2))

/-- Add `n` to a counter of a table of counters. -/
def tabCount (t : Tab Nat) (k n : Nat) : Tab Nat :=
  tabModify 0 t k (· + n)

/-- Keys strictly rising and all above `b`. -/
def tabRising {α : Type} : Option Nat → Tab α → Bool
  | _, [] => true
  | none, (j, _) :: t => tabRising (some j) t
  | some b, (j, _) :: t => decide (b < j) && tabRising (some j) t

/-- The canonical form of a table with default `d`. -/
def tabWf {α : Type} [DecidableEq α] (d : α) (t : Tab α) : Bool :=
  tabRising none t && t.all (fun e => decide (e.2 ≠ d))

/-- A set of numbers with one more member. -/
def setAdd (l : NatSet) (n : Nat) : NatSet :=
  if l.contains n then l else l ++ [n]

/-- A set of numbers, ascending, with one more member. -/
def setAddSorted : NatSet → Nat → NatSet
  | [], n => [n]
  | m :: l, n => if n = m then m :: l else if n < m then n :: m :: l else m :: setAddSorted l n

/-- A set of numbers without one member. -/
def setRemove (l : NatSet) (n : Nat) : NatSet :=
  l.filter (fun m => decide (m ≠ n))

/-- The set with exactly the members of both. -/
def setUnion (a b : NatSet) : NatSet := b.foldl setAdd a

/-- The list with entry `i` replaced; unchanged when it has no entry `i`. -/
def listSet {α : Type} : List α → Nat → α → List α
  | [], _, _ => []
  | _ :: l, 0, v => v :: l
  | x :: l, i + 1, v => x :: listSet l i v

/-- Entry `i` of the list, or `d`. -/
def listGet {α : Type} (d : α) : List α → Nat → α
  | [], _ => d
  | x :: _, 0 => x
  | _ :: l, i + 1 => listGet d l i

end Sys2Proof.Machine
end

