-- ==== Sys2Proof/Machine/Codes.lean ====
section
/-! DEFINITION. Bytes, words and codes: little-endian fields, the (72,64) code of R193, the CRC-32 of R222, SHAKE256 and KMAC256
(R335, R356), reference-period conversion (R36). -/

namespace Sys2Proof.Machine

open Sys2Proof

/-- A natural number from little-endian bytes. -/
def natOfBytes : List Byte → Nat
  | [] => 0
  | b :: l => b.toNat + 256 * natOfBytes l

/-- `n` little-endian bytes of a natural number. -/
def bytesOfNat : Nat → Nat → List Byte
  | 0, _ => []
  | n + 1, v => BitVec.ofNat 8 v :: bytesOfNat n (v / 256)

/-- Bits [lo + len − 1 : lo] of a number. -/
def bitsAt (v lo len : Nat) : Nat := v / 2 ^ lo % 2 ^ len

/-- Bit `i` of a number. -/
def bitAt (v i : Nat) : Bool := decide (v / 2 ^ i % 2 = 1)

/-- A field of `len` bits sign-extended. -/
def signed (len v : Nat) : Int := if 2 * (v % 2 ^ len) < 2 ^ len then (v % 2 ^ len : Int) else (v % 2 ^ len : Int) - 2 ^ len

/-- 1 for true. -/
def natOfBool (b : Bool) : Nat := if b then 1 else 0

/-- A code from class, block and detail (R28). -/
def codeOf (cls block detail : Nat) : Code := BitVec.ofNat 32 (cls * 2 ^ 24 + block * 2 ^ 16 + detail)

/-- The class of a code. -/
def codeClass (c : Code) : Nat := c.toNat / 2 ^ 24

/-- Reference periods in ns: multiplied by 6.4 and rounded toward zero (R36). -/
def periodsToNs (p : Nat) : Nat := p * 64 / 10

/-! ## The (72,64) code -/

/-- The eight-bit values with exactly three bits set, ascending (R193). -/
def weightThree : List (BitVec 8) :=
  ((List.range 256).filter (fun v => decide (((List.range 8).filter (fun i => bitAt v i)).length = 3))).map (BitVec.ofNat 8)

/-- The columns of data bits 56 to 63 (R193). -/
def lastColumns : List (BitVec 8) := [0x1F, 0x2F, 0x37, 0x3B, 0x3D, 0x3E, 0x4F, 0x57]

/-- The columns of data bits 0 to 63. -/
def eccColumns : List (BitVec 8) := weightThree ++ lastColumns

/-- The exclusive or of the columns of the bits set in a word. -/
def checkFold : List (BitVec 8) → Nat → BitVec 64 → BitVec 8
  | [], _, _ => 0
  | c :: l, i, d => (if d.getLsbD i then c else 0) ^^^ checkFold l (i + 1) d

/-- The check bits of a word (R193). -/
def eccCheck (d : Word64) : BitVec 8 := checkFold eccColumns 0 d

/-- The syndrome of a word read with check bits `c` (R193). -/
def eccSyndrome (d : Word64) (c : BitVec 8) : BitVec 8 := eccCheck d ^^^ c

/-- Position of a value in a list, counting from `i`. -/
def indexIn (v : BitVec 8) : Nat → List (BitVec 8) → Option Nat
  | _, [] => none
  | i, x :: l => if x = v then some i else indexIn v (i + 1) l

/-- What a syndrome means (Table 8.1). -/
inductive Decoded where
  | clean
  | dataBit (i : Nat)
  | checkBit (j : Nat)
  | poison
  | uncorrectable
  deriving DecidableEq, Repr

/-- The meaning of a syndrome (Table 8.1). -/
def decodeSyndrome (s : BitVec 8) : Decoded :=
  if s = 0 then .clean
  else if s = 0xFF then .poison
  else
    match indexIn s 0 eccColumns with
    | some i => .dataBit i
    | none =>
      match indexIn s 0 [0x01, 0x02, 0x04, 0x08, 0x10, 0x20, 0x40, 0x80] with
      | some j => .checkBit j
      | none => .uncorrectable

/-- The signal TSV that carried the bit a syndrome names, within word `w` of a transfer: data bits 0 to 63, check bits 64 to 71. -/
def namedTsv (w : Nat) (s : BitVec 8) : Option Nat :=
  match decodeSyndrome s with
  | .dataBit i => some (72 * w + i)
  | .checkBit j => some (72 * w + 64 + j)
  | _ => none

/-! ## CRC-32 (R222) -/

/-- One bit of the reflected CRC-32 of polynomial 0x04C11DB7. -/
def crcBits : Nat → BitVec 32 → BitVec 32
  | 0, c => c
  | k + 1, c => crcBits k (if c.getLsbD 0 then (c >>> 1) ^^^ 0xEDB88320 else c >>> 1)

/-- The IEEE 802.3 CRC-32 of bytes: starts from 0xFFFF_FFFF and is complemented at the end. -/
def crc32 (l : List Byte) : BitVec 32 :=
  ~~~ (l.foldl (fun c b => crcBits 8 (c ^^^ b.zeroExtend 32)) 0xFFFFFFFF)

/-! ## SHAKE256 and KMAC256 (FIPS 202, SP 800-185) -/

/-- Where each lane of the next round comes from (pi and rho of FIPS 202 in one table): the lane x + 5y it is taken from, and by
how much it is turned, in the order of the lanes it goes to. -/
def laneMoves : List (Nat × Nat) :=
  [(0, 0), (6, 44), (12, 43), (18, 21), (24, 14)] ++ [(3, 28), (9, 20), (10, 3), (16, 45), (22, 61)] ++
  [(1, 1), (7, 6), (13, 25), (19, 8), (20, 18)] ++ [(4, 27), (5, 36), (11, 10), (17, 15), (23, 56)] ++
  [(2, 62), (8, 55), (14, 39), (15, 41), (21, 2)]

/-- The seven bits that each round's iota sets, lowest first at place 2^j − 1 of lane 0: the output of the 8-bit register of FIPS
202. -/
def iotaBits : List Nat := [1, 26, 94, 112, 31, 33, 121, 85, 14, 12, 53, 38] ++ [63, 79, 93, 83, 82, 72, 22, 102, 121, 88, 33, 116]

/-- The word that a round adds to lane 0. -/
def iotaWord (bits : Nat) : BitVec 64 := BitVec.ofNat 64 ((List.range 7).foldl (fun a j => if bitAt bits j then a + 2 ^ (2 ^ j - 1) else a) 0)

/-- A Keccak state by its rows of five lanes. -/
def rowsOf (a : List (BitVec 64)) : List (List (BitVec 64)) := (List.range 5).map (fun y => (a.drop (5 * y)).take 5)

/-- chi of a row: each lane with the two that follow it around. -/
def chiRow : List (BitVec 64) → List (BitVec 64)
  | [p, q, r, s, t] => [p ^^^ (r &&& ~~~ q), q ^^^ (s &&& ~~~ r), r ^^^ (t &&& ~~~ s), s ^^^ (p &&& ~~~ t), t ^^^ (q &&& ~~~ p)]
  | l => l

/-- What theta adds to every lane of each column, from the parities of the columns on both sides. -/
def columnMix : List (BitVec 64) → List (BitVec 64)
  | [p, q, r, s, t] => [t ^^^ q.rotateLeft 1, p ^^^ r.rotateLeft 1, q ^^^ s.rotateLeft 1, r ^^^ t.rotateLeft 1, s ^^^ p.rotateLeft 1]
  | l => l

/-- One round of Keccak-f[1600]: theta by rows, the lanes moved and turned, chi by rows, iota. -/
def keccakRound (a : List (BitVec 64)) (bits : Nat) : List (BitVec 64) :=
  let rows := rowsOf a
  let mix := columnMix (rows.foldl (List.zipWith (· ^^^ ·)) (List.replicate 5 0))
  let mixed := rows.flatMap (fun l => List.zipWith (· ^^^ ·) l mix)
  let moved := laneMoves.map (fun m => (listGet 0 mixed m.1).rotateLeft m.2)
  listSet ((rowsOf moved).flatMap chiRow) 0 (iotaWord bits ^^^ listGet 0 ((rowsOf moved).flatMap chiRow) 0)

/-- Keccak-f[1600]. -/
def keccakF (a : List (BitVec 64)) : List (BitVec 64) := iotaBits.foldl keccakRound a

/-- The 64-bit words of bytes. -/
def wordsOfBytes : Nat → List Byte → List (BitVec 64)
  | 0, _ => []
  | n + 1, l => BitVec.ofNat 64 (natOfBytes (l.take 8)) :: wordsOfBytes n (l.drop 8)

/-- Absorb one block of 136 bytes. -/
def absorbBlock (a : List (BitVec 64)) (block : List Byte) : List (BitVec 64) :=
  keccakF (List.zipWith (· ^^^ ·) a (wordsOfBytes 17 block ++ List.replicate 8 0))

/-- Absorb `n` blocks. -/
def absorb : Nat → List (BitVec 64) → List Byte → List (BitVec 64)
  | 0, a, _ => a
  | n + 1, a, l => absorb n (absorbBlock a (l.take 136)) (l.drop 136)

/-- Squeeze `n` blocks of 136 bytes. -/
def squeeze : Nat → List (BitVec 64) → List Byte
  | 0, _ => []
  | n + 1, a => (a.take 17).flatMap (fun w => bytesOfNat 8 w.toNat) ++ squeeze n (keccakF a)

/-- The sponge of capacity 512 with a domain byte. -/
def sponge256 (domain : Byte) (msg : List Byte) (outBytes : Nat) : List Byte :=
  let gap := 135 - msg.length % 136
  let padded := if gap = 0 then msg ++ [domain ^^^ 0x80] else msg ++ [domain] ++ List.replicate (gap - 1) 0 ++ [0x80]
  (squeeze (outBytes / 136 + 1) (absorb (padded.length / 136) (List.replicate 25 0) padded)).take outBytes

/-- SHAKE256 with `n` bytes of output. -/
def shake256 (msg : List Byte) (n : Nat) : List Byte := sponge256 0x1F msg n

/-- The big-endian bytes of a number without leading zeros, at least one. -/
def bigEndian (v : Nat) : List Byte := (bytesOfNat ((bitLen8 v + 7) / 8) v).reverse
where
  bitLen8 (v : Nat) : Nat := if v = 0 then 8 else Nat.log2 v + 1

/-- left_encode of SP 800-185. -/
def leftEncode (v : Nat) : List Byte := BitVec.ofNat 8 (bigEndian v).length :: bigEndian v

/-- right_encode of SP 800-185. -/
def rightEncode (v : Nat) : List Byte := bigEndian v ++ [BitVec.ofNat 8 (bigEndian v).length]

/-- encode_string of SP 800-185. -/
def encodeString (l : List Byte) : List Byte := leftEncode (8 * l.length) ++ l

/-- bytepad to the rate of 136 bytes. -/
def bytepad (l : List Byte) : List Byte :=
  let x := leftEncode 136 ++ l
  x ++ List.replicate ((136 - x.length % 136) % 136) 0

/-- The bytes of an ASCII string. -/
def asciiBytes (s : String) : List Byte := s.toList.map (fun c => BitVec.ofNat 8 c.toNat)

/-- KMAC256 with L = 256 (R356). -/
def kmac256 (key msg : List Byte) (custom : String) : List Byte :=
  sponge256 0x04
    (bytepad (encodeString (asciiBytes "KMAC") ++ encodeString (asciiBytes custom)) ++ bytepad (encodeString key) ++ msg
      ++ rightEncode 256) 32

end Sys2Proof.Machine
end

