-- ==== Sys2Proof/Machine/State.lean ====
section
/-! DEFINITION. The state of the module as plain data: every register, object value, queue, buffer, counter, mode and pin the spec
gives it, the queue of waiting commands, and the state after reset. Tables are sparse (`Tab`): a key without an entry has the
value its field's comment names. Field comments name the object or rule of the spec. -/

namespace Sys2Proof.Machine

open Sys2Proof

/-- Why the module model stops with a fault. No meaning raises it: the module reports every error by a code and goes on
(R26, R338), so the type has one constructor only because a type of reasons needs a member. Safe. -/
inductive Fault where
  | none_defined
  deriving DecidableEq, Repr

/-- Why a command has no meaning. -/
inductive Refusal where
  /-- The command is not modelled yet; raised only by arms of exec. Safe. -/
  | notModelled (mnemonic : String)
  deriving DecidableEq, Repr

/-- Protected memory: the written bytes by address, and the syndrome of each 64-bit word whose stored check bits do not match
its data (key: address div 8; absent: 0x00). A byte absent from `cells` was never written (R206). -/
structure Memory where
  cells : Tab Byte
  synd : Tab Byte
  deriving DecidableEq, Repr

/-! ## Power, rails, pace, heat -/

/-- Power control, rails, pace monitors, sensors and the reference oscillator. -/
structure Power where
  v36 : Bool                   -- 36 V present (R307)
  modPresent : Bool            -- MOD_PRESENT_N mated (R369)
  shutdownLow : Bool           -- SHUTDOWN_N held low (R367)
  convertersOn : Bool          -- front-end converters running
  inputMv : Nat                -- 0x2000.01
  samples : List Nat           -- the last 125 power samples, newest first (0x2000.02)
  converterFailed : NatSet     -- 0x2000.03
  shortUj : Nat                -- level of the short bucket, µJ (0x2000.07)
  longUj : Nat                 -- level of the long bucket, µJ
  shortActive : Bool           -- R312
  longActive : Bool
  target : Nat                 -- target of the last sample, W (R312)
  powerLimitMv : Nat           -- power_limit_setpoint (R312)
  thermalLimitMv : Nat         -- thermal limit term (R321)
  powerGate : Nat              -- gate set by power control for every row (R312, R314)
  thermalGates : Tab Nat       -- gate of a row set by thermal control; absent: 16 (R321)
  restart : Tab Nat            -- idle restart of a row: 4 or 8 while held; absent: none (R314)
  rowIdle : Tab Nat            -- reference periods for which a row's tiles have all been idle (R314)
  lowInput : Bool              -- 0x0611_0C03 raised for the present low input (R307)
  railSet : List Nat           -- 0x2001.01, mV, rails 0 to 7
  railMv : List Nat            -- 0x2001.02
  railMa : List Nat            -- 0x2001.03
  droop : NatSet               -- rails in droop (R316)
  rampWait : Bool              -- a requested ramp step waits for a droop (Table 12.4)
  floorStops : Nat             -- 0x2001.05
  droops : Tab Nat             -- 0x2001.06
  stopped : NatSet             -- layers whose handshakes the supervisor holds (R32)
  energy : Tab Nat             -- 0x2002.01
  queueEnergy : Tab Nat        -- 0x2002.02
  tileLoad : Tab Nat           -- MACs, lane operations and stream bytes of a tile at the last sample (R319)
  throttleReason : Nat         -- 0x2003.01
  throttleTime : Tab Nat       -- 0x2003.02
  temps : List Int             -- 0x2004.01
  tempMax : List Int           -- 0x2004.02
  junctionRaised : Bool        -- 0x0612_0C05 raised for the present junction limit (R321)
  hbmHot : NatSet              -- stacks at or above 95 °C, whose activates are limited (R321)
  paceNow : List Nat           -- 0x2800.01, L0 to L5
  paceMin : List Nat           -- 0x2800.02
  paceMax : List Nat           -- 0x2800.03
  paceCleared : Bool           -- the next window restarts the minimum and maximum (R33)
  refPeriods : Nat             -- 0x2801.03
  tileFloor : NatSet           -- physical tiles stopped by their own supervisor (R216)
  tileSlow : NatSet            -- physical tiles with a failed power cluster awaiting retirement (R216)
  deriving DecidableEq, Repr

/-! ## Flash and start-up -/

/-- The trip record of Table 12.10. -/
structure TripRecord where
  cause : Nat
  sensor : Nat
  temperature : Nat
  trips : Nat
  step : Nat
  deriving DecidableEq, Repr

/-- The reset record of Table 14.3. -/
structure ResetRecord where
  cause : Nat
  code : Code
  step : Nat
  resets : Nat
  deriving DecidableEq, Repr

/-- An entry of the retirement log (R346). -/
inductive Retirement where
  | tile (p : Nat)
  | slice (i : Nat)
  | degraded (interface : Nat)
  | cut (interface : Nat)
  | cluster (p : Nat)
  | channel (c : Nat)
  deriving DecidableEq, Repr

/-- One image copy in flash: its image_state and its programmed bytes (R347, R351). -/
structure FlashCopy where
  state : Nat
  bytes : Tab Byte
  deriving DecidableEq, Repr

/-- The flash (Table 14.4): unit data, records and the four image copies (0 firmware A, 1 firmware B, 2 user A, 3 user B). -/
structure Flash where
  activeCount : Nat            -- the unit's active count A (R15)
  serial : List Byte           -- 0x1000.02
  boardRevision : List Byte    -- 0x1000.03
  mgmtMac : Nat                -- 0x1102.01
  feMac : List Nat             -- default of 0x5800.03
  bootKey : List Byte          -- the firmware public key that the boot ROM holds (R347)
  identityKey : List Byte      -- 0x7000.02
  identityCert : List Byte     -- 0x7000.03
  sigA : Nat × Nat             -- signing counter copy: write sequence, value (R358)
  sigB : Nat × Nat
  floor : Nat                  -- 0x1800.04
  userRoot : List Byte         -- 0x7000.01
  bootSelect : Nat             -- 0x1800.01
  userSelect : Nat             -- 0x1801.01
  trip : Option TripRecord     -- trip record not yet presented (R322)
  trips : Nat                  -- trips over the module's life
  reset : Option ResetRecord   -- reset record not yet presented (R344)
  resets : Nat                 -- stack resets over the module's life
  retirements : List Retirement
  copies : List FlashCopy
  deriving DecidableEq, Repr

/-- Start-up, test states, attestation (chapter 14). -/
structure Boot where
  phase : Nat                  -- 0x1810.01
  retired : Bool               -- the retirement log was applied and built-in test has run in this start-up
  firmwareRunning : Nat        -- 0x1800.02
  userRunning : Nat            -- 0x1801.02
  lastReset : ResetRecord      -- 0x1810.02
  lastTrip : TripRecord        -- 0x2005.01
  held : List (Code × Nat)     -- events of the start-up, raised in occurrence order at phase 8 (Table 14.7)
  uploadTarget : Nat           -- 0x1802.01
  sigIndex : Nat               -- 0x7000.04
  attestState : Nat            -- 0x7002.02
  attestReport : List Byte     -- 0x7002.03
  attestBody : List Byte       -- body being signed
  testState : Nat              -- 0x7010.01
  marginState : Nat            -- 0x7010.03
  marginRequest : List Byte    -- the request being swept
  marginResults : Tab Nat      -- 0x7010.04
  marginSummary : Tab Nat      -- 0x7010.05; absent: 0x8080
  bistReport : Tab Nat         -- 0x7010.06
  deriving DecidableEq, Repr

/-! ## The dictionary -/

/-- A reply of the dictionary server (Tables 13.3 and 13.4). -/
structure Reply where
  op : Nat
  requestId : BitVec 32
  session : BitVec 64
  status : Nat
  source : Nat
  index : Nat
  sub : Nat
  typ : BitVec 8
  effectiveStep : Nat
  ordinal : Nat
  data : List Byte
  deriving DecidableEq, Repr

/-- A session (R329, R356): role 1 operator, 2 owner, 3 provision; `pending` while it awaits PROVE. -/
structure Session where
  number : BitVec 64
  slot : Nat
  role : Nat
  pending : Bool
  nonceC : List Byte
  nonceM : List Byte
  replies : List Reply
  usedBatches : NatSet
  lastUse : Nat
  deriving DecidableEq, Repr

/-- A part of a batch (R330); `code` is that with which it failed its checks, 0 for none. -/
structure Part where
  key : Nat
  revert : Bool
  offset : Nat
  data : List Byte
  applyAt : Nat
  code : Code
  deriving DecidableEq, Repr

/-- An open batch (R330). -/
structure Batch where
  session : BitVec 64
  number : Nat
  applyAt : Nat
  parts : List Part
  deriving DecidableEq, Repr

/-- An accepted RWS write waiting for its boundary (R44, R45): `applyAt` 0 for the next staged set; `source` 2, or 9 for a REVERT,
which gives back the source of start-up (R337). -/
structure Staged where
  ordinal : Nat
  applyAt : Nat
  key : Nat
  offset : Nat
  data : List Byte
  source : Nat
  deriving DecidableEq, Repr

/-- An entry of the event log (Table 13.9). -/
structure Event where
  code : Code
  repeats : Nat
  step : Nat
  ordinal : Nat
  argument : Nat
  deriving DecidableEq, Repr

/-- A refusal record (Table 13.7). -/
structure RefusalRecord where
  code : Code
  step : Nat
  aKey : Nat
  aEntry : Nat
  bKey : Nat
  bEntry : Nat
  deriving DecidableEq, Repr

/-- How an object's value is held, for reading and comparing: bytes of a fixed list, elements of a table with a width and a
default, a range of the object store, or a configuration digest with what it hashes (R335). -/
inductive View where
  | bytes (l : List Byte)
  | elems (width count default : Nat) (t : Tab Nat)
  | store (length : Nat) (t : Tab Byte)
  | digest (t : Tab Byte) (groups : List Nat)
  deriving DecidableEq, Repr

/-- The dictionary server (chapter 13). Keys of objects are index × 256 + sub. -/
structure Dict where
  values : Tab Byte            -- bytes of RW and RWS objects that differ from the factory default: key × 2^32 + offset
  change : Tab Nat             -- change ordinal per key (R328)
  source : Tab Nat             -- source per key × 65536 + entry (R337); absent: that of the object's class
  startValues : Tab Byte       -- the values that start-up gave (REVERT, R337)
  startSource : Tab Nat
  ordinal : Nat                -- write ordinal (R328)
  sessions : List Session
  batches : List Batch
  relayed : List Reply         -- requests relayed and not yet answered (R331), as refusals to be sent
  staged : List Staged
  refusal : RefusalRecord      -- 0x1100.03
  refusalCount : Nat           -- 0x1100.04
  events : Tab Event           -- 0x1101.01
  eventNext : Nat              -- 0x1101.02
  eventTotal : Nat             -- 0x1101.03
  resiliencePending : Bool     -- 0x1101.04
  snapshot : List (Nat × View) -- counter snapshot (R340)
  snapshotOrdinal : Nat        -- 0x6800.02
  authFailures : Nat           -- 0x7001.02
  recentFailures : List Nat    -- reference periods of failed PROVEs (R356)
  lockout : Bool               -- HELLOs are refused (R356)
  draws : Nat                  -- draws taken from the entropy source
  deriving DecidableEq, Repr

/-! ## Tiles -/

/-- An enabled increment slot of a LOOP (Table 4.6) with its register's value at loop entry. -/
structure LoopSlot where
  reg : Nat
  inc : BitVec 64
  entry : BitVec 64
  deriving DecidableEq, Repr

/-- An open loop (R94): body bounds as addresses, iterations left and done. -/
structure Loop where
  first : Nat
  last : Nat
  left : Nat
  done : Nat
  slots : List LoopSlot
  deriving DecidableEq, Repr

/-- An interval of the tile's own store or a bank (R89): `bank` 0 for the store, 1 + b for accumulator bank b. -/
structure Interval where
  bank : Nat
  lo : Nat
  hi : Nat
  writes : Bool
  deriving DecidableEq, Repr

/-- A run of bytes: its first address and its length. -/
structure Run where
  lo : Nat
  len : Nat
  deriving DecidableEq, Repr

/-- A read request of a descriptor to the home slice of a line (R161): the bytes asked for, and whether they are index elements. -/
structure LineRead where
  lo : Nat
  len : Nat
  index : Bool
  deriving DecidableEq, Repr

/-- An issued descriptor that has not completed (R88, R91): program-order number, engine (0 matrix, 1 vector, 2 stream), channel,
footprint, signal, fault found while it ran, and where it stood; the read requests not yet made and those outstanding, the
writes that no home slice has accepted (R91, R161), and the bytes it reads and writes: of memory, and of accumulator banks
(R90). -/
structure Issued where
  number : Nat
  engine : Nat
  channel : Nat
  foot : List Interval
  signal : Option (Nat × Nat)
  fault : Option Code
  block : Nat
  pc : Nat
  depth : Nat
  iterations : List Nat
  reads : List LineRead
  waits : List LineRead
  writes : List Run
  sources : List Run
  dests : List Run
  bankDests : List Run
  deriving DecidableEq, Repr

/-- A program dispatched to a tile (R84, Table 10.10). -/
structure Program where
  queue : Nat
  seq : Nat
  step : Nat
  entry : Nat
  args : List Word64
  deriving DecidableEq, Repr

/-- The fault a tile's trap will record (Table 4.17). -/
structure TrapInfo where
  number : Nat
  code : Code
  block : Nat
  depth : Nat
  pc : Nat
  iterations : List Nat
  deriving DecidableEq, Repr

/-- What the rules of R86 and R90 ask of a running program: the descriptors that it has fetched, the bytes written since it
started, and whether one of its descriptors has been written while it runs. -/
structure ProgramUse where
  fetched : List Nat
  written : List Run
  stale : Bool
  deriving DecidableEq, Repr

/-- One logical tile (R81). -/
structure Tile where
  state : Nat                  -- 0x4001.01
  wait : Nat × Nat             -- counter and value waited on (0x4001.02)
  pc : Nat                     -- address of the next descriptor
  regs : List Word64           -- b0 to b15
  loops : List Loop            -- innermost first
  nextNumber : Nat             -- program-order number of the next descriptor
  issued : List Issued
  counters : Tab Nat           -- 0x4001.03
  program : Option Program     -- program running
  waiting : List Program       -- dispatched programs that wait for the tile to be idle (R84)
  trap : Option TrapInfo       -- a fault was detected; nothing more is issued (R115)
  record : Option (TrapInfo × Nat) -- trap record: fault and step (0x4001.04)
  trapCount : Nat              -- 0x4001.05
  nonfinite : Bool             -- 0x4001.06
  halts : Tab Nat              -- stream_status per channel (0x4005.01)
  matrixBusy : Nat             -- 0x4002.01
  matrixMacs : Nat             -- 0x4002.02
  vectorBusy : Nat             -- 0x4002.03
  vectorLanes : Nat            -- 0x4002.04
  streamBytes : Nat            -- 0x4002.05
  descriptors : Nat            -- 0x4002.06
  hold : Option Nat            -- cause for which the sequencer holds its next descriptor (Table 6.13)
  stalls : Tab Nat             -- 0x4003.01 to .04: 11 × engine + cause
  deriving DecidableEq, Repr

/-- Physical tiles, columns and their interfaces (chapters 1 and 8). -/
structure Stack where
  spare : NatSet               -- physical tiles in the spare state, ascending
  retired : NatSet             -- physical tiles retired, ascending
  tileMap : List Nat           -- physical tile of logical n, for n below active_tiles (0x4000.05)
  retiring : NatSet            -- physical tiles whose retirement waits for its boundary (R212)
  sliceRetiring : NatSet       -- slices whose retirement waits for its boundary
  tsvUsed : Tab Nat            -- spares used per interface 5p + i (0x3007.01)
  tsvRepeats : Tab Nat         -- 0x3007.02
  interfaces : Tab Nat         -- 0x3007.03
  slices : Tab Nat             -- 0x3007.04
  proxies : Tab Nat            -- 0x3007.05; absent: 0xFFFF
  clusters : Tab Nat           -- 0x3007.06
  tsvCounts : Tab Nat          -- namings per TSV (R210): interface × 4096 + TSV
  deriving DecidableEq, Repr

/-! ## Memory system -/

/-- A line in a cache set (R152 to R159): line number, dirty words, valid words, hint class. -/
structure Line where
  line : Nat
  dirty : BitVec 8
  valid : BitVec 8
  hint : Nat
  deriving DecidableEq, Repr

/-- An outstanding HBM fill of a slice (R154, R155, R173): the line, who asked first, the words asked for, and the words written
since. -/
structure Fill where
  line : Nat
  who : Initiator
  want : BitVec 8
  written : BitVec 8
  hint : Nat
  deriving DecidableEq, Repr

/-- An access of one line at its home slice: the words it reads, those it writes whole, those it writes at all, and the words that
a fill for it asks for (R154, R173). -/
structure SliceAccess where
  who : Initiator
  line : Nat
  need : BitVec 8
  full : BitVec 8
  dirty : BitVec 8
  ask : BitVec 8
  deriving DecidableEq, Repr

/-- A line in the write-back buffer of its slice: its dirty and its valid words (R154, R173). -/
structure WriteBack where
  line : Nat
  dirty : BitVec 8
  valid : BitVec 8
  deriving DecidableEq, Repr

/-- The shared cache's placement state, HBM timing state and their counters (chapter 6). -/
structure Cache where
  sets : Tab (List Line)       -- lines of a global set, most recently used first (R152, R156)
  fills : List Fill
  writebacks : List WriteBack  -- lines whose write-back is in flight (R154, R155)
  waiting : List (Initiator × Nat × BitVec 8) -- misses that found no free fill entry (R155), with the words they ask for
  blocked : List SliceAccess   -- accesses whose allocation waits for room in the write-back buffer (R155)
  hbmQueue : List (Nat × Bool) -- fills and write-backs (true) before HBM, in arrival order (R150)
  busBursts : Tab Nat          -- bursts of a pseudo-channel since its bus turned (R150)
  tagSynd : Tab Byte           -- syndrome of the tag and state entry of a held line; absent: 0x00 (Table 8.2)
  updating : NatSet            -- dense groups whose buffers and slots carry class 1 hints (R159)
  readBytes : Tab Nat          -- 0x3003.01
  writeBytes : Tab Nat         -- 0x3003.02
  activates : Tab Nat          -- 0x3003.03
  turns : Tab Nat              -- 0x3003.04
  refreshNs : Tab Nat          -- 0x3003.05
  refreshRate : Tab Nat        -- 0x3003.06; absent: 1
  openPages : Tab Nat          -- open row of a bank (R150); absent: closed
  lastWrite : NatSet           -- pseudo-channels whose bus points to writes (R150)
  hits : Tab Nat               -- 0x3004.01
  misses : Tab Nat             -- 0x3004.02
  evictions : Tab Nat          -- 0x3004.03, written back
  runaheadFills : Nat          -- 0x3004.04
  runaheadDropped : Nat        -- 0x3004.05
  deriving DecidableEq, Repr

/-- An access that a home slice holds until a line of saved state is repaired (R200). -/
structure HeldAccess where
  who : Initiator
  addr : Nat
  length : Nat
  write : Option (List Byte)
  deriving DecidableEq, Repr

/-- Protection counters, scrubbing, repairs (chapter 8; rows and channels of chapter 11). -/
structure Protect where
  corrected : Tab Nat          -- 0x3005.02
  uncorrectable : Tab Nat      -- 0x3005.03
  poisoned : Tab Nat           -- 0x3005.04
  narrow : Tab Nat             -- 0x3005.05
  savedRepairs : Nat           -- 0x3005.06
  reexecutions : Nat           -- 0x3005.07
  scrubAt : Tab Nat            -- next word of each store's pass (R208)
  scrubPasses : Tab Nat        -- 0x3006.03
  scrubLog : Tab (Nat × Nat × Nat × Nat) -- 0x3006.04: address, store, kind, step
  scrubNext : Nat              -- 0x3006.05
  scrubRows : NatSet           -- rows corrected in the last completed and the present pass (R276)
  heldLines : List (Nat × Nat) -- lines held for repair and the block that failed (R200)
  heldAccesses : List HeldAccess -- accesses that wait for a held line, oldest first (R200)
  huskSynd : Tab (Byte × Byte) -- syndromes of both copies of a word of Husk state storage; absent: both 0x00 (Table 8.2)
  lineValues : List (Nat × List Byte) -- committed values obtained for held lines (R200, R298)
  lineAsked : List (Nat × BitVec 24) -- peers that had no value of a held line: line and node (R298)
  lostGroups : NatSet          -- snapshot-method groups whose contents were lost (R298)
  rowRepairs : Tab Nat         -- repair rows used per bank (R276)
  repaired : List (Nat × Nat)  -- redirected rows: bank, row
  spread : NatSet              -- spread logical channels 32 × stack + c (R277)
  spreading : NatSet           -- channels to be spread at the recovery boundary
  deriving DecidableEq, Repr

/-! ## The Cracker -/

/-- A command handed to a Cracker channel: its address and the entry it came from (R174). -/
structure CrackerCmd where
  addr : Nat
  queue : Nat
  seq : Nat
  step : Nat
  deriving DecidableEq, Repr

/-- A remote row that a gather waits for (R177, R191): request, occurrences and where they go. -/
structure RemoteRows where
  seq : Nat
  channel : Nat
  owner : Nat
  rows : List (Nat × Nat)
  rowBytes : Nat
  deriving DecidableEq, Repr

/-- A channel of the Cracker (R172). -/
structure Channel where
  cmds : List CrackerCmd
  halt : Code                  -- 0x3802.01
  batches : List (Nat × List Nat) -- page batches not yet released: page key and sectors (R181)
  inflight : List Nat          -- sectors holding tracker entries (R183)
  remote : List RemoteRows
  ran : Bool                   -- the head command's data movement has been issued
  signal : Option (Nat × Nat)  -- its signal, sent when it completes
  quotaHeld : Nat              -- 0x3803.04
  deriving DecidableEq, Repr

/-- A sweep binding's work in the step (R186 to R189). -/
structure BindingWork where
  channel : Option Nat         -- channel of its GRAD commands
  lastMicrobatch : Option Nat
  directory : List Nat         -- global rows by slot, in order of first meeting
  inbound : Nat                -- inbound records written
  inboundFrom : Tab Nat        -- values received, per sender: 2 × slot, and one more for a deferred contribution
  exchanged : Bool             -- the exchange completed
  merged : Bool                -- the merge pass ran
  mergedRows : Nat             -- rows of the merge pass
  fed : Nat                    -- merged rows delivered to update tiles
  staging : List Nat           -- set-aside rows
  ready : NatSet               -- rows read and delivered, not yet updated
  deriving DecidableEq, Repr

/-- The Cracker (chapter 7). -/
structure Cracker where
  channels : Tab Channel
  bindings : Tab BindingWork
  heldRequests : List Packet   -- table requests held until their boundary (R191)
  nextSeq : Nat                -- sequence number of the next table request sent
  mergedRows : Tab Nat         -- 0x3802.02: rows of each binding's last merge pass
  sectorRequests : Nat         -- 0x3803.01
  shared : Nat                 -- 0x3803.02
  batches : Nat                -- 0x3803.03
  peak : Nat                   -- 0x3803.05
  runaheadDropped : Nat        -- 0x3803.06
  stagedRows : Nat             -- 0x3803.07
  served : Tab Nat             -- 0x3803.08
  queueLoad : Tab Nat          -- sector requests per work queue (R319)
  deriving DecidableEq, Repr

/-! ## The training step -/

/-- The step summary of Table 5.3 (agree is meaningful in the reduced one only). -/
structure Summary where
  nonfinite : Bool
  overBound : Bool
  fault : Bool
  agree : Bool
  gnorm : BitVec 64
  digest : BitVec 128
  deriving DecidableEq, Repr

/-- The commit record of Table 2.6. -/
structure CommitRecord where
  step : Nat
  applied : Bool
  configApplied : Bool
  nonfinite : Bool
  overBound : Bool
  digestMismatch : Bool
  deferrals : Nat
  epoch : Nat
  digest : BitVec 128
  deriving DecidableEq, Repr

/-- The loss-scale history of Table 3.6. -/
structure History where
  scaleExp : Nat
  minExp : Nat
  maxExp : Nat
  cleanSteps : Nat
  growth : Nat
  ringNext : Nat
  ringFill : Nat
  wideLeft : Nat
  overflowTotal : Nat
  ring : Tab Nat
  deriving DecidableEq, Repr

/-- Committed ledger of a parameter group (R131, R132, R144). -/
structure GroupLedger where
  liveIsOne : Bool             -- state slot 1 is the live slot
  updateCount : Nat            -- 0x4813.01
  zeroRun : Nat                -- 0x4813.02
  uflowRun : Nat               -- 0x4813.03
  silent : Bool                -- 0x4813.04
  deriving DecidableEq, Repr

/-- A group's progress within the step (R123, R128 to R130). -/
structure GroupWork where
  named : Bool                 -- an accepted entry of the step names it
  final : Bool
  coll : Nat                   -- address of its collective command (Table 10.11), 0 for none
  issued : Bool                -- contribution issued
  reduced : Bool
  checked : Bool
  sumSq : BitVec 64            -- S of R128
  under : Nat                  -- U of R128
  count : Nat                  -- n of R128
  nonfinite : Bool             -- detections fed to the flag
  overBound : Bool
  updated : Bool               -- shadow written (or counts as written)
  deriving DecidableEq, Repr

/-- A row of the sweep with its stage slot (R137, R138): events of Table 5.5 reached. -/
structure SweptRow where
  group : Nat
  row : Nat
  rank : Nat                   -- position in the row list
  slot : Nat
  state : Nat                  -- 0 free (held), 1 filling, 2 complete
  momentsAcked : Bool
  weightsAcked : Bool
  held : Bool                  -- non-finite result (R139)
  deriving DecidableEq, Repr

/-- The step, its boundary and the ledger (chapters 2, 3 and 5). -/
structure Training where
  committed : Nat              -- 0x2810.01
  boundarySeq : Nat            -- 0x2810.02
  record : CommitRecord        -- 0x2810.03
  boundaryNs : Nat             -- 0x2810.05
  started : Bool               -- the module has job state (R353)
  stepState : Nat              -- 0x4811.01
  localFault : Code            -- 0x4811.03
  faulted : Bool               -- a local fault of the step (R142)
  closed : Bool                -- abort_step closed the step (R143)
  skipTotal : Nat              -- 0x4811.04
  skipRun : Nat                -- 0x4811.05
  overBoundSeen : Nat          -- 0x4811.06
  lastHeldRow : Nat            -- 0x4811.07
  history : History            -- 0x4801.06
  ledger : Tab GroupLedger     -- 0x4813
  work : Tab GroupWork
  coefWritten : Bool           -- coefficient blocks of the step written (R131)
  cut : Bool                   -- the staging cut has passed
  lastCut : Nat                -- the step whose cut was the last to pass; a step re-executed after its cut keeps its staged set (R44)
  cutConfig : Option (Tab Byte) -- configuration that the staged set fixed at the cut leaves; none: no set or refused
  cutEpochs : List Nat         -- epochs that joined the boundary
  ownSummary : Option Summary
  reducedSummary : Option Summary
  decision : Option (Bool × Bool) -- non-finite and over-bound of the skip decision (R134)
  sweep : List SweptRow
  sweepBegun : Bool
  retireCut : Bool             -- retirements decided before the cut take effect at this boundary
  cutRetire : NatSet           -- tiles decided before the cut
  cutSlices : NatSet           -- slices decided before the cut
  escape : Bool                -- poison escaped in the step (R203)
  escapedStep : Option Nat     -- step being re-executed after an escape (R204)
  withheld : Bool              -- the cut of the step is withheld (R294)
  lateFault : Bool             -- a fault of the step after its cut: the module commits no step (R142)
  phasePeriods : Tab Nat       -- periods of the step per phase (R145)
  phaseStep : Nat              -- 0x4814.01
  phaseNs : Tab Nat            -- 0x4814.02
  deriving DecidableEq, Repr

/-! ## Peer fabric -/

/-- A sequenced flit kept for replay (R224): number, bytes, and source and destination of its packet; none for a probe. -/
structure SentFlit where
  seq : Nat
  bytes : List Byte
  ends : Option (BitVec 24 × BitVec 24)
  deriving DecidableEq, Repr

/-- A flit that waits for a credit: virtual channel, place in its packet (Table 9.5 pos), whether it ends a packet cut off, 216
payload bytes, poisoned payload words, source and destination of its packet, the packet's number in this module, and the input
port and virtual channel whose buffer it fills while it waits (R223, R228, R232). -/
structure OutFlit where
  vc : Nat
  pos : Nat
  abort : Bool
  payload : List Byte
  poison : NatSet
  ends : BitVec 24 × BitVec 24
  packet : Nat
  slot : Option (Nat × Nat)
  deriving DecidableEq, Repr

/-- A packet whose flits are sent on as they arrive (R228): its virtual channel here, the port and virtual channel it leaves by,
its number, its source and destination, and whether what is still to come is to be dropped. -/
structure Passing where
  vc : Nat
  out : Nat
  outVc : Nat
  packet : Nat
  ends : BitVec 24 × BitVec 24
  dropped : Bool
  deriving DecidableEq, Repr

/-- Room that a packet fills in a port's input buffer: port, virtual channel and flits (R223). -/
structure InputRoom where
  port : Nat
  vc : Nat
  flits : Nat
  deriving DecidableEq, Repr

/-- A peer port (R218 to R225). -/
structure Port where
  state : Nat                  -- 0x5000.02: 0 off, 1 training, 2 up, 3 up at half width
  badLanes : NatSet            -- lanes known bad
  spareUsed : Bool             -- the spare has replaced a lane
  txSeq : Nat                  -- next sequence number to send
  rxLast : Nat                 -- last flit accepted
  replay : List SentFlit
  discarding : Bool            -- a nak was answered and the replayed flit is awaited
  credits : Tab Nat            -- credits held per virtual channel
  granted : Tab Nat            -- flits per virtual channel that the partner still has credits for (R223)
  openOut : Tab Nat            -- one more than the number of the packet that a virtual channel is in the middle of sending (R230)
  passing : List Passing       -- packets forwarded while they arrive (R228)
  outbox : List OutFlit        -- flits waiting for credits, in sending order (R223)
  assembling : List (Nat × List (Byte × Bool)) -- packet bytes gathered per virtual channel, with poison marks
  faultCode : Code             -- link fault record (Table 9.6)
  faultStep : Nat
  hopFailures : Nat
  deriving DecidableEq, Repr

/-- A member slot entry of Table 9.10. -/
structure Member where
  node : BitVec 24
  generation : Nat
  deriving DecidableEq, Repr

/-- A communication group in force (R234). -/
structure CommGroup where
  number : Nat
  root : Nat
  members : List Member
  deriving DecidableEq, Repr

/-- A group block of an epoch record: `none` members removes the group. -/
structure GroupBlock where
  number : Nat
  root : Nat
  members : Option (List Member)
  deriving DecidableEq, Repr

/-- An accepted epoch record waiting for its boundary (R234). -/
structure EpochRecord where
  epoch : Nat
  applyAt : Nat
  blocks : List GroupBlock
  deriving DecidableEq, Repr

/-- A contribution that this module owes or holds deferred from the last step (R245). -/
structure Deferred where
  group : Nat
  comm : Nat
  step : Nat
  values : List (BitVec 64)
  marks : NatSet               -- places of poisoned values (R202)
  deriving DecidableEq, Repr

/-- A collective in progress (R237 to R247). Decisions per slot: 0 included, 1 deferred, 2 dropped, 3 older. -/
structure Coll where
  key : CollKey
  kind : Nat
  dirBoth : Bool
  signal : Option (Nat × Nat)
  fmt : Nat
  source : Nat
  send : Nat
  recv : Nat
  count : Nat
  step : Nat
  entry : Option (Nat × Nat)   -- work-queue entry of a free-standing collective
  readySent : Bool
  readyFrom : NatSet           -- slots whose READY the root has granted on time
  timer : Bool                 -- the root's deadline timer runs
  expired : Bool
  goSent : Bool
  decisions : List Nat         -- of the GO held; empty: none held
  deferredIn : NatSet          -- slots whose deferred contribution is to be added
  ran : Bool                   -- the member's own part has been sent
  partials : Tab (BitVec 64)   -- partial sums or values received, per element
  chunksDone : NatSet          -- elements or chunks whose final data was written here
  deferredSeen : List (Nat × Nat × List (BitVec 64)) -- deferred contributions at the owner: slot, first element, values
  flagOr : Bool                -- flag_or delivered by the chain (R247)
  received : Nat               -- elements written under R242
  sent : Nat                   -- packets sent and not yet acknowledged
  summaries : List (Nat × Summary) -- summaries of READYs of the carrier, per slot
  holdData : List (Nat × BitVec 64 × Bool) -- reduced data held until the contribution is final, with their poison (R242)
  marks : NatSet               -- elements with a poisoned part (R202)
  done : Bool
  deriving DecidableEq, Repr

/-- The sender's side of an end-to-end stream (R231). -/
structure TxStream where
  key : StreamKey
  next : Nat
  unacked : List Packet
  deriving DecidableEq, Repr

/-- The receiver's side of an end-to-end stream (R231). -/
structure RxStream where
  key : StreamKey
  expect : Nat
  unackedCount : Nat
  deriving DecidableEq, Repr

/-- A packet in the reroute queue (R229): the port and dateline bit it arrived by, and the room it still fills there beyond the
queue's 4,096 packets. -/
structure HeldPacket where
  packet : Packet
  arrival : Option (Nat × Bool)
  room : Option InputRoom
  deriving DecidableEq, Repr

/-- The fabric: ports, routing, streams, groups, collectives (chapter 9). -/
structure Fabric where
  ports : Tab Port
  delivered : List Packet      -- packets the link layer has delivered to this node and no command has taken
  rooms : List (Packet × InputRoom) -- the input buffers' room that delivered packets fill until a command takes them (R223)
  reroute : List HeldPacket    -- packets held for a second detour (R229)
  toSend : List Packet         -- own packets that wait for room in the retransmit store (R233)
  nextPacket : Nat             -- number of the next packet put on a port
  tx : List TxStream
  rx : List RxStream
  groups : List CommGroup      -- 0x5002.01
  epoch : Nat                  -- 0x5002.02
  pendingEpochs : List EpochRecord
  colls : List Coll
  deferred : List Deferred     -- own contributions in the deferral store (R245)
  lateness : Tab Nat           -- consecutive late steps per slot of a group: comm × 4096 + slot (R248)
  lastDeferred : NatSet        -- (comm × 8192 + group) × 4096 + slot deferred at the previous step (R244)
  newDeferred : NatSet         -- the same, decided in this step
  carrierDeferred : List (Nat × Summary) -- summaries deferred with carrier contributions (R135)
  decisions : List (Nat × Nat × Nat × Nat × Nat) -- GO decisions of the step: group, slot, comm, action, reason (R246)
  logNext : Nat                -- 0x5004.01
  logTotal : Nat               -- 0x5004.02
  discarded : Nat              -- packets of reserved types
  flitsSent : Tab Nat          -- 0x5005.01
  flitsReceived : Tab Nat      -- 0x5005.02
  retries : Tab Nat            -- 0x5005.03
  fecCorrected : Tab Nat       -- 0x5005.04
  detours : Nat                -- 0x5005.05
  resends : Nat                -- 0x5005.06
  ties : Nat                   -- 0x5005.07
  deriving DecidableEq, Repr

/-! ## Outputs -/

/-- What the module puts on its ports in answer to commands. -/
inductive Output where
  | reply (r : Reply)                                  -- a dictionary reply on the management port
  | rdmaAck (conn : Nat)
  | rdmaNak (conn : Nat) (operational : Bool)
  | rdmaData (conn : Nat) (bytes : List Byte)
  | flit (port : Nat) (bytes : List Byte)              -- 256 bytes of the link layer (Table 9.4)
  | egressWrite (conn : Nat) (va rkey : Nat) (bytes : List Byte)
  | egressRead (conn : Nat) (va rkey : Nat)
  | cnp (conn : Nat)
  | neighborReply (port : Nat) (mac : Nat)
  | vertical (column interface : Nat) (words : List (Word64 × Byte))
  deriving DecidableEq, Repr

/-! ## Front-end and queues -/

/-- An RDMA WRITE whose words are not yet visible (R258). -/
structure Unseen where
  addr : Nat
  bytes : List Byte
  deriving DecidableEq, Repr

/-- A doorbell write that has not taken its ordinal (R262, R263). -/
structure Doorbell where
  queue : Nat
  offset : Nat
  value : Nat
  deriving DecidableEq, Repr

/-- A held flush read (R259): address, length, how many writes and doorbell writes delivered before it are still waiting, and
whether a merge of one of them was refused (R257). -/
structure HeldRead where
  addr : Nat
  length : Nat
  writes : Nat
  doorbells : Nat
  failed : Bool
  deriving DecidableEq, Repr

/-- A front-end connection (R254). -/
structure Conn where
  state : Nat                  -- 0x5802.02
  fault : Code                 -- 0x5802.04
  unseen : List Unseen
  doorbells : List Doorbell
  held : List HeldRead
  mergeFailed : Bool           -- a merge of R257 was refused in a write that only a later flush read covers
  retriesUsed : Nat
  rateMbps : Nat               -- egress rate in Mb/s (R253)
  cnpAt : Option Nat           -- reference period in which the last CNP was returned on it (R253)
  deriving DecidableEq, Repr

/-- A work-queue entry that has been accepted (R263 to R268). -/
structure Entry where
  seq : Nat
  ordinal : Nat
  step : Nat                   -- 0 while unknown (R264)
  words : List Word64          -- the 16 words of the entry
  reduce : List (Nat × Nat)    -- reduce list: group, collective command address
  status : Nat                 -- 0 accepted, 1 dispatched, 2 complete
  outcome : Nat                -- 0 done, 1 fault, 2 not run
  code : Code
  tilesLeft : NatSet           -- DISPATCH: tiles still to end
  trapped : NatSet             -- DISPATCH: tiles that trapped
  bad : Bool                   -- an item of its reduce list breaks Table 10.11 or R266 whatever the configuration
  unread : Bool                -- an item of its reduce list could not be read (R142)
  deriving DecidableEq, Repr

/-- A pending entry: sequence number, doorbell ordinal, reads made and whether it is a second reading (R263, R266). -/
structure Pending where
  seq : Nat
  ordinal : Nat
  reads : Nat
  second : Bool
  deriving DecidableEq, Repr

/-- A work queue (R261 to R268; Table 10.13). -/
structure Queue where
  state : Nat
  code : Code
  accepted : Nat
  released : Nat
  posted : Nat
  consumed : Nat
  faultSeq : Nat
  pending : List Pending
  entries : List Entry
  kept : List Nat              -- sequence numbers of entries that an enable found still to be completed (R261)
  deriving DecidableEq, Repr

/-- An export in progress (R271, R272): `entry` none for Acorn's own. -/
structure Export where
  entry : Option (Nat × Nat)
  conn : Nat
  target : Nat
  source : Nat
  length : Nat
  exportSeq : Nat
  dstOffset : Nat
  step : Nat
  event : Nat                  -- 0 trailer open sent, 1 data sent, 2 flush read sent, 3 trailer complete sent, 4 stopped, 5 waiting
  acked : Nat
  payload : List Byte          -- Acorn's record; empty for an entry
  deriving DecidableEq, Repr

/-- The front-end ports, connections and queues (chapter 10). -/
structure FrontEnd where
  portUp : Tab Nat             -- 0x5800.02
  paused : NatSet              -- ports whose fe_pfc priority is paused
  heldOut : List (Nat × Output) -- what waits for the pause to end, by port, oldest first
  conns : Tab Conn
  queues : Tab Queue
  doorbellOrdinal : Nat        -- 0x5811.02
  exports : List Export
  writeBytes : Tab Nat         -- 0x5812.01
  readBytes : Tab Nat          -- 0x5812.02
  flushReads : Nat             -- 0x5812.03
  flushWait : Nat              -- 0x5812.04
  rereads : Tab Nat            -- 0x5812.05
  ignored : Tab Nat            -- 0x5812.06
  naks : Tab Nat               -- 0x5812.07
  cnpsSent : Tab Nat           -- 0x5812.08 [31:0]
  cnpsReceived : Tab Nat       -- 0x5812.08 [63:32]
  egressBytes : Tab Nat        -- 0x5812.09
  undelivered : Nat            -- 0x5812.0A
  restarts : Nat               -- 0x5812.0B
  carrierAt : Option (Nat × Nat) -- ordinal and queue of the carrier entry accepted for the current step (R264)
  deriving DecidableEq, Repr

/-! ## Resilience -/

/-- A saved record (Table 11.6) held or in flight: kind, client node, slot, epoch, step, from_step, group, payload, and the
payload's poisoned bytes (R202). -/
structure Saved where
  kind : Nat
  node : BitVec 24
  slot : Nat
  epoch : Nat
  step : Nat
  fromStep : Nat
  group : Nat
  payload : List Byte
  poison : NatSet
  deriving DecidableEq, Repr

/-- A fill entry of a recovery record (Table 11.8). -/
structure SlotFill where
  slot : Nat
  node : BitVec 24
  donor : BitVec 24
  mirror : BitVec 24
  snapshot : Bool
  deriving DecidableEq, Repr

/-- Recovery, mirror, snapshot tier and Henelo Twin (chapter 11). -/
structure Resilience where
  state : Nat                  -- 0x6002.02
  epoch : Nat                  -- of the last recovery record (Table 11.10)
  kind : Nat                   -- kind of the last recovery record
  fills : List SlotFill
  restore : Nat                -- restore_point
  reports : List (BitVec 24 × Nat) -- committed_step reports gathered at the root (R293)
  shards : List (Nat × Nat)    -- shards to be filled: group and step needed
  verified : List (Nat × BitVec 24) -- shards verified with their source (R287, R296)
  retried : NatSet             -- shards fetched once more from the same source (R287)
  shardsTotal : Nat
  replayLeft : Nat
  inputsRequired : Bool
  remapped : NatSet            -- 0x6002.06
  memoryLost : Bool            -- this module lost its memory and has not been filled
  unreachable : List (BitVec 24) -- members marked unreachable (R288)
  holdNotices : List (Nat × Nat × Nat) -- hold notices held at a root: step, communication group, slot (R294)
  resultSentFor : Option Nat   -- step whose RESULT this root has sent
  clients : List (BitVec 24)   -- 0x6000.03
  mirrored : List Saved        -- records this module holds for its clients
  gate : List Saved            -- own records sent to the buddy and not yet acknowledged (R286)
  transfer : List Saved        -- records of the full transfer of R282 that are not yet acknowledged
  incoming : List (BitVec 24 × List (Byte × Bool)) -- records of which a part has arrived, by sender
  heldRecord : Option (List Byte) -- recovery record that waits for the boundary in progress (R290)
  imageSent : List Byte        -- the slot image last sent to the buddy
  exportsDue : List Saved      -- records still to be exported to the snapshot tier, oldest first
  submitted : List Saved       -- snapshot-tier records applied here during a fill (R295)
  touched : List (Nat × Nat)   -- rows touched since the previous DELTA: group, row (R285)
  deltaStep : Nat              -- step of the last DELTA or BASE (R285)
  baseNext : Bool              -- the next snapshot boundary exports BASE (R285)
  exportSeq : Nat              -- last export_seq of Acorn (R284)
  ringNext : Nat               -- offset in the target's buffer after Acorn's last record
  ring : List (Nat × Nat × Nat) -- Acorn's records in the target's buffer: export_seq, first offset, end
  gateWait : Nat               -- 0x6003.01
  mirrorBytes : Nat            -- 0x6003.02
  snapshotBytes : Nat          -- 0x6003.03
  recoveries : Nat             -- 0x6003.04
  lostSlots : NatSet           -- deferred contributions lost in recovery, as in lastDeferred (R292)
  twinState : Nat              -- 0x6006.02
  twinExports : Bool           -- role 2: it exports in place of role 1, lost in an earlier step (R301)
  twinSent : Bool              -- own digest packet of the step sent
  twinDigest : BitVec 512      -- own summary and digest of the step
  twinPartner : Option (BitVec 512) -- partner's packet of the step
  twinLateRaised : Bool        -- 0x080E_0B0C raised for the step
  twinEarly : List (Nat × Nat × List Byte) -- partner's packets of steps still to come: kind, step, body (R304)
  deriving DecidableEq, Repr

/-- The state of the module. -/
structure State where
  power : Power
  flash : Flash
  boot : Boot
  dict : Dict
  mem : Memory                 -- HBM, pinned window, tile stores, doorbell pages, status mirror and Hazel's range (Table 1.10)
  banks : Memory               -- accumulator banks: tile × 2^17 + bank × 2^16 + byte (R83)
  rowMasks : Tab Nat           -- row poison mask per bank 2 × tile + bank (R113)
  colMasks : Tab Nat           -- column poison mask
  tiles : Tab Tile
  uses : Tab ProgramUse        -- what the programs running on the tiles have fetched and seen written (R86, R90)
  stack : Stack
  cache : Cache
  prot : Protect
  cracker : Cracker
  train : Training
  fabric : Fabric
  front : FrontEnd
  resil : Resilience
  out : List Output            -- what the ports have been given, oldest first (the model's own)
  free : Nat                   -- counter of the free values (the model's own)
  pending : List Instr         -- commands waiting, first in first out (the model's own)
  deriving DecidableEq, Repr

/-! ## Reset -/

/-- Memory in which nothing was ever written (R206). -/
def Memory.neverWritten : Memory := ⟨[], []⟩

/-- A tile to which nothing has been dispatched (Table 4.18 defaults). -/
def Tile.idle : Tile where
  state := 0
  wait := (0, 0)
  pc := 0
  regs := List.replicate 16 0
  loops := []
  nextNumber := 0
  issued := []
  counters := []
  program := none
  waiting := []
  trap := none
  record := none
  trapCount := 0
  nonfinite := false
  halts := []
  matrixBusy := 0
  matrixMacs := 0
  vectorBusy := 0
  vectorLanes := 0
  streamBytes := 0
  descriptors := 0
  hold := none
  stalls := []

/-- A program that has just started, or none. -/
def ProgramUse.fresh : ProgramUse := ⟨[], [], false⟩

/-- A Cracker channel with nothing to do. -/
def Channel.idle : Channel := ⟨[], 0, [], [], [], false, none, 0⟩

/-- A binding that no command has touched in the step. -/
def BindingWork.none : BindingWork := ⟨Option.none, Option.none, [], 0, [], false, false, 0, 0, [], []⟩

/-- The ledger of a group that has just become valid: slot 0 is live (R132). -/
def GroupLedger.fresh : GroupLedger := ⟨false, 0, 0, 0, false⟩

/-- A group's work at the start of a step. -/
def GroupWork.none : GroupWork := ⟨false, false, 0, false, false, false, 0, 0, 0, false, false, false⟩

/-- A port that is off (Table 9.3); its link fault record is zero (Table 9.6). -/
def Port.off : Port := ⟨0, [], false, 0, 0xFFF, [], false, [], [], [], [], [], [], 0, 0, 0⟩

/-- A connection in reset, at full egress rate (R254). -/
def Conn.reset : Conn := ⟨0, 0, [], [], [], false, 0, 800000, none⟩

/-- A disabled queue (Table 10.13). -/
def Queue.disabled : Queue := ⟨0, 0, 0, 0, 0, 0, 0, [], [], []⟩

/-- The history that a job loaded without one begins with (R76), for the default range. -/
def History.fresh : History := ⟨10, 0, 24, 0, 2000, 0, 0, 200, 0, []⟩

/-- The commit record's reset value (Table 2.6). -/
def CommitRecord.zero : CommitRecord := ⟨0, false, false, false, false, false, 0, 0, 0⟩

/-- Power control at the start of a start-up with 36 V applied (Tables 12.2, 12.11). Sensor and pace values are those that
assumption 1 names. -/
def Power.atPowerOn : Power where
  v36 := true
  modPresent := true
  shutdownLow := false
  convertersOn := true
  inputMv := 36000
  samples := []
  converterFailed := []
  shortUj := 0
  longUj := 0
  shortActive := false
  longActive := false
  target := 4400
  powerLimitMv := 750
  thermalLimitMv := 850
  powerGate := 16
  thermalGates := []
  restart := []
  rowIdle := []
  lowInput := false
  railSet := [750, 700, 700, 700, 700, 800, 900, 1200]
  railMv := [0, 0, 0, 0, 0, 0, 0, 0]
  railMa := [0, 0, 0, 0, 0, 0, 0, 0]
  droop := []
  rampWait := false
  floorStops := 0
  droops := []
  stopped := []
  energy := []
  queueEnergy := []
  tileLoad := []
  throttleReason := 0
  throttleTime := []
  temps := List.replicate 236 0
  tempMax := List.replicate 236 0
  junctionRaised := false
  hbmHot := []
  paceNow := [0, 0, 0, 0, 0, 0]
  paceMin := [0, 0, 0, 0, 0, 0]
  paceMax := [0, 0, 0, 0, 0, 0]
  paceCleared := true
  refPeriods := 0
  tileFloor := []
  tileSlow := []

/-- The reset record when none is pending (R344). -/
def ResetRecord.none : ResetRecord := ⟨0, 0, 0, 0⟩

/-- The trip record's reset value (Table 12.10). -/
def TripRecord.none : TripRecord := ⟨0, 0, 0, 0, 0⟩

/-- The flash of a unit as shipped, with the unit data that assumption 2 names. -/
def Flash.shipped : Flash where
  activeCount := 352
  serial := []
  boardRevision := []
  mgmtMac := 0
  feMac := [0, 0]
  bootKey := []
  identityKey := List.replicate 68 0
  identityCert := List.replicate 2920 0
  sigA := (0, 0)
  sigB := (0, 0)
  floor := 0
  userRoot := []
  bootSelect := 0
  userSelect := 0
  trip := Option.none
  trips := 0
  reset := Option.none
  resets := 0
  retirements := []
  copies := List.replicate 4 ⟨0, []⟩

/-- Start-up at phase 0 (Table 14.12 defaults). -/
def Boot.phase0 : Boot where
  phase := 0
  retired := false
  firmwareRunning := 0xFF
  userRunning := 0xFF
  lastReset := ResetRecord.none
  lastTrip := TripRecord.none
  held := []
  uploadTarget := 0
  sigIndex := 0
  attestState := 0
  attestReport := []
  attestBody := []
  testState := 0
  marginState := 0
  marginRequest := []
  marginResults := []
  marginSummary := []
  bistReport := []

/-- The dictionary server at the start of a start-up (Table 13.11 defaults). -/
def Dict.atStart : Dict where
  values := []
  change := []
  source := []
  startValues := []
  startSource := []
  ordinal := 0
  sessions := []
  batches := []
  relayed := []
  staged := []
  refusal := ⟨0, 0, 0, 0, 0, 0⟩
  refusalCount := 0
  events := []
  eventNext := 0
  eventTotal := 0
  resiliencePending := false
  snapshot := []
  snapshotOrdinal := 0
  authFailures := 0
  recentFailures := []
  lockout := false
  draws := 0

/-- The stack with the first `a` tiles active and the others spare (R15), every interface and slice in service. -/
def Stack.mapped (a : Nat) : Stack where
  spare := (List.range 384).filter (fun p => a ≤ p)
  retired := []
  tileMap := (List.range 384).filter (fun p => p < a)
  retiring := []
  sliceRetiring := []
  tsvUsed := []
  tsvRepeats := []
  interfaces := []
  slices := []
  proxies := []
  clusters := []
  tsvCounts := []

/-- The shared cache holding nothing (Table 6.14 defaults). -/
def Cache.empty : Cache where
  sets := []
  fills := []
  writebacks := []
  waiting := []
  blocked := []
  hbmQueue := []
  busBursts := []
  tagSynd := []
  updating := []
  readBytes := []
  writeBytes := []
  activates := []
  turns := []
  refreshNs := []
  refreshRate := []
  openPages := []
  lastWrite := []
  hits := []
  misses := []
  evictions := []
  runaheadFills := 0
  runaheadDropped := 0

/-- Protection state with zero counters (Table 8.9 defaults). -/
def Protect.clean : Protect where
  corrected := []
  uncorrectable := []
  poisoned := []
  narrow := []
  savedRepairs := 0
  reexecutions := 0
  scrubAt := []
  scrubPasses := []
  scrubLog := []
  scrubNext := 0
  scrubRows := []
  heldLines := []
  heldAccesses := []
  huskSynd := []
  lineValues := []
  lineAsked := []
  lostGroups := []
  rowRepairs := []
  repaired := []
  spread := []
  spreading := []

/-- The Cracker with nothing to do (Table 7.9 defaults). -/
def Cracker.idle : Cracker := ⟨[], [], [], 0, [], 0, 0, 0, 0, 0, 0, [], []⟩

/-- No job: committed_step reads 0 (R353), the ledger's counts are zero. -/
def Training.noJob : Training where
  committed := 0
  boundarySeq := 0
  record := CommitRecord.zero
  boundaryNs := 0
  started := false
  stepState := 0
  localFault := 0
  faulted := false
  closed := false
  skipTotal := 0
  skipRun := 0
  overBoundSeen := 0
  lastHeldRow := 0
  history := History.fresh
  ledger := []
  work := []
  coefWritten := false
  cut := false
  lastCut := 0
  cutConfig := Option.none
  cutEpochs := []
  ownSummary := Option.none
  reducedSummary := Option.none
  decision := Option.none
  sweep := []
  sweepBegun := false
  retireCut := false
  cutRetire := []
  cutSlices := []
  escape := false
  escapedStep := Option.none
  withheld := false
  lateFault := false
  phasePeriods := []
  phaseStep := 0
  phaseNs := []

/-- The fabric with every port off and no group in force (Table 9.16 defaults). -/
def Fabric.off : Fabric where
  ports := []
  delivered := []
  rooms := []
  reroute := []
  toSend := []
  nextPacket := 0
  tx := []
  rx := []
  groups := []
  epoch := 0
  pendingEpochs := []
  colls := []
  deferred := []
  lateness := []
  lastDeferred := []
  newDeferred := []
  carrierDeferred := []
  decisions := []
  logNext := 0
  logTotal := 0
  discarded := 0
  flitsSent := []
  flitsReceived := []
  retries := []
  fecCorrected := []
  detours := 0
  resends := 0
  ties := 0

/-- The front-end with every port down, connection in reset and queue disabled (Table 10.18 defaults). -/
def FrontEnd.down : FrontEnd where
  portUp := []
  paused := []
  heldOut := []
  conns := []
  queues := []
  doorbellOrdinal := 0
  exports := []
  writeBytes := []
  readBytes := []
  flushReads := 0
  flushWait := 0
  rereads := []
  ignored := []
  naks := []
  cnpsSent := []
  cnpsReceived := []
  egressBytes := []
  undelivered := 0
  restarts := 0
  carrierAt := Option.none

/-- Resilience state with nothing saved and nothing recovering (Table 11.11 defaults). -/
def Resilience.none : Resilience where
  state := 0
  epoch := 0
  kind := 0
  fills := []
  restore := 0
  reports := []
  shards := []
  verified := []
  retried := []
  shardsTotal := 0
  replayLeft := 0
  inputsRequired := false
  remapped := []
  memoryLost := false
  unreachable := []
  holdNotices := []
  resultSentFor := Option.none
  clients := []
  mirrored := []
  gate := []
  transfer := []
  incoming := []
  heldRecord := Option.none
  imageSent := []
  exportsDue := []
  submitted := []
  touched := []
  deltaStep := 0
  baseNext := false
  exportSeq := 0
  ringNext := 0
  ring := []
  gateWait := 0
  mirrorBytes := 0
  snapshotBytes := 0
  recoveries := 0
  lostSlots := []
  twinState := 0
  twinExports := false
  twinSent := false
  twinDigest := 0
  twinPartner := Option.none
  twinLateRaised := false
  twinEarly := []

/-- The module right after its power-on reset: 36 V applied, start-up at phase 0, every domain at its reset value (R342). -/
def State.reset : State where
  power := Power.atPowerOn
  flash := Flash.shipped
  boot := Boot.phase0
  dict := Dict.atStart
  mem := Memory.neverWritten
  banks := Memory.neverWritten
  rowMasks := []
  colMasks := []
  tiles := []
  uses := []
  stack := Stack.mapped 352
  cache := Cache.empty
  prot := Protect.clean
  cracker := Cracker.idle
  train := Training.noJob
  fabric := Fabric.off
  front := FrontEnd.down
  resil := Resilience.none
  out := []
  free := 0
  pending := []

end Sys2Proof.Machine
end

