-- ==== Sys2Proof/Machine/Objects.lean ====
section
/-! DEFINITION. The object dictionary's contents (R324 to R326, R335): the table of every object with its type, access, size,
digest treatment, mirror place and counter mark; factory defaults; the store that holds the values of RW and RWS objects; the
checks on a value alone; the configuration digest. Keys are index × 256 + sub. -/

namespace Sys2Proof.Machine

open Sys2Proof

/-- An object: key, type byte (type code in 3..0, element type of an ARR in 7..4), access code (Table 13.2), element size (or
size of the whole value, or longest STR), element count (0: the module sets a current count), digest treatment (0 excluded,
1 full, 2 masked), in the status mirror, telemetry counter (R340). -/
structure Obj where
  key : Nat
  typ : Nat
  access : Nat
  size : Nat
  count : Nat
  digest : Nat
  mirror : Bool
  counter : Bool
  deriving DecidableEq, Repr

/-- Objects 0x10xx (the object tables of the owning chapters). -/
def objects10 : List Obj :=
  [⟨0x100001, 0x09, 0, 8, 1, 0, false, false⟩,  -- part_number
   ⟨0x100002, 0x09, 0, 32, 1, 0, false, false⟩,  -- serial
   ⟨0x100003, 0x09, 0, 32, 1, 0, false, false⟩,  -- board_revision
   ⟨0x100004, 0x02, 0, 1, 1, 0, false, false⟩,  -- generation
   ⟨0x100005, 0x04, 1, 4, 1, 0, false, false⟩,  -- firmware_version
   ⟨0x100006, 0x02, 0, 1, 1, 0, false, false⟩]  -- protocol_version

/-- Objects 0x11xx (the object tables of the owning chapters). -/
def objects11 : List Obj :=
  [⟨0x110001, 0x0A, 1, 32, 1, 0, true, false⟩,  -- config_digest
   ⟨0x110002, 0x0A, 1, 32, 1, 0, false, false⟩,  -- staged_digest
   ⟨0x110003, 0x0A, 1, 32, 1, 0, false, false⟩,  -- last_refusal
   ⟨0x110004, 0x05, 1, 8, 1, 0, false, false⟩,  -- refusal_count
   ⟨0x110005, 0x04, 1, 4, 1, 0, false, false⟩,  -- batch_space
   ⟨0x110006, 0x02, 1, 1, 1, 0, false, false⟩,  -- sessions_open
   ⟨0x110101, 0x0A, 1, 8192, 1, 0, false, false⟩,  -- event_log
   ⟨0x110102, 0x02, 1, 1, 1, 0, false, false⟩,  -- event_next
   ⟨0x110103, 0x05, 1, 8, 1, 0, true, false⟩,  -- event_total
   ⟨0x110104, 0x01, 1, 1, 1, 0, true, false⟩,  -- resilience_pending
   ⟨0x110105, 0x05, 4, 8, 1, 0, false, false⟩,  -- event_ack
   ⟨0x110201, 0x05, 0, 8, 1, 0, false, false⟩,  -- mgmt_mac
   ⟨0x110202, 0x04, 2, 4, 1, 0, false, false⟩,  -- mgmt_ipv4
   ⟨0x110203, 0x0A, 2, 16, 1, 0, false, false⟩]  -- mgmt_ipv6

/-- Objects 0x18xx (the object tables of the owning chapters). -/
def objects18 : List Obj :=
  [⟨0x180001, 0x02, 2, 1, 1, 0, false, false⟩,  -- boot_select
   ⟨0x180002, 0x02, 1, 1, 1, 0, false, false⟩,  -- firmware_running
   ⟨0x180003, 0x0A, 1, 64, 1, 0, false, false⟩,  -- firmware_digests
   ⟨0x180004, 0x04, 1, 4, 1, 0, false, false⟩,  -- firmware_floor
   ⟨0x180005, 0x01, 4, 1, 1, 0, false, false⟩,  -- floor_commit
   ⟨0x180006, 0x2B, 1, 1, 4, 0, false, false⟩,  -- image_state
   ⟨0x180101, 0x02, 2, 1, 1, 0, false, false⟩,  -- user_select
   ⟨0x180102, 0x02, 1, 1, 1, 0, false, false⟩,  -- user_running
   ⟨0x180103, 0x0A, 1, 64, 1, 0, false, false⟩,  -- user_digests
   ⟨0x180201, 0x02, 2, 1, 1, 0, false, false⟩,  -- upload_target
   ⟨0x180202, 0x0A, 4, 267386880, 1, 0, false, false⟩,  -- upload_data
   ⟨0x180203, 0x01, 4, 1, 1, 0, false, false⟩,  -- upload_verify
   ⟨0x181001, 0x02, 1, 1, 1, 0, false, false⟩,  -- startup_phase
   ⟨0x181002, 0x0A, 1, 32, 1, 0, false, false⟩,  -- last_reset
   ⟨0x181003, 0x01, 4, 1, 1, 0, false, false⟩]  -- stack_reset

/-- Objects 0x20xx (the object tables of the owning chapters). -/
def objects20 : List Obj :=
  [⟨0x200001, 0x04, 1, 4, 1, 0, false, false⟩,  -- input_voltage
   ⟨0x200002, 0x04, 1, 4, 1, 0, true, false⟩,  -- input_power
   ⟨0x200003, 0x2B, 1, 1, 4, 0, false, false⟩,  -- converter_state
   ⟨0x200004, 0x4B, 1, 4, 3, 0, false, false⟩,  -- limit_rates
   ⟨0x200005, 0x4B, 1, 4, 2, 0, false, false⟩,  -- limit_capacities
   ⟨0x200006, 0x04, 2, 4, 1, 0, false, false⟩,  -- power_cap
   ⟨0x200007, 0x4B, 1, 4, 2, 0, false, false⟩,  -- bucket_levels
   ⟨0x200008, 0x2B, 1, 1, 16, 0, false, false⟩,  -- row_gates
   ⟨0x200101, 0x3B, 1, 2, 8, 0, false, false⟩,  -- rail_setpoint
   ⟨0x200102, 0x3B, 1, 2, 8, 0, false, false⟩,  -- rail_voltage
   ⟨0x200103, 0x4B, 1, 4, 8, 0, false, false⟩,  -- rail_current
   ⟨0x200104, 0x03, 2, 2, 1, 0, false, false⟩,  -- compute_setpoint
   ⟨0x200105, 0x05, 1, 8, 1, 0, false, true⟩,  -- floor_stops
   ⟨0x200106, 0x5B, 1, 8, 8, 0, false, true⟩,  -- droops
   ⟨0x200201, 0x5B, 1, 8, 45, 0, false, true⟩,  -- energy
   ⟨0x200202, 0x5B, 1, 8, 65, 0, false, true⟩,  -- queue_energy
   ⟨0x200203, 0x01, 4, 1, 1, 0, false, false⟩,  -- energy_clear
   ⟨0x200301, 0x02, 1, 1, 1, 0, true, false⟩,  -- throttle_reason
   ⟨0x200302, 0x5B, 1, 8, 13, 0, true, true⟩,  -- throttle_time
   ⟨0x200303, 0x01, 4, 1, 1, 0, false, false⟩,  -- throttle_clear
   ⟨0x200401, 0x6B, 1, 4, 236, 0, false, false⟩,  -- temperatures
   ⟨0x200402, 0x6B, 1, 4, 236, 0, false, false⟩,  -- temp_max
   ⟨0x200403, 0x02, 2, 1, 1, 0, false, false⟩,  -- thermal_target
   ⟨0x200404, 0x01, 4, 1, 1, 0, false, false⟩,  -- temp_clear
   ⟨0x200501, 0x0A, 1, 32, 1, 0, false, false⟩]  -- last_trip

/-- Objects 0x28xx (the object tables of the owning chapters). -/
def objects28 : List Obj :=
  [⟨0x280001, 0x4B, 1, 4, 6, 0, false, false⟩,  -- pace_now
   ⟨0x280002, 0x4B, 1, 4, 6, 0, false, false⟩,  -- pace_min
   ⟨0x280003, 0x4B, 1, 4, 6, 0, false, false⟩,  -- pace_max
   ⟨0x280004, 0x04, 2, 4, 1, 0, false, false⟩,  -- pace_window
   ⟨0x280005, 0x01, 4, 1, 1, 0, false, false⟩,  -- pace_clear
   ⟨0x280101, 0x04, 0, 4, 1, 0, false, false⟩,  -- ref_frequency
   ⟨0x280102, 0x03, 0, 2, 1, 0, false, false⟩,  -- ref_tolerance
   ⟨0x280103, 0x05, 1, 8, 1, 0, false, false⟩,  -- ref_periods
   ⟨0x281001, 0x05, 1, 8, 1, 0, true, false⟩,  -- committed_step
   ⟨0x281002, 0x05, 1, 8, 1, 0, true, false⟩,  -- boundary_seq
   ⟨0x281003, 0x0A, 1, 32, 1, 0, true, false⟩,  -- last_commit_record
   ⟨0x281004, 0x03, 1, 2, 1, 0, true, false⟩,  -- pending_future_writes
   ⟨0x281005, 0x04, 1, 4, 1, 0, false, false⟩]  -- boundary_duration

/-- Objects 0x30xx (the object tables of the owning chapters). -/
def objects30 : List Obj :=
  [⟨0x300001, 0x04, 1, 4, 1, 0, false, false⟩,  -- cache_capacity
   ⟨0x300002, 0x04, 1, 4, 1, 0, false, false⟩,  -- pinned_total
   ⟨0x300003, 0x04, 1, 4, 1, 0, false, false⟩,  -- shared_capacity
   ⟨0x300004, 0x04, 1, 4, 1, 0, false, false⟩,  -- residency_capacity
   ⟨0x300005, 0x02, 1, 1, 1, 0, false, false⟩,  -- hbm_granule
   ⟨0x300101, 0xAB, 3, 16, 64, 0, false, false⟩,  -- pinned_partitions
   ⟨0x300201, 0x02, 3, 1, 1, 0, false, false⟩,  -- hint_ways
   ⟨0x300202, 0xAB, 3, 16, 16, 0, false, false⟩,  -- user_hints
   ⟨0x300301, 0x5B, 1, 8, 12, 0, false, true⟩,  -- hbm_read_bytes
   ⟨0x300302, 0x5B, 1, 8, 12, 0, false, true⟩,  -- hbm_write_bytes
   ⟨0x300303, 0x5B, 1, 8, 12, 0, false, true⟩,  -- hbm_activates
   ⟨0x300304, 0x5B, 1, 8, 12, 0, false, true⟩,  -- hbm_turns
   ⟨0x300305, 0x5B, 1, 8, 12, 0, false, true⟩,  -- hbm_refresh_ns
   ⟨0x300306, 0x2B, 1, 1, 12, 0, false, false⟩,  -- hbm_refresh_rate
   ⟨0x300401, 0x5B, 1, 8, 4, 0, false, true⟩,  -- cache_hits
   ⟨0x300402, 0x5B, 1, 8, 4, 0, false, true⟩,  -- cache_misses
   ⟨0x300403, 0x5B, 1, 8, 4, 0, false, true⟩,  -- cache_writebacks
   ⟨0x300404, 0x05, 1, 8, 1, 0, false, true⟩,  -- runahead_fills
   ⟨0x300405, 0x05, 1, 8, 1, 0, false, true⟩,  -- runahead_dropped
   ⟨0x300406, 0x01, 4, 1, 1, 0, false, false⟩,  -- mem_counters_clear
   ⟨0x300501, 0xAB, 3, 16, 64, 0, false, false⟩,  -- detect_regions
   ⟨0x300502, 0x5B, 1, 8, 5, 0, false, true⟩,  -- ecc_corrected
   ⟨0x300503, 0x5B, 1, 8, 5, 0, false, true⟩,  -- ecc_uncorrectable
   ⟨0x300504, 0x5B, 1, 8, 5, 0, false, true⟩,  -- poison_detected
   ⟨0x300505, 0x5B, 1, 8, 5, 0, false, true⟩,  -- narrow_writes
   ⟨0x300506, 0x05, 1, 8, 1, 0, false, true⟩,  -- saved_repairs
   ⟨0x300507, 0x05, 1, 8, 1, 0, false, true⟩,  -- reexecutions
   ⟨0x300508, 0x01, 4, 1, 1, 0, false, false⟩,  -- prot_counters_clear
   ⟨0x300601, 0x03, 2, 2, 1, 0, false, false⟩,  -- scrub_interval_hbm
   ⟨0x300602, 0x04, 2, 4, 1, 0, false, false⟩,  -- scrub_interval_sram
   ⟨0x300603, 0x5B, 1, 8, 5, 0, false, true⟩,  -- scrub_passes
   ⟨0x300604, 0x0A, 1, 1024, 1, 0, false, false⟩,  -- scrub_log
   ⟨0x300605, 0x02, 1, 1, 1, 0, false, false⟩,  -- scrub_log_next
   ⟨0x300701, 0x2B, 1, 1, 1920, 0, false, false⟩,  -- tsv_spares_left
   ⟨0x300702, 0x5B, 1, 8, 1920, 0, false, true⟩,  -- tsv_repeats
   ⟨0x300703, 0x2B, 1, 1, 1920, 0, false, false⟩,  -- interface_state
   ⟨0x300704, 0x2B, 1, 1, 1536, 0, false, false⟩,  -- slice_state
   ⟨0x300705, 0x3B, 1, 2, 1536, 0, false, false⟩,  -- slice_proxy
   ⟨0x300706, 0x2B, 1, 1, 384, 0, false, false⟩]  -- power_cluster_state

/-- Objects 0x38xx (the object tables of the owning chapters). -/
def objects38 : List Obj :=
  [⟨0x380001, 0x04, 0, 4, 1, 0, false, false⟩,  -- tracker_entries
   ⟨0x380002, 0x04, 0, 4, 1, 0, false, false⟩,  -- bank_quota
   ⟨0x380003, 0x04, 0, 4, 1, 0, false, false⟩,  -- channel_quota
   ⟨0x380004, 0x04, 0, 4, 1, 0, false, false⟩,  -- hazel_reserve
   ⟨0x380005, 0x04, 0, 4, 1, 0, false, false⟩,  -- directory_entries
   ⟨0x380101, 0xAB, 3, 32, 64, 2, false, false⟩,  -- table_regions
   ⟨0x380102, 0xAB, 3, 64, 32, 2, false, false⟩,  -- sweep_bindings
   ⟨0x380201, 0x4B, 1, 4, 16, 0, false, false⟩,  -- cracker_status
   ⟨0x380202, 0x4B, 1, 4, 32, 0, false, false⟩,  -- merged_rows
   ⟨0x380301, 0x05, 1, 8, 1, 0, false, true⟩,  -- sector_requests
   ⟨0x380302, 0x05, 1, 8, 1, 0, false, true⟩,  -- sectors_shared
   ⟨0x380303, 0x05, 1, 8, 1, 0, false, true⟩,  -- page_batches
   ⟨0x380304, 0x5B, 1, 8, 16, 0, false, true⟩,  -- quota_held
   ⟨0x380305, 0x04, 1, 4, 1, 0, false, true⟩,  -- tracker_peak
   ⟨0x380306, 0x05, 1, 8, 1, 0, false, true⟩,  -- runahead_dropped
   ⟨0x380307, 0x05, 1, 8, 1, 0, false, true⟩,  -- staged_rows
   ⟨0x380308, 0x5B, 1, 8, 4, 0, false, true⟩,  -- served_requests
   ⟨0x380309, 0x01, 4, 1, 1, 0, false, false⟩]  -- cracker_counters_clear

/-- Objects 0x40xx (the object tables of the owning chapters). -/
def objects40 : List Obj :=
  [⟨0x400001, 0x03, 1, 2, 1, 0, false, false⟩,  -- active_tiles
   ⟨0x400002, 0x03, 1, 2, 1, 0, false, false⟩,  -- spare_tiles
   ⟨0x400003, 0x03, 1, 2, 1, 0, false, false⟩,  -- retired_tiles
   ⟨0x400004, 0x03, 3, 2, 1, 1, false, false⟩,  -- logical_tiles
   ⟨0x400005, 0x3B, 1, 2, 384, 0, false, false⟩,  -- tile_map
   ⟨0x400101, 0x2B, 1, 1, 384, 0, false, false⟩,  -- tile_state
   ⟨0x400102, 0x5B, 1, 8, 384, 0, false, false⟩,  -- tile_wait
   ⟨0x400103, 0x4B, 1, 4, 6144, 0, false, false⟩,  -- sync_counters
   ⟨0x400104, 0x0A, 1, 12288, 1, 0, false, false⟩,  -- trap_records
   ⟨0x400105, 0x4B, 1, 4, 384, 0, false, true⟩,  -- trap_count
   ⟨0x400106, 0x1B, 1, 1, 384, 0, false, false⟩,  -- nf_flags
   ⟨0x400201, 0x5B, 1, 8, 384, 0, false, true⟩,  -- matrix_busy
   ⟨0x400202, 0x5B, 1, 8, 384, 0, false, true⟩,  -- matrix_macs
   ⟨0x400203, 0x5B, 1, 8, 384, 0, false, true⟩,  -- vector_busy
   ⟨0x400204, 0x5B, 1, 8, 384, 0, false, true⟩,  -- vector_lanes
   ⟨0x400205, 0x5B, 1, 8, 384, 0, false, true⟩,  -- stream_bytes
   ⟨0x400206, 0x5B, 1, 8, 384, 0, false, true⟩,  -- descriptors_issued
   ⟨0x400301, 0x5B, 1, 8, 4224, 0, false, true⟩,  -- matrix_stall
   ⟨0x400302, 0x5B, 1, 8, 4224, 0, false, true⟩,  -- vector_stall
   ⟨0x400303, 0x5B, 1, 8, 4224, 0, false, true⟩,  -- stream_stall
   ⟨0x400304, 0x5B, 1, 8, 4224, 0, false, true⟩,  -- sequencer_stall
   ⟨0x400401, 0x01, 4, 1, 1, 0, false, false⟩,  -- tile_counters_clear
   ⟨0x400501, 0x4B, 1, 4, 1536, 0, false, false⟩]  -- stream_status

/-- Objects 0x48xx (the object tables of the owning chapters). -/
def objects48 : List Obj :=
  [⟨0x480001, 0x02, 3, 1, 1, 1, false, false⟩,  -- profile
   ⟨0x480002, 0x02, 1, 1, 1, 0, false, false⟩,  -- profile_in_force
   ⟨0x480003, 0x02, 3, 1, 1, 1, false, false⟩,  -- state_mode
   ⟨0x480004, 0x05, 3, 8, 1, 1, false, false⟩,  -- job_seed
   ⟨0x480005, 0x02, 3, 1, 1, 1, false, false⟩,  -- sr_mode
   ⟨0x480006, 0x02, 1, 1, 1, 0, false, false⟩,  -- mode_in_force
   ⟨0x480101, 0x02, 1, 1, 1, 0, true, false⟩,  -- scale_exp
   ⟨0x480102, 0x04, 1, 4, 1, 0, true, false⟩,  -- clean_steps
   ⟨0x480103, 0x04, 3, 4, 1, 1, false, false⟩,  -- growth_interval
   ⟨0x480104, 0x02, 3, 1, 1, 1, false, false⟩,  -- scale_min_exp
   ⟨0x480105, 0x02, 3, 1, 1, 1, false, false⟩,  -- scale_max_exp
   ⟨0x480106, 0x0A, 1, 536, 1, 0, true, false⟩,  -- scale_history
   ⟨0x480201, 0x02, 3, 1, 1, 1, false, false⟩,  -- recipe_weight_operand
   ⟨0x480202, 0x02, 3, 1, 1, 1, false, false⟩,  -- recipe_activation
   ⟨0x480203, 0x02, 3, 1, 1, 1, false, false⟩,  -- recipe_activation_grad
   ⟨0x481001, 0x03, 3, 2, 1, 1, false, false⟩,  -- carrier_group
   ⟨0x481002, 0x08, 3, 4, 1, 1, false, false⟩,  -- global_norm_bound
   ⟨0x481003, 0x02, 3, 1, 1, 1, false, false⟩,  -- skip_policy
   ⟨0x481004, 0x03, 3, 2, 1, 1, false, false⟩,  -- resident_layers
   ⟨0x481005, 0x05, 3, 8, 1, 0, false, false⟩,  -- slot_table_base
   ⟨0x481006, 0x04, 3, 4, 1, 1, false, false⟩,  -- silent_threshold
   ⟨0x481007, 0x08, 3, 4, 1, 1, false, false⟩,  -- underflow_fraction
   ⟨0x481101, 0x02, 1, 1, 1, 0, false, false⟩,  -- step_state
   ⟨0x481102, 0x05, 4, 8, 1, 0, false, false⟩,  -- abort_step
   ⟨0x481103, 0x04, 1, 4, 1, 0, false, false⟩,  -- local_fault
   ⟨0x481104, 0x05, 1, 8, 1, 0, false, false⟩,  -- skip_total
   ⟨0x481105, 0x04, 1, 4, 1, 0, false, false⟩,  -- skip_run
   ⟨0x481106, 0x05, 1, 8, 1, 0, false, false⟩,  -- over_bound_seen
   ⟨0x481107, 0x05, 1, 8, 1, 0, false, false⟩,  -- last_held_row
   ⟨0x481201, 0xAB, 3, 128, 4096, 2, false, false⟩,  -- dense_groups
   ⟨0x481202, 0xAB, 3, 128, 32, 2, false, false⟩,  -- sweep_groups
   ⟨0x481203, 0xAB, 3, 16, 4096, 0, false, false⟩,  -- act_regions
   ⟨0x481301, 0x5B, 1, 8, 4128, 0, false, false⟩,  -- update_count
   ⟨0x481302, 0x4B, 1, 4, 4128, 0, false, false⟩,  -- zero_run
   ⟨0x481303, 0x4B, 1, 4, 4128, 0, false, false⟩,  -- uflow_run
   ⟨0x481304, 0x1B, 1, 1, 4128, 0, false, false⟩,  -- silent
   ⟨0x481305, 0x03, 4, 2, 1, 0, false, false⟩,  -- silent_clear
   ⟨0x481401, 0x05, 1, 8, 1, 0, true, false⟩,  -- phase_step
   ⟨0x481402, 0x5B, 1, 8, 6, 0, true, false⟩]  -- phase_times

/-- Objects 0x50xx (the object tables of the owning chapters). -/
def objects50 : List Obj :=
  [⟨0x500001, 0x2B, 2, 1, 7, 0, false, false⟩,  -- port_mode
   ⟨0x500002, 0x2B, 1, 1, 7, 0, false, false⟩,  -- port_state
   ⟨0x500003, 0x0A, 1, 224, 1, 0, false, false⟩,  -- link_faults
   ⟨0x500101, 0x03, 2, 2, 1, 0, false, false⟩,  -- torus_dims
   ⟨0x500102, 0x03, 2, 2, 1, 0, false, false⟩,  -- position
   ⟨0x500103, 0x2B, 2, 1, 4096, 0, false, false⟩,  -- route_override
   ⟨0x500104, 0x04, 2, 4, 1, 0, false, false⟩,  -- twin_partner
   ⟨0x500201, 0xAB, 1, 32784, 0, 0, false, false⟩,  -- comm_groups
   ⟨0x500202, 0x04, 1, 4, 1, 0, false, false⟩,  -- epoch_in_force
   ⟨0x500203, 0x0A, 4, 0, 1, 0, false, false⟩,  -- epoch_write
   ⟨0x500301, 0x02, 3, 1, 1, 1, false, false⟩,  -- deferral_policy
   ⟨0x500302, 0x04, 3, 4, 1, 1, false, false⟩,  -- reduction_deadline
   ⟨0x500303, 0x03, 3, 2, 1, 0, false, false⟩,  -- straggle_limit
   ⟨0x500304, 0x05, 3, 8, 1, 0, false, false⟩,  -- fabric_area
   ⟨0x500305, 0x0A, 3, 16, 1, 0, false, false⟩,  -- deferral_store
   ⟨0x500401, 0x04, 1, 4, 1, 0, false, false⟩,  -- log_next
   ⟨0x500402, 0x05, 1, 8, 1, 0, false, false⟩,  -- log_total
   ⟨0x500501, 0x5B, 1, 8, 7, 0, false, true⟩,  -- flits_sent
   ⟨0x500502, 0x5B, 1, 8, 7, 0, false, true⟩,  -- flits_received
   ⟨0x500503, 0x5B, 1, 8, 7, 0, false, true⟩,  -- flit_retries
   ⟨0x500504, 0x5B, 1, 8, 63, 0, false, true⟩,  -- fec_corrected
   ⟨0x500505, 0x05, 1, 8, 1, 0, false, true⟩,  -- detours
   ⟨0x500506, 0x05, 1, 8, 1, 0, false, true⟩,  -- resends
   ⟨0x500507, 0x05, 1, 8, 1, 0, false, true⟩,  -- arbiter_ties
   ⟨0x500508, 0x01, 4, 1, 1, 0, false, false⟩]  -- fabric_counters_clear

/-- Objects 0x58xx (the object tables of the owning chapters). -/
def objects58 : List Obj :=
  [⟨0x580001, 0x2B, 2, 1, 2, 0, false, false⟩,  -- fe_mode
   ⟨0x580002, 0x2B, 1, 1, 2, 0, false, false⟩,  -- fe_state
   ⟨0x580003, 0x5B, 2, 8, 2, 0, false, false⟩,  -- fe_mac
   ⟨0x580004, 0x4B, 2, 4, 2, 0, false, false⟩,  -- fe_ipv4
   ⟨0x580005, 0x0A, 2, 32, 1, 0, false, false⟩,  -- fe_ipv6
   ⟨0x580006, 0x2B, 2, 1, 2, 0, false, false⟩,  -- fe_pfc
   ⟨0x580007, 0x02, 4, 1, 1, 0, false, false⟩,  -- fe_port_reset
   ⟨0x580201, 0xAB, 2, 64, 1024, 0, false, false⟩,  -- connections
   ⟨0x580202, 0x2B, 1, 1, 1024, 0, true, false⟩,  -- conn_state
   ⟨0x580203, 0x03, 4, 2, 1, 0, false, false⟩,  -- conn_control
   ⟨0x580204, 0x4B, 1, 4, 1024, 0, false, false⟩,  -- conn_fault
   ⟨0x580301, 0xAB, 2, 32, 256, 0, false, false⟩,  -- regions
   ⟨0x580401, 0xAB, 2, 32, 64, 0, false, false⟩,  -- egress_targets
   ⟨0x581001, 0xAB, 2, 32, 64, 0, false, false⟩,  -- queues
   ⟨0x581002, 0x03, 4, 2, 1, 0, false, false⟩,  -- queue_control
   ⟨0x581101, 0xAB, 1, 32, 64, 0, true, false⟩,  -- queue_status
   ⟨0x581102, 0x05, 1, 8, 1, 0, false, false⟩,  -- doorbell_ordinal
   ⟨0x581201, 0x5B, 1, 8, 2, 0, false, true⟩,  -- rdma_write_bytes
   ⟨0x581202, 0x5B, 1, 8, 2, 0, false, true⟩,  -- rdma_read_bytes
   ⟨0x581203, 0x05, 1, 8, 1, 0, false, true⟩,  -- flush_reads
   ⟨0x581204, 0x05, 1, 8, 1, 0, false, true⟩,  -- flush_wait
   ⟨0x581205, 0x5B, 1, 8, 64, 0, false, true⟩,  -- entry_rereads
   ⟨0x581206, 0x5B, 1, 8, 64, 0, false, true⟩,  -- doorbells_ignored
   ⟨0x581207, 0x5B, 1, 8, 2, 0, false, true⟩,  -- naks_sent
   ⟨0x581208, 0x5B, 1, 8, 2, 0, false, true⟩,  -- cnps
   ⟨0x581209, 0x5B, 1, 8, 2, 0, false, true⟩,  -- egress_bytes
   ⟨0x58120A, 0x05, 1, 8, 1, 0, false, true⟩,  -- egress_undelivered
   ⟨0x58120B, 0x05, 1, 8, 1, 0, false, true⟩,  -- egress_restarts
   ⟨0x58120C, 0x01, 4, 1, 1, 0, false, false⟩]  -- fe_counters_clear

/-- Objects 0x60xx (the object tables of the owning chapters). -/
def objects60 : List Obj :=
  [⟨0x600001, 0x04, 2, 4, 1, 0, false, false⟩,  -- buddy
   ⟨0x600002, 0x0A, 3, 16, 1, 0, false, false⟩,  -- acorn_area
   ⟨0x600003, 0x4B, 1, 4, 0, 0, false, false⟩,  -- clients
   ⟨0x600004, 0x02, 3, 1, 1, 0, false, false⟩,  -- snapshot_target
   ⟨0x600005, 0x04, 3, 4, 1, 0, false, false⟩,  -- snapshot_interval
   ⟨0x600006, 0x02, 3, 1, 1, 1, false, false⟩,  -- job_group
   ⟨0x600007, 0x04, 2, 4, 1, 0, false, false⟩,  -- snapshot_consumed
   ⟨0x600008, 0x04, 2, 4, 1, 0, false, false⟩,  -- member_timeout
   ⟨0x600009, 0x01, 4, 1, 1, 0, false, false⟩,  -- snapshot_base
   ⟨0x600101, 0x2B, 3, 1, 4128, 0, false, false⟩,  -- save_method
   ⟨0x600201, 0x0A, 4, 0, 1, 0, false, false⟩,  -- recovery_write
   ⟨0x600202, 0x02, 1, 1, 1, 0, true, false⟩,  -- recovery_state
   ⟨0x600203, 0x0A, 1, 64, 1, 0, true, false⟩,  -- recovery_status
   ⟨0x600204, 0x05, 4, 8, 1, 0, false, false⟩,  -- resume
   ⟨0x600205, 0x04, 4, 4, 1, 0, false, false⟩,  -- restore_submit
   ⟨0x600206, 0x1B, 1, 1, 384, 0, false, false⟩,  -- remapped_tiles
   ⟨0x600301, 0x05, 1, 8, 1, 0, false, true⟩,  -- gate_wait
   ⟨0x600302, 0x05, 1, 8, 1, 0, false, true⟩,  -- mirror_bytes
   ⟨0x600303, 0x05, 1, 8, 1, 0, false, true⟩,  -- snapshot_bytes
   ⟨0x600304, 0x05, 1, 8, 1, 0, false, true⟩,  -- recoveries
   ⟨0x600401, 0x2B, 1, 1, 384, 0, false, false⟩,  -- hbm_channel_map
   ⟨0x600501, 0x0A, 1, 32, 1, 0, false, false⟩,  -- spare_summary
   ⟨0x600601, 0x02, 2, 1, 1, 0, false, false⟩,  -- twin_role
   ⟨0x600602, 0x02, 1, 1, 1, 0, false, false⟩,  -- twin_state
   ⟨0x600603, 0x04, 2, 4, 1, 0, false, false⟩,  -- twin_timeout
   ⟨0x600604, 0x04, 2, 4, 1, 0, false, false⟩]  -- twin_late_limit

/-- Objects 0x68xx (the object tables of the owning chapters). -/
def objects68 : List Obj :=
  [⟨0x680001, 0x01, 4, 1, 1, 0, false, false⟩,  -- snapshot_take
   ⟨0x680002, 0x05, 1, 8, 1, 0, false, false⟩]  -- snapshot_ordinal

/-- Objects 0x70xx (the object tables of the owning chapters). -/
def objects70 : List Obj :=
  [⟨0x700001, 0x0A, 2, 68, 1, 0, false, false⟩,  -- user_root
   ⟨0x700002, 0x0A, 0, 68, 1, 0, false, false⟩,  -- identity_key
   ⟨0x700003, 0x0A, 0, 2920, 1, 0, false, false⟩,  -- identity_cert
   ⟨0x700004, 0x05, 1, 8, 1, 0, false, false⟩,  -- sig_index
   ⟨0x700005, 0x05, 1, 8, 1, 0, false, false⟩,  -- sig_reserved
   ⟨0x700101, 0x0A, 1, 128, 1, 0, false, false⟩,  -- session_table
   ⟨0x700102, 0x05, 1, 8, 1, 0, false, false⟩,  -- auth_failures
   ⟨0x700201, 0x0A, 4, 32, 1, 0, false, false⟩,  -- attest_request
   ⟨0x700202, 0x02, 1, 1, 1, 0, false, false⟩,  -- attest_state
   ⟨0x700203, 0x0A, 1, 10149, 1, 0, false, false⟩,  -- attest_report
   ⟨0x701001, 0x02, 2, 1, 1, 0, false, false⟩,  -- test_state
   ⟨0x701002, 0x0A, 4, 32, 1, 0, false, false⟩,  -- margin_request
   ⟨0x701003, 0x02, 1, 1, 1, 0, false, false⟩,  -- margin_state
   ⟨0x701004, 0x4B, 1, 4, 8192, 0, false, false⟩,  -- margin_results
   ⟨0x701005, 0x3B, 1, 2, 32, 0, false, false⟩,  -- margin_summary
   ⟨0x701006, 0x4B, 1, 4, 8, 0, false, false⟩]  -- bist_report

/-- Every object of the dictionary, ascending (R324). -/
def objects : List Obj :=
  objects10 ++
  objects11 ++
  objects18 ++
  objects20 ++
  objects28 ++
  objects30 ++
  objects38 ++
  objects40 ++
  objects48 ++
  objects50 ++
  objects58 ++
  objects60 ++
  objects68 ++
  objects70
/-- The object with a key, if a table of the spec names it (R324). -/
def objFind (key : Nat) : Option Obj := objects.find? (fun o => o.key == key)

/-- The type code of an object's elements. -/
def Obj.elemType (o : Obj) : Nat := if o.typ % 16 = 11 then o.typ / 16 else o.typ

/-- RWS. -/
def Obj.staged (o : Obj) : Bool := o.access == 3

/-! ## Factory defaults and the value store -/

/-- Factory defaults of the elements of RW and RWS objects that are not zero (the Default columns of the object tables). -/
def factoryElems : List (Nat × Nat) :=
  [(0x200104, 750), (0x200403, 100), (0x280004, 100), (0x300005, 2), (0x300201, 8), (0x300601, 24), (0x300602, 600),
   (0x400004, 352), (0x480001, 2), (0x480103, 2000), (0x480105, 24), (0x480201, 5), (0x480202, 5), (0x480203, 5),
   (0x481001, 0xFFFF), (0x481002, 0x7F800000), (0x481004, 4), (0x481006, 256), (0x481007, 0x3F000000), (0x500001, 1),
   (0x500103, 0xFF), (0x500104, 0xFFFFFFFF), (0x500302, 1000), (0x500303, 8), (0x500304, 0xBFE0000000), (0x580001, 1),
   (0x600001, 0xFFFFFFFF), (0x600004, 0xFF), (0x600005, 1000), (0x600008, 500), (0x600101, 0xFF), (0x600603, 50),
   (0x600604, 5000)]

/-- The factory default of an element of an object. -/
def factoryElem (key : Nat) : Nat :=
  match factoryElems.find? (fun e => e.1 == key) with
  | some e => e.2
  | none => 0

/-- The element size by which an object's default repeats. -/
def elemSize (key : Nat) : Nat :=
  match objFind key with
  | some o => if o.size = 0 then 1 else o.size
  | none => 1

/-- The factory default of one byte of an object's value. -/
def factoryByte (key off : Nat) : Byte := BitVec.ofNat 8 (factoryElem key / 256 ^ (off % elemSize key))

/-- The place of a byte of an object in the store. -/
def storeAt (key off : Nat) : Nat := key * 2 ^ 32 + off

/-- A byte of an object in a store of values. -/
def storeByte (t : Tab Byte) (key off : Nat) : Byte :=
  match tabFind t (storeAt key off) with
  | some b => b
  | none => factoryByte key off

/-- Bytes of an object in a store of values. -/
def storeBytes (t : Tab Byte) (key off len : Nat) : List Byte := (List.range len).map (fun i => storeByte t key (off + i))

/-- A little-endian number in a store of values. -/
def storeNat (t : Tab Byte) (key off len : Nat) : Nat := natOfBytes (storeBytes t key off len)

/-- The store with bytes of an object written; a byte equal to its factory default has no entry. -/
def storeWrite (t : Tab Byte) (key off : Nat) : List Byte → Tab Byte
  | [] => t
  | b :: l => storeWrite (tabSet (factoryByte key off) t (storeAt key off) b) key (off + 1) l

/-- The configuration in force: bytes of an object. -/
def cfgBytes (s : State) (key off len : Nat) : List Byte := storeBytes s.dict.values key off len

/-- The configuration in force: a number at a byte offset. -/
def cfgAt (s : State) (key off len : Nat) : Nat := storeNat s.dict.values key off len

/-- The configuration in force: element `i` of an object. -/
def cfgElem (s : State) (key i : Nat) : Nat := storeNat s.dict.values key (i * elemSize key) (elemSize key)

/-- The configuration in force: the value of an object of one element. -/
def cfg (s : State) (key : Nat) : Nat := cfgElem s key 0

/-- The elements of an object that the store lists: their numbers, ascending. -/
def listedElems (t : Tab Byte) (key : Nat) : List Nat :=
  (tabSlice t (storeAt key 0) (storeAt (key + 1) 0)).foldl
    (fun l e => let i := e.1 / elemSize key; if l.getLast? = some i then l else l ++ [i]) []

/-- The entries of a section of defaults (Table 14.6a): key, offset and value, with `fuel` at least their number. -/
def defaultEntries : Nat → List Byte → Option (List (Nat × Nat × List Byte))
  | 0, l => if l = [] then some [] else none
  | n + 1, l =>
    if l = [] then some []
    else
      let v := natOfBytes (l.take 16)
      let len := bitsAt v 64 32
      let padded := (len + 7) / 8 * 8
      if l.length < 16 + padded ∨ bitsAt v 24 8 ≠ 0 ∨ bitsAt v 96 32 ≠ 0 then none
      else
        (defaultEntries n (l.drop (16 + padded))).map (fun r =>
          (bitsAt v 0 16 * 256 + bitsAt v 16 8, bitsAt v 32 32, (l.drop 16).take len) :: r)

/-- A store of values with the bytes that a slot image gives. -/
def imageStore (l : List Byte) : Tab Byte :=
  ((defaultEntries (l.length / 16 + 1) l).getD []).foldl (fun t e => storeWrite t e.1 e.2.1 e.2.2) []

/-! ## Checks on a value alone (R326) -/

/-- The ranges of RW and RWS objects: key, lowest and highest value of an element. -/
def ranges : List (Nat × Nat × Nat) :=
  [(0x180001, 0, 1), (0x180101, 0, 1), (0x180201, 0, 2), (0x200104, 620, 850), (0x200403, 80, 103), (0x280004, 10, 10000),
   (0x300005, 0, 3), (0x300201, 0, 14), (0x300601, 0, 720), (0x400004, 1, 65535), (0x480001, 0, 2), (0x480003, 0, 1), (0x480005, 0, 1),
   (0x480103, 1, 1048576), (0x480104, 0, 24), (0x480105, 0, 24), (0x481003, 0, 1), (0x481004, 0, 4096),
   (0x481006, 1, 1048576), (0x500001, 0, 3), (0x500301, 0, 2), (0x500302, 1, 10000000), (0x500303, 1, 65535),
   (0x580001, 0, 2), (0x600601, 0, 2), (0x600603, 10, 10000), (0x600008, 50, 1000000), (0x600604, 100, 1000000), (0x701001, 0, 2)]

/-- An element of a numeric object is within the object's stated range. -/
def inRange (key v : Nat) : Bool :=
  if key = 0x200006 then decide (v = 0 ∨ (1500 ≤ v ∧ v ≤ 3200))
  else if key = 0x300602 then decide (v = 0 ∨ (10 ≤ v ∧ v ≤ 86400))
  else if key = 0x500103 then decide (v ≤ 6 ∨ v = 0xFF)
  else if key = 0x600101 then decide (v ≤ 2 ∨ v = 0xFF)
  else if key = 0x481007 then decide (v ≤ 0x3F800000 ∨ v = 0x80000000)
  else
    match ranges.find? (fun r => r.1 == key) with
    | some r => decide (r.2.1 ≤ v ∧ v ≤ r.2.2)
    | none => true

/-- The values that the recipe objects may take (R80, Table 3.8); checked at the cut. -/
def recipeOk (key v : Nat) : Bool :=
  if key = 0x480201 then decide (v = 0x05 ∨ v = 0x82 ∨ v = 0x01)
  else if key = 0x480202 then decide (v = 0x05 ∨ v = 0x82 ∨ v = 0x01 ∨ v = 0x06)
  else decide (v = 0x05 ∨ v = 0x83 ∨ v = 0x06)

/-- A binary32 that R326 accepts: no NaN, and an infinity only where the object's meaning names it (global_norm_bound). -/
def f32Ok (key v : Nat) : Bool :=
  let field := v / 2 ^ 23 % 256
  if field = 255 then decide (v % 2 ^ 23 = 0 ∧ key = 0x481002 ∧ v < 2 ^ 31) else true

/-- Bytes that continue a UTF-8 character. -/
def utf8Tail : Nat → List Byte → Bool
  | 0, _ => true
  | _ + 1, [] => false
  | n + 1, b :: l => decide (b.toNat / 64 = 2) && utf8Tail n l

/-- Valid UTF-8, with `fuel` at least the number of bytes. -/
def utf8Ok : Nat → List Byte → Bool
  | _, [] => true
  | 0, _ :: _ => false
  | n + 1, b :: l =>
    let v := b.toNat
    let second := (l.headD 0).toNat
    if v < 0x80 then utf8Ok n l
    else if 0xC2 ≤ v ∧ v ≤ 0xDF then utf8Tail 1 l && utf8Ok n (l.drop 1)
    else if 0xE0 ≤ v ∧ v ≤ 0xEF then
      utf8Tail 2 l && decide ((v ≠ 0xE0 ∨ 0xA0 ≤ second) ∧ (v ≠ 0xED ∨ second < 0xA0)) && utf8Ok n (l.drop 2)
    else if 0xF0 ≤ v ∧ v ≤ 0xF4 then
      utf8Tail 3 l && decide ((v ≠ 0xF0 ∨ 0x90 ≤ second) ∧ (v ≠ 0xF4 ∨ second < 0x90)) && utf8Ok n (l.drop 3)
    else false

/-- One element of an object passes R326; the bits of an act_regions entry that R125 says are zero are part of its range
(assumption 72). -/
def elemOk (o : Obj) (l : List Byte) : Bool :=
  let v := natOfBytes l
  match o.elemType with
  | 1 => decide (v ≤ 1)
  | 8 => f32Ok o.key v && inRange o.key v
  | 9 => decide (l.length ≤ o.size) && utf8Ok l.length l
  | 10 => decide (o.key ≠ 0x481203) || decide (bitsAt v 48 16 = 0 ∧ bitsAt v 104 24 = 0)
  | _ => inRange o.key v

/-- The elements of a written range, by `n` elements of `size` bytes. -/
def splitElems (size : Nat) : Nat → List Byte → List (List Byte)
  | 0, _ => []
  | n + 1, l => l.take size :: splitElems size n (l.drop size)

/-- Written bytes pass R326: every whole element they cover. A write of part of a scalar is checked on the value it leaves. -/
def valueOk (o : Obj) (old : List Byte) (off : Nat) (data : List Byte) : Bool :=
  if o.typ % 16 = 11 then
    (splitElems o.size (data.length / (if o.size = 0 then 1 else o.size)) data).all (elemOk o)
  else
    elemOk o (old.take off ++ data ++ old.drop (off + data.length))

/-! ## The configuration digest (R335) -/

/-- Fields of records that the digest masks: key, first bit, bits (Table 13.8). -/
def maskedFields : List (Nat × Nat × Nat) :=
  [(0x481201, 64, 48), (0x481201, 128, 48), (0x481201, 192, 48), (0x481201, 256, 48), (0x481201, 384, 48), (0x481201, 448, 9),
   (0x481202, 64, 48), (0x481202, 128, 48), (0x481202, 192, 48), (0x481202, 256, 48), (0x481202, 384, 48), (0x481202, 448, 9),
   (0x481202, 320, 40), (0x380101, 0, 48), (0x380101, 96, 32), (0x380101, 160, 8), (0x380102, 64, 48), (0x380102, 192, 48),
   (0x380102, 256, 48)]

/-- A record with a field set to zero. -/
def clearField (v lo len : Nat) : Nat := v - bitsAt v lo len * 2 ^ lo

/-- A record of an object with its masked fields set to zero. -/
def maskRecord (key v : Nat) : Nat :=
  (maskedFields.filter (fun m => m.1 == key)).foldl (fun v m => clearField v m.2.1 m.2.2) v

/-- The value of an object as the digest hashes it. -/
def digestValue (t : Tab Byte) (o : Obj) : List Byte :=
  if o.digest = 2 then
    (List.range o.count).flatMap (fun i => bytesOfNat o.size (maskRecord o.key (storeNat t o.key (i * o.size) o.size)))
  else storeBytes t o.key 0 (o.size * o.count)

/-- The part of the hashed string that one object gives. -/
def digestPart (t : Tab Byte) (o : Obj) : List Byte :=
  bytesOfNat 2 (o.key / 256) ++ bytesOfNat 1 (o.key % 256) ++ bytesOfNat 1 o.digest ++ bytesOfNat 4 (o.size * o.count)
    ++ digestValue t o

/-- The 16-byte block of a communication group in force (Table 9.10). -/
def groupBlockBytes (g : CommGroup) : List Byte :=
  bytesOfNat 16 (g.number + 2 ^ 8 + g.members.length * 2 ^ 9 + g.root * 2 ^ 22)

/-- A member's slot entry (Table 9.10). -/
def memberNat (m : Member) : Nat := m.node.toNat + m.generation * 2 ^ 24

/-- The part of the hashed string that a communication group gives: its block, then its slots with node zero. -/
def digestGroup (g : CommGroup) : List Byte :=
  groupBlockBytes g ++ g.members.flatMap (fun m => bytesOfNat 8 (memberNat { m with node := 0 }))

/-- The configuration digest of values and communication groups: 32 bytes of SHAKE256 (R335). -/
def configDigest (t : Tab Byte) (groups : List CommGroup) : List Byte :=
  shake256 ((objects.filter (fun o => o.staged && decide (o.digest ≠ 0))).flatMap (digestPart t) ++ groups.flatMap digestGroup) 32

/-- The first 16 bytes of a digest, as commit records and summaries carry it. -/
def digestShort (l : List Byte) : BitVec 128 := BitVec.ofNat 128 (natOfBytes (l.take 16))

end Sys2Proof.Machine
end

