-- ==== Sys2Proof/Machine/Views.lean ====
section
/-! DEFINITION. What every object reads: the values of read-only objects from the state that holds them (the object tables of
all chapters), the change ordinals (R328), and how a command ends. -/

namespace Sys2Proof.Machine

open Sys2Proof

/-- A table of numbers from a table of records: the field `f`, default `d` left out. -/
def project {α : Type} (d : Nat) (t : Tab α) (f : α → Nat) : Tab Nat :=
  t.filterMap (fun e => if f e.2 = d then none else some (e.1, f e.2))

/-- A table of numbers whose keys are `n` per entry of a table of tables. -/
def spreadTab {α : Type} (n : Nat) (t : Tab α) (f : α → Tab Nat) : Tab Nat :=
  t.flatMap (fun e => (f e.2).map (fun x => (n * e.1 + x.1, x.2)))

/-- A table with value 1 at the members of a set. -/
def marks (l : NatSet) : Tab Nat := l.foldl (fun t n => tabInsert t n 1) []

/-- A number as a view of `n` bytes. -/
def viewNat (n v : Nat) : View := .bytes (bytesOfNat n v)

/-- Numbers as a view of elements of `w` bytes. -/
def viewList (w : Nat) (l : List Nat) : View := .bytes (l.flatMap (bytesOfNat w))

/-- A signed number as a natural number of 32 bits. -/
def nat32 (i : Int) : Nat := (i % 2 ^ 32).toNat

/-! ## Records -/

/-- Commit record (Table 2.6). -/
def CommitRecord.nat (r : CommitRecord) : Nat :=
  r.step + natOfBool r.applied * 2 ^ 64 + natOfBool r.configApplied * 2 ^ 65 + natOfBool r.nonfinite * 2 ^ 66
    + natOfBool r.overBound * 2 ^ 67 + natOfBool r.digestMismatch * 2 ^ 68 + r.deferrals % 65536 * 2 ^ 80
    + r.epoch * 2 ^ 96 + r.digest.toNat * 2 ^ 128

/-- Refusal record (Table 13.7). -/
def RefusalRecord.nat (r : RefusalRecord) : Nat :=
  r.code.toNat + r.step * 2 ^ 64 + r.aKey / 256 * 2 ^ 128 + r.aKey % 256 * 2 ^ 144 + r.aEntry * 2 ^ 152
    + r.bKey / 256 * 2 ^ 168 + r.bKey % 256 * 2 ^ 184 + r.bEntry * 2 ^ 192

/-- Event log entry (Table 13.9). -/
def Event.nat (e : Event) : Nat :=
  e.code.toNat + e.repeats * 2 ^ 32 + e.step * 2 ^ 64 + e.ordinal * 2 ^ 128 + e.argument * 2 ^ 192

/-- Trip record (Table 12.10). -/
def TripRecord.nat (r : TripRecord) : Nat :=
  r.cause + r.sensor * 2 ^ 8 + r.temperature % 65536 * 2 ^ 16 + r.trips * 2 ^ 32 + r.step * 2 ^ 64

/-- Reset record (Table 14.3). -/
def ResetRecord.nat (r : ResetRecord) : Nat :=
  r.cause + r.code.toNat * 2 ^ 32 + r.step * 2 ^ 64 + r.resets * 2 ^ 128

/-- Loss-scale history record (Table 3.6). -/
def History.nat (h : History) : Nat :=
  h.scaleExp + h.minExp * 2 ^ 8 + h.maxExp * 2 ^ 16 + h.cleanSteps * 2 ^ 32 + h.growth * 2 ^ 64 + h.ringNext * 2 ^ 96
    + h.ringFill * 2 ^ 104 + h.wideLeft * 2 ^ 112 + h.overflowTotal * 2 ^ 128
    + (List.range 64).foldl (fun a j => a + tabGet 0 h.ring j * 2 ^ (64 * j + 192)) 0

/-- Trap record (Table 4.17). An iteration index beyond its 16-bit field, of which the spec says nothing, is kept modulo 65,536
(DESIGN CHOICE, assumption 81). -/
def trapNat (t : TrapInfo) (step : Nat) : Nat :=
  let it := fun i => t.iterations.getD i 0 % 65536
  t.code.toNat + t.block * 2 ^ 32 + t.depth * 2 ^ 40 + t.pc * 2 ^ 64 + step * 2 ^ 128
    + it 0 * 2 ^ 192 + it 1 * 2 ^ 208 + it 2 * 2 ^ 224 + it 3 * 2 ^ 240

/-- The good lanes of a port, bit n for lane n. -/
def goodLanes (p : Port) : Nat := (List.range 9).foldl (fun a n => if p.badLanes.contains n then a else a + 2 ^ n) 0

/-- Link fault record of a port (Table 9.6): zero while the port has never left its reset value. -/
def Port.nat (p : Port) : Nat :=
  p.faultCode.toNat + p.hopFailures * 2 ^ 32 + p.faultStep * 2 ^ 64 + (if p.state = 0 then 0 else goodLanes p * 2 ^ 128)
    + p.state * 2 ^ 137

/-- Queue status record (Table 10.13). -/
def Queue.nat (q : Queue) : Nat :=
  q.state + q.code.toNat * 2 ^ 32 + q.accepted * 2 ^ 64 + q.released * 2 ^ 96 + q.posted * 2 ^ 128 + q.consumed * 2 ^ 160
    + q.faultSeq * 2 ^ 192

/-- An element of comm_groups (R234): block, then 4,096 slot entries. -/
def CommGroup.nat (g : CommGroup) : Nat :=
  natOfBytes (groupBlockBytes g) + natOfBytes (g.members.flatMap (fun m => bytesOfNat 8 (memberNat m))) * 2 ^ 128

/-- A group as the numbers that the digest hashes. -/
def CommGroup.digestKey (g : CommGroup) : List Nat :=
  g.number :: g.root :: g.members.length :: g.members.map (fun m => m.generation)

/-! ## Capacities, power -/

/-- The capacity of slice 4p + layer − 1 in KiB (R17). -/
def sliceKiB (i : Nat) : Nat := if i / 4 % 3 = 2 then 6826 else 6827

/-- cache_capacity (R18). -/
def cacheCapacity (s : State) : Nat :=
  s.stack.slices.foldl (fun a e => if e.2 = 1 then a - sliceKiB e.1 else a) 10485760

/-- A valid pinned partition of Table 6.6. -/
structure Pinned where
  start : Nat
  bytes : Nat
  attr : Nat
  deriving DecidableEq, Repr

/-- The pinned partition that a record of 16 bytes describes. -/
def pinnedOf (v : Nat) : Option Pinned :=
  if bitAt v 96 then some ⟨bitsAt v 0 48, bitsAt v 64 14 * 2 ^ 20, bitsAt v 97 2⟩ else none

/-- The valid pinned partitions of a store of values, by entry. -/
def pinnedIn (t : Tab Byte) : List (Nat × Pinned) :=
  (listedElems t 0x300101).filterMap (fun i => (pinnedOf (storeNat t 0x300101 (16 * i) 16)).map (fun p => (i, p)))

/-- pinned_total in KiB. -/
def pinnedKiB (t : Tab Byte) : Nat := (pinnedIn t).foldl (fun a p => a + p.2.bytes / 1024) 0

/-- shared_capacity in KiB. -/
def sharedKiB (s : State) : Nat := cacheCapacity s - pinnedKiB s.dict.values

/-- residency_capacity in KiB (R160). -/
def residencyKiB (s : State) : Nat := sharedKiB s * cfg s 0x300201 * 3 / 64

/-- Two converters failed: the limits of R308. -/
def converterLoss (s : State) : Bool := decide (2 ≤ s.power.converterFailed.length)

/-- A rate scaled by the input voltage below 32 V (Table 12.1). -/
def scaleInput (s : State) (w : Nat) : Nat := if s.power.inputMv < 32000 then w * s.power.inputMv / 32000 else w

/-- The short rate in force, W (R308, R311, R307). -/
def shortRate (s : State) : Nat := scaleInput s (if converterLoss s then 2600 else 3600)

/-- The long rate in force, W (R308, R311, R313, R307). -/
def longRate (s : State) : Nat :=
  let r := if converterLoss s then 2300 else 3200
  let cap := cfg s 0x200006
  scaleInput s (if cap ≠ 0 ∧ cap < r then cap else r)

/-- The sample cap in force, W (R308, R311, R307). -/
def sampleCap (s : State) : Nat := scaleInput s (if converterLoss s then 3000 else 4400)

/-- The long capacity in force, mJ (R308). -/
def longCapacity (s : State) : Nat := if converterLoss s then 3000 else 4000

/-- The gate that control sets for a row: the lower of power and thermal control (R314). -/
def controlledGate (s : State) (y : Nat) : Nat := min s.power.powerGate (tabGet 16 s.power.thermalGates y)

/-- The gate of a row in force, with the idle restart of R314. -/
def rowGate (s : State) (y : Nat) : Nat := min (controlledGate s y) (tabGet 16 s.power.restart y)

/-- The effective compute setpoint (R312). -/
def effectiveSetpoint (s : State) : Nat := min (cfg s 0x200104) (min s.power.powerLimitMv s.power.thermalLimitMv)

/-- The mean of the last samples, W. -/
def meanPower (s : State) : Nat :=
  if s.power.samples = [] then 0 else s.power.samples.foldl (· + ·) 0 / s.power.samples.length

/-- Spares of interface 5p + i: 80 at L1/L0 (i = 4), else 160 (Tables 1.5, 1.6). -/
def tsvSpares (i : Nat) : Nat := if i % 5 = 4 then 80 else 160

/-- spare_summary (Table 11.2). -/
def spareSummary (s : State) : Nat :=
  let left := s.stack.tsvUsed.map (fun e => tsvSpares e.1 - e.2)
  let tsvMin := left.foldl min 80
  let degraded := (s.stack.interfaces.filter (fun e => decide (e.2 ≠ 0))).length
  let lanes := ((List.range 7).filter (fun p =>
    decide (cfgElem s 0x500001 p = 1) && !(tabGet Port.off s.fabric.ports p).spareUsed)).length
  let hbmLeft := ((List.range 12).filter (fun k => s.prot.spread.all (fun c => decide (c / 32 ≠ k)))).length
  let rows := s.prot.rowRepairs.foldl (fun a e => min a (16 - e.2)) 16
  s.stack.spare.length + tsvMin * 2 ^ 16 + degraded * 2 ^ 32 + lanes * 2 ^ 48 + hbmLeft * 2 ^ 56 + rows * 2 ^ 80

/-- recovery_status (Table 11.10). -/
def recoveryStatus (s : State) : Nat :=
  s.resil.epoch + s.resil.state * 2 ^ 32 + s.resil.restore * 2 ^ 64 + s.resil.shardsTotal * 2 ^ 128
    + s.resil.verified.length * 2 ^ 144 + s.resil.replayLeft * 2 ^ 160 + natOfBool s.resil.inputsRequired * 2 ^ 192
    + natOfBool (!s.resil.remapped.isEmpty) * 2 ^ 193

/-- The state mode in force (R72). -/
def modeInForce (s : State) : Nat := if cfg s 0x480003 = 1 ∨ 0 < s.train.history.wideLeft then 1 else 0

/-- An entry of session_table (Table 14.12). -/
def sessionNat (s : State) (x : Session) : Nat :=
  x.slot + (if x.pending then 4 else x.role) * 2 ^ 8 + (s.power.refPeriods - x.lastUse) / 156250000 * 2 ^ 32

/-- Bytes of an image copy in flash; an erased byte reads 0xFF. -/
def copyBytes (s : State) (copy off len : Nat) : List Byte :=
  let c := s.flash.copies.getD copy ⟨0, []⟩
  (List.range len).map (fun i => tabGet 0xFF c.bytes (off + i))

/-- The SHAKE256 of a valid copy's header, or zero (Table 14.12). -/
def headerDigest (s : State) (copy : Nat) : List Byte :=
  if (s.flash.copies.getD copy ⟨0, []⟩).state = 1 then shake256 (copyBytes s copy 0 256) 32 else List.replicate 32 0

/-- The stored signing counter: the copy with the higher value (R358). -/
def sigReserved (s : State) : Nat := max s.flash.sigA.2 s.flash.sigB.2

/-- Open batches' bytes. -/
def batchBytes (s : State) : Nat :=
  s.dict.batches.foldl (fun a b => a + b.parts.foldl (fun n p => n + p.data.length) 0) 0

/-! ## Staging (R332) -/

/-- The values after a list of staged writes, in ordinal order. -/
def applyWrites (t : Tab Byte) (l : List Staged) : Tab Byte :=
  l.foldl (fun t w => storeWrite t w.key w.offset w.data) t

/-- The cut of the current step has passed, now or before a recovery that re-executes the step (R44, R292). -/
def cutPassed (s : State) : Bool := s.train.cut || decide (s.train.lastCut = s.train.committed + 1)

/-- The first step whose staging cut has not passed: writes accepted now without apply-at take effect at the boundary before the
step after it (R44). -/
def nextCut (s : State) : Nat := if cutPassed s then s.train.committed + 2 else s.train.committed + 1

/-- A write or record with an apply-at step (0 for none) is of the staged set of the current step's boundary: it names that
boundary's step, or names none and its cut has not passed (R332). -/
def joins (s : State) (applyAt : Nat) : Bool :=
  if applyAt = 0 then !cutPassed s else decide (applyAt ≤ s.train.committed + 2)

/-- The first step whose work a staged write governs: the step it names, or the step after the next boundary that takes writes in. -/
def Staged.effective (s : State) (w : Staged) : Nat := if w.applyAt = 0 then nextCut s + 1 else w.applyAt

/-- The values that writes with apply-at step `a` would leave (view_pending). -/
def pendingValues (s : State) (a : Nat) : Tab Byte :=
  applyWrites s.dict.values (s.dict.staged.filter (fun w => decide (w.applyAt = a)))

/-- The values that the next staged set would leave (view_staged). -/
def stagedValues (s : State) : Tab Byte :=
  applyWrites s.dict.values (s.dict.staged.filter (fun w => decide (w.effective s ≤ nextCut s + 1)))

/-- The step in progress: committed_step + 1. -/
def currentStep (s : State) : Nat := s.train.committed + 1

/-- pending_future_writes: writes, epoch records among them, with apply-at beyond the next boundary (R45, R234). The spec does not
say how a batch of several parts counts: as one accepted write, by its ordinal (DESIGN CHOICE, assumption 79). -/
def futureWrites (s : State) : Nat :=
  ((s.dict.staged.filter (fun w => decide (w.applyAt ≠ 0 ∧ s.train.committed + 2 < w.applyAt))).map (fun w => w.ordinal)).eraseDups.length +
    (s.fabric.pendingEpochs.filter (fun w => decide (w.applyAt ≠ 0 ∧ s.train.committed + 2 < w.applyAt))).length

/-- The digest's view of values. -/
def digestView (s : State) (t : Tab Byte) : View :=
  .digest (t.filter (fun e =>
      match objFind (e.1 / 2 ^ 32) with
      | some o => o.staged && decide (o.digest ≠ 0)
      | none => false))
    (s.fabric.groups.flatMap CommGroup.digestKey)

/-! ## The views -/

/-- Objects 0x10xx and 0x11xx (Table 13.11). -/
def viewDict (s : State) (key : Nat) : Option View :=
  match key with
  | 0x100001 => some (.bytes (asciiBytes "HNL-3612"))
  | 0x100002 => some (.bytes s.flash.serial)
  | 0x100003 => some (.bytes s.flash.boardRevision)
  | 0x100004 => some (viewNat 1 2)
  | 0x100005 => some (.bytes (if s.boot.firmwareRunning < 2 then copyBytes s s.boot.firmwareRunning 12 4 else [0, 0, 0, 0]))
  | 0x100006 => some (viewNat 1 1)
  | 0x110001 => some (digestView s s.dict.values)
  | 0x110002 => some (digestView s (stagedValues s))
  | 0x110003 => some (viewNat 32 s.dict.refusal.nat)
  | 0x110004 => some (viewNat 8 s.dict.refusalCount)
  | 0x110005 => some (viewNat 4 (33554432 - batchBytes s))
  | 0x110006 => some (viewNat 1 s.dict.sessions.length)
  | 0x110101 => some (.elems 32 256 0 (project 0 s.dict.events Event.nat))
  | 0x110102 => some (viewNat 1 s.dict.eventNext)
  | 0x110103 => some (viewNat 8 s.dict.eventTotal)
  | 0x110104 => some (viewNat 1 (natOfBool s.dict.resiliencePending))
  | 0x110201 => some (viewNat 8 s.flash.mgmtMac)
  | 0x680002 => some (viewNat 8 s.dict.snapshotOrdinal)
  | _ => none

/-- Objects 0x18xx and 0x70xx (Table 14.12). -/
def viewBoot (s : State) (key : Nat) : Option View :=
  match key with
  | 0x180001 => some (viewNat 1 s.flash.bootSelect)
  | 0x180002 => some (viewNat 1 s.boot.firmwareRunning)
  | 0x180003 => some (.bytes (headerDigest s 0 ++ headerDigest s 1))
  | 0x180004 => some (viewNat 4 s.flash.floor)
  | 0x180006 => some (viewList 1 (s.flash.copies.map (fun c => c.state)))
  | 0x180101 => some (viewNat 1 s.flash.userSelect)
  | 0x180102 => some (viewNat 1 s.boot.userRunning)
  | 0x180103 => some (.bytes (headerDigest s 2 ++ headerDigest s 3))
  | 0x180201 => some (viewNat 1 s.boot.uploadTarget)
  | 0x181001 => some (viewNat 1 s.boot.phase)
  | 0x181002 => some (viewNat 32 s.boot.lastReset.nat)
  | 0x700001 => some (.bytes (if s.flash.userRoot = [] then List.replicate 68 0 else s.flash.userRoot))
  | 0x700002 => some (.bytes s.flash.identityKey)
  | 0x700003 => some (.bytes s.flash.identityCert)
  | 0x700004 => some (viewNat 8 s.boot.sigIndex)
  | 0x700005 => some (viewNat 8 (sigReserved s))
  | 0x700101 => some (viewList 8 ((List.range 16).map (fun i => match s.dict.sessions[i]? with
      | some x => sessionNat s x
      | none => 0)))
  | 0x700102 => some (viewNat 8 s.dict.authFailures)
  | 0x700202 => some (viewNat 1 s.boot.attestState)
  | 0x700203 => some (.bytes (s.boot.attestReport ++ List.replicate (10149 - s.boot.attestReport.length) 0))
  | 0x701001 => some (viewNat 1 s.boot.testState)
  | 0x701003 => some (viewNat 1 s.boot.marginState)
  | 0x701004 => some (.elems 4 8192 0 s.boot.marginResults)
  | 0x701005 => some (.elems 2 32 0x8080 s.boot.marginSummary)
  | 0x701006 => some (.elems 4 8 0 s.boot.bistReport)
  | _ => none

/-- Objects 0x20xx and 0x28xx (Tables 12.11, 2.2, 2.8). -/
def viewPower (s : State) (key : Nat) : Option View :=
  match key with
  | 0x200001 => some (viewNat 4 s.power.inputMv)
  | 0x200002 => some (viewNat 4 (meanPower s))
  | 0x200003 => some (.elems 1 4 0 (marks s.power.converterFailed))
  | 0x200004 => some (viewList 4 [shortRate s, longRate s, sampleCap s])
  | 0x200005 => some (viewList 4 [400, longCapacity s])
  | 0x200007 => some (viewList 4 [s.power.shortUj / 1000, s.power.longUj / 1000])
  | 0x200008 => some (viewList 1 ((List.range 16).map (rowGate s)))
  | 0x200101 => some (viewList 2 s.power.railSet)
  | 0x200102 => some (viewList 2 s.power.railMv)
  | 0x200103 => some (viewList 4 s.power.railMa)
  | 0x200105 => some (viewNat 8 s.power.floorStops)
  | 0x200106 => some (.elems 8 8 0 s.power.droops)
  | 0x200201 => some (.elems 8 45 0 s.power.energy)
  | 0x200202 => some (.elems 8 65 0 s.power.queueEnergy)
  | 0x200301 => some (viewNat 1 s.power.throttleReason)
  | 0x200302 => some (.elems 8 13 0 s.power.throttleTime)
  | 0x200401 => some (viewList 4 (s.power.temps.map nat32))
  | 0x200402 => some (viewList 4 (s.power.tempMax.map nat32))
  | 0x200501 => some (viewNat 32 s.boot.lastTrip.nat)
  | 0x280001 => some (viewList 4 s.power.paceNow)
  | 0x280002 => some (viewList 4 s.power.paceMin)
  | 0x280003 => some (viewList 4 s.power.paceMax)
  | 0x280101 => some (viewNat 4 156250000)
  | 0x280102 => some (viewNat 2 50)
  | 0x280103 => some (viewNat 8 s.power.refPeriods)
  | 0x281001 => some (viewNat 8 s.train.committed)
  | 0x281002 => some (viewNat 8 s.train.boundarySeq)
  | 0x281003 => some (viewNat 32 s.train.record.nat)
  | 0x281004 => some (viewNat 2 (futureWrites s))
  | 0x281005 => some (viewNat 4 s.train.boundaryNs)
  | _ => none

/-- Objects 0x30xx and 0x38xx (Tables 6.14, 8.9, 7.9). -/
def viewMemory (s : State) (key : Nat) : Option View :=
  match key with
  | 0x300001 => some (viewNat 4 (cacheCapacity s))
  | 0x300002 => some (viewNat 4 (pinnedKiB s.dict.values))
  | 0x300003 => some (viewNat 4 (sharedKiB s))
  | 0x300004 => some (viewNat 4 (residencyKiB s))
  | 0x300301 => some (.elems 8 12 0 s.cache.readBytes)
  | 0x300302 => some (.elems 8 12 0 s.cache.writeBytes)
  | 0x300303 => some (.elems 8 12 0 s.cache.activates)
  | 0x300304 => some (.elems 8 12 0 s.cache.turns)
  | 0x300305 => some (.elems 8 12 0 s.cache.refreshNs)
  | 0x300306 => some (.elems 1 12 1 s.cache.refreshRate)
  | 0x300401 => some (.elems 8 4 0 s.cache.hits)
  | 0x300402 => some (.elems 8 4 0 s.cache.misses)
  | 0x300403 => some (.elems 8 4 0 s.cache.evictions)
  | 0x300404 => some (viewNat 8 s.cache.runaheadFills)
  | 0x300405 => some (viewNat 8 s.cache.runaheadDropped)
  | 0x300502 => some (.elems 8 5 0 s.prot.corrected)
  | 0x300503 => some (.elems 8 5 0 s.prot.uncorrectable)
  | 0x300504 => some (.elems 8 5 0 s.prot.poisoned)
  | 0x300505 => some (.elems 8 5 0 s.prot.narrow)
  | 0x300506 => some (viewNat 8 s.prot.savedRepairs)
  | 0x300507 => some (viewNat 8 s.prot.reexecutions)
  | 0x300603 => some (.elems 8 5 0 s.prot.scrubPasses)
  | 0x300604 => some (.elems 16 64 0 (project 0 s.prot.scrubLog (fun e =>
      e.1 + e.2.1 * 2 ^ 48 + e.2.2.1 * 2 ^ 51 + e.2.2.2 * 2 ^ 64)))
  | 0x300605 => some (viewNat 1 s.prot.scrubNext)
  | 0x300701 => some (.bytes ((List.range 1920).map (fun i => BitVec.ofNat 8 (tsvSpares i - tabGet 0 s.stack.tsvUsed i))))
  | 0x300702 => some (.elems 8 1920 0 s.stack.tsvRepeats)
  | 0x300703 => some (.elems 1 1920 0 s.stack.interfaces)
  | 0x300704 => some (.elems 1 1536 0 s.stack.slices)
  | 0x300705 => some (.elems 2 1536 0xFFFF s.stack.proxies)
  | 0x300706 => some (.elems 1 384 0 s.stack.clusters)
  | 0x380001 => some (viewNat 4 1048576)
  | 0x380002 => some (viewNat 4 16384)
  | 0x380003 => some (viewNat 4 262144)
  | 0x380004 => some (viewNat 4 65536)
  | 0x380005 => some (viewNat 4 4194304)
  | 0x380201 => some (.elems 4 16 0 (project 0 s.cracker.channels (fun c => c.halt.toNat)))
  | 0x380202 => some (.elems 4 32 0 s.cracker.mergedRows)
  | 0x380301 => some (viewNat 8 s.cracker.sectorRequests)
  | 0x380302 => some (viewNat 8 s.cracker.shared)
  | 0x380303 => some (viewNat 8 s.cracker.batches)
  | 0x380304 => some (.elems 8 16 0 (project 0 s.cracker.channels (fun c => c.quotaHeld)))
  | 0x380305 => some (viewNat 4 s.cracker.peak)
  | 0x380306 => some (viewNat 8 s.cracker.runaheadDropped)
  | 0x380307 => some (viewNat 8 s.cracker.stagedRows)
  | 0x380308 => some (.elems 8 4 0 s.cracker.served)
  | _ => none

/-- Objects 0x40xx (Tables 1.4, 4.18, 6.14). -/
def viewTiles (s : State) (key : Nat) : Option View :=
  let per := fun (w : Nat) (f : Tile → Nat) => some (View.elems w 384 0 (project 0 s.tiles f))
  let stall := fun (e : Nat) => some (View.elems 8 4224 0 (spreadTab 11 s.tiles (fun t => tabSlice t.stalls (11 * e) (11 * e + 11))))
  match key with
  | 0x400001 => some (viewNat 2 s.stack.tileMap.length)
  | 0x400002 => some (viewNat 2 s.stack.spare.length)
  | 0x400003 => some (viewNat 2 s.stack.retired.length)
  | 0x400005 => some (viewList 2 ((List.range 384).map (fun n => s.stack.tileMap.getD n 0xFFFF)))
  | 0x400101 => per 1 (fun t => t.state)
  | 0x400102 => per 8 (fun t => t.wait.2 + t.wait.1 * 2 ^ 32)
  | 0x400103 => some (.elems 4 6144 0 (spreadTab 16 s.tiles (fun t => t.counters)))
  | 0x400104 => some (.elems 32 384 0 (project 0 s.tiles (fun t => match t.record with
      | some r => trapNat r.1 r.2
      | none => 0)))
  | 0x400105 => per 4 (fun t => t.trapCount)
  | 0x400106 => per 1 (fun t => natOfBool t.nonfinite)
  | 0x400201 => per 8 (fun t => t.matrixBusy)
  | 0x400202 => per 8 (fun t => t.matrixMacs)
  | 0x400203 => per 8 (fun t => t.vectorBusy)
  | 0x400204 => per 8 (fun t => t.vectorLanes)
  | 0x400205 => per 8 (fun t => t.streamBytes)
  | 0x400206 => per 8 (fun t => t.descriptors)
  | 0x400301 => stall 0
  | 0x400302 => stall 1
  | 0x400303 => stall 2
  | 0x400304 => stall 3
  | 0x400501 => some (.elems 4 1536 0 (spreadTab 4 s.tiles (fun t => t.halts)))
  | _ => none

/-- The record of a parameter group has its valid bit set (Table 5.1). -/
def groupListed (s : State) (g : Nat) : Bool :=
  bitAt (if g < 4096 then cfgAt s 0x481201 (128 * g) 2 else cfgAt s 0x481202 (128 * (g - 4096)) 2) 13

/-- Some parameter group is valid. -/
def anyGroup (s : State) : Bool :=
  (listedElems s.dict.values 0x481201).any (groupListed s) || (listedElems s.dict.values 0x481202).any (fun i => groupListed s (4096 + i))

/-- The ledger entries of valid groups: others read as zero (R146). -/
def validLedger (s : State) : Tab GroupLedger := s.train.ledger.filter (fun e => groupListed s e.1)

/-- Objects 0x48xx (Tables 3.9, 5.8). -/
def viewTraining (s : State) (key : Nat) : Option View :=
  match key with
  | 0x480002 => some (viewNat 1 (cfg s 0x480001))
  | 0x480006 => some (viewNat 1 (if s.train.started || anyGroup s then modeInForce s else 0))
  | 0x480101 => some (viewNat 1 s.train.history.scaleExp)
  | 0x480102 => some (viewNat 4 s.train.history.cleanSteps)
  | 0x480106 => some (viewNat 536 s.train.history.nat)
  | 0x481101 => some (viewNat 1 s.train.stepState)
  | 0x481103 => some (viewNat 4 s.train.localFault.toNat)
  | 0x481104 => some (viewNat 8 s.train.skipTotal)
  | 0x481105 => some (viewNat 4 s.train.skipRun)
  | 0x481106 => some (viewNat 8 s.train.overBoundSeen)
  | 0x481107 => some (viewNat 8 s.train.lastHeldRow)
  | 0x481301 => some (.elems 8 4128 0 (project 0 (validLedger s) (fun g => g.updateCount)))
  | 0x481302 => some (.elems 4 4128 0 (project 0 (validLedger s) (fun g => g.zeroRun)))
  | 0x481303 => some (.elems 4 4128 0 (project 0 (validLedger s) (fun g => g.uflowRun)))
  | 0x481304 => some (.elems 1 4128 0 (project 0 (validLedger s) (fun g => natOfBool g.silent)))
  | 0x481401 => some (viewNat 8 s.train.phaseStep)
  | 0x481402 => some (.elems 8 6 0 s.train.phaseNs)
  | _ => none

/-- Objects 0x50xx (Table 9.16). -/
def viewFabric (s : State) (key : Nat) : Option View :=
  match key with
  | 0x500002 => some (.elems 1 7 0 (project 0 s.fabric.ports (fun p => p.state)))
  | 0x500003 => some (.elems 32 7 0 (project 0 s.fabric.ports Port.nat))
  | 0x500201 => some (.elems 32784 s.fabric.groups.length 0 (s.fabric.groups.zipIdx.map (fun g => (g.2, g.1.nat))))
  | 0x500202 => some (viewNat 4 s.fabric.epoch)
  | 0x500401 => some (viewNat 4 s.fabric.logNext)
  | 0x500402 => some (viewNat 8 s.fabric.logTotal)
  | 0x500501 => some (.elems 8 7 0 s.fabric.flitsSent)
  | 0x500502 => some (.elems 8 7 0 s.fabric.flitsReceived)
  | 0x500503 => some (.elems 8 7 0 s.fabric.retries)
  | 0x500504 => some (.elems 8 63 0 s.fabric.fecCorrected)
  | 0x500505 => some (viewNat 8 s.fabric.detours)
  | 0x500506 => some (viewNat 8 s.fabric.resends)
  | 0x500507 => some (viewNat 8 s.fabric.ties)
  | _ => none

/-- Objects 0x58xx (Table 10.18). -/
def viewFrontEnd (s : State) (key : Nat) : Option View :=
  match key with
  | 0x580002 => some (.elems 1 2 0 s.front.portUp)
  | 0x580202 => some (.elems 1 1024 0 (project 0 s.front.conns (fun c => c.state)))
  | 0x580204 => some (.elems 4 1024 0 (project 0 s.front.conns (fun c => c.fault.toNat)))
  | 0x581101 => some (.elems 32 64 0 (project 0 s.front.queues Queue.nat))
  | 0x581102 => some (viewNat 8 s.front.doorbellOrdinal)
  | 0x581201 => some (.elems 8 2 0 s.front.writeBytes)
  | 0x581202 => some (.elems 8 2 0 s.front.readBytes)
  | 0x581203 => some (viewNat 8 s.front.flushReads)
  | 0x581204 => some (viewNat 8 s.front.flushWait)
  | 0x581205 => some (.elems 8 64 0 s.front.rereads)
  | 0x581206 => some (.elems 8 64 0 s.front.ignored)
  | 0x581207 => some (.elems 8 2 0 s.front.naks)
  | 0x581208 => some (viewList 8 ((List.range 2).map (fun p =>
      tabGet 0 s.front.cnpsSent p % 2 ^ 32 + tabGet 0 s.front.cnpsReceived p % 2 ^ 32 * 2 ^ 32)))
  | 0x581209 => some (.elems 8 2 0 s.front.egressBytes)
  | 0x58120A => some (viewNat 8 s.front.undelivered)
  | 0x58120B => some (viewNat 8 s.front.restarts)
  | _ => none

/-- Objects 0x60xx (Table 11.11). -/
def viewResilience (s : State) (key : Nat) : Option View :=
  match key with
  | 0x600003 => some (viewList 4 (s.resil.clients.map (fun c => c.toNat)))
  | 0x600202 => some (viewNat 1 s.resil.state)
  | 0x600203 => some (viewNat 64 (recoveryStatus s))
  | 0x600206 => some (.elems 1 384 0 (marks s.resil.remapped))
  | 0x600301 => some (viewNat 8 s.resil.gateWait)
  | 0x600302 => some (viewNat 8 s.resil.mirrorBytes)
  | 0x600303 => some (viewNat 8 s.resil.snapshotBytes)
  | 0x600304 => some (viewNat 8 s.resil.recoveries)
  | 0x600401 => some (viewList 1 ((List.range 384).map (fun c => if s.prot.spread.contains c then 0xFF else c % 32)))
  | 0x600501 => some (viewNat 32 (spareSummary s))
  | 0x600602 => some (viewNat 1 s.resil.twinState)
  | _ => none

/-- The view of an object that the state's records hold; none where the value store holds it. -/
def viewTyped (s : State) (key : Nat) : Option View :=
  match key / 2 ^ 19 with
  | 0x2 => viewDict s key
  | 0x3 => viewBoot s key
  | 0x4 => viewPower s key
  | 0x5 => viewPower s key
  | 0x6 => viewMemory s key
  | 0x7 => viewMemory s key
  | 0x8 => viewTiles s key
  | 0x9 => viewTraining s key
  | 0xA => viewFabric s key
  | 0xB => viewFrontEnd s key
  | 0xC => viewResilience s key
  | 0xD => viewDict s key
  | 0xE => viewBoot s key
  | _ => none

/-- What an object reads (R324), with the RW and RWS values taken from the store `t`. -/
def viewWith (s : State) (t : Tab Byte) (o : Obj) : View :=
  match viewTyped s o.key with
  | some v => v
  | none => .store (o.size * o.count) (tabSlice t (storeAt o.key 0) (storeAt (o.key + 1) 0))

/-- What an object reads now. -/
def viewOf (s : State) (o : Obj) : View := viewWith s s.dict.values o

/-- The length of a value in bytes. -/
def View.length : View → Nat
  | .bytes l => l.length
  | .elems w n _ _ => w * n
  | .store n _ => n
  | .digest _ _ => 32

/-- Bytes of a value of an object, in range. -/
def viewBytes (s : State) (key : Nat) (v : View) (off len : Nat) : List Byte :=
  match v with
  | .bytes l => (l.drop off).take len
  | .elems w _ d t => (List.range len).map (fun i =>
      BitVec.ofNat 8 (tabGet d t ((off + i) / w) / 256 ^ ((off + i) % w)))
  | .store _ t => (List.range len).map (fun i =>
      match tabFind t (off + i) with
      | some b => b
      | none => factoryByte key (off + i))
  | .digest t _ => ((configDigest t s.fabric.groups).drop off).take len

/-! ## Change ordinals and the end of a command -/

/-- The change ordinals after a command: one more for each object whose value differs (R328). -/
def bumpChanges (s s' : State) : Tab Nat :=
  objects.foldl (fun t o => if viewOf s o = viewOf s' o then t else tabCount t o.key 1) s'.dict.change

/-- The state with the change ordinals of the objects that differ from `s` counted up, and the free counter advanced. -/
def noteChanges (s s' : State) : State :=
  { s' with dict := { s'.dict with change := bumpChanges s s' }, free := s.free + 1 }

/-- A command has run: the state it leaves, with its change ordinals (R328) and the next free value (assumption 3). -/
def done (s s' : State) : Host.Outcome State Fault Refusal := .next (noteChanges s s')

/-- A command has restarted the module: ordinals start from 0 (R342), so nothing counts as a change. -/
def restarted (s s' : State) : Host.Outcome State Fault Refusal := .next { s' with free := s.free + 1 }

end Sys2Proof.Machine
end

