-- ==== Sys2Proof/Machine/Ops.lean ====
section
/-! DEFINITION. The operations shared by all commands: updates of one part of the state, outputs, and raising events (R338). -/

namespace Sys2Proof.Machine

open Sys2Proof

/-! ## Updates of one part of the state -/

/-- The state with its power part changed. -/
def State.onPower (s : State) (f : Power → Power) : State := { s with power := f s.power }
/-- The state with its start-up part changed. -/
def State.onBoot (s : State) (f : Boot → Boot) : State := { s with boot := f s.boot }
/-- The state with its flash changed. -/
def State.onFlash (s : State) (f : Flash → Flash) : State := { s with flash := f s.flash }
/-- The state with its dictionary part changed. -/
def State.onDict (s : State) (f : Dict → Dict) : State := { s with dict := f s.dict }
/-- The state with its cache part changed. -/
def State.onCache (s : State) (f : Cache → Cache) : State := { s with cache := f s.cache }
/-- The state with its protection part changed. -/
def State.onProt (s : State) (f : Protect → Protect) : State := { s with prot := f s.prot }
/-- The state with its stack part changed. -/
def State.onStack (s : State) (f : Stack → Stack) : State := { s with stack := f s.stack }
/-- The state with the Cracker changed. -/
def State.onCracker (s : State) (f : Cracker → Cracker) : State := { s with cracker := f s.cracker }
/-- The state with the training part changed. -/
def State.onTrain (s : State) (f : Training → Training) : State := { s with train := f s.train }
/-- The state with the fabric changed. -/
def State.onFabric (s : State) (f : Fabric → Fabric) : State := { s with fabric := f s.fabric }
/-- The state with the front-end changed. -/
def State.onFront (s : State) (f : FrontEnd → FrontEnd) : State := { s with front := f s.front }
/-- The state with the resilience part changed. -/
def State.onResil (s : State) (f : Resilience → Resilience) : State := { s with resil := f s.resil }

/-- Tile `n`. -/
def tileOf (s : State) (n : Nat) : Tile := tabGet Tile.idle s.tiles n
/-- Tile `n` changed. -/
def onTile (s : State) (n : Nat) (f : Tile → Tile) : State := { s with tiles := tabModify Tile.idle s.tiles n f }
/-- Cracker channel `c`. -/
def channelOf (s : State) (c : Nat) : Channel := tabGet Channel.idle s.cracker.channels c
/-- Cracker channel `c` changed. -/
def onChannel (s : State) (c : Nat) (f : Channel → Channel) : State :=
  s.onCracker (fun k => { k with channels := tabModify Channel.idle k.channels c f })
/-- The work of sweep binding `b`. -/
def bindingOf (s : State) (b : Nat) : BindingWork := tabGet BindingWork.none s.cracker.bindings b
/-- The work of sweep binding `b` changed. -/
def onBinding (s : State) (b : Nat) (f : BindingWork → BindingWork) : State :=
  s.onCracker (fun k => { k with bindings := tabModify BindingWork.none k.bindings b f })
/-- The work of group `g` in the step. -/
def workOf (s : State) (g : Nat) : GroupWork := tabGet GroupWork.none s.train.work g
/-- The work of group `g` changed. -/
def onWork (s : State) (g : Nat) (f : GroupWork → GroupWork) : State :=
  s.onTrain (fun t => { t with work := tabModify GroupWork.none t.work g f })
/-- The ledger of group `g`. -/
def ledgerOf (s : State) (g : Nat) : GroupLedger := tabGet GroupLedger.fresh s.train.ledger g
/-- The ledger of group `g` changed. -/
def onLedger (s : State) (g : Nat) (f : GroupLedger → GroupLedger) : State :=
  s.onTrain (fun t => { t with ledger := tabModify GroupLedger.fresh t.ledger g f })
/-- Peer port `p`. -/
def portOf (s : State) (p : Nat) : Port := tabGet Port.off s.fabric.ports p
/-- Peer port `p` changed. -/
def onPort (s : State) (p : Nat) (f : Port → Port) : State :=
  s.onFabric (fun k => { k with ports := tabModify Port.off k.ports p f })
/-- Connection `c`. -/
def connOf (s : State) (c : Nat) : Conn := tabGet Conn.reset s.front.conns c
/-- Connection `c` changed. -/
def onConn (s : State) (c : Nat) (f : Conn → Conn) : State :=
  s.onFront (fun k => { k with conns := tabModify Conn.reset k.conns c f })
/-- Queue `q`. -/
def queueOf (s : State) (q : Nat) : Queue := tabGet Queue.disabled s.front.queues q
/-- Queue `q` changed. -/
def onQueue (s : State) (q : Nat) (f : Queue → Queue) : State :=
  s.onFront (fun k => { k with queues := tabModify Queue.disabled k.queues q f })

/-- The supervisor of layer L0 holds Husk's handshakes (R32): what Husk's engines would do waits for the rail. -/
def huskStopped (s : State) : Bool := s.power.stopped.contains 0

/-- The state with one more output. -/
def emit (s : State) (o : Output) : State := { s with out := s.out ++ [o] }

/-! ## Events (R338) -/

/-- Append a code to the event log, or merge it into the newest entry. -/
def logEvent (s : State) (code : Code) (arg : Nat) : State :=
  let d := s.dict
  let newest := (d.eventNext + 255) % 256
  let pending := d.resiliencePending || decide (codeClass code = 8)
  match tabFind d.events newest with
  | some e =>
    if e.code = code ∧ e.argument = arg ∧ 0 < d.eventTotal then
      { s with dict := { d with events := tabInsert d.events newest { e with repeats := e.repeats + 1 },
                                resiliencePending := pending } }
    else
      { s with dict := { d with events := tabInsert d.events d.eventNext ⟨code, 0, currentStep s, d.eventTotal + 1, arg⟩,
                                eventNext := (d.eventNext + 1) % 256, eventTotal := d.eventTotal + 1,
                                resiliencePending := pending } }
  | none =>
    { s with dict := { d with events := tabInsert d.events d.eventNext ⟨code, 0, currentStep s, d.eventTotal + 1, arg⟩,
                              eventNext := (d.eventNext + 1) % 256, eventTotal := d.eventTotal + 1,
                              resiliencePending := pending } }

/-- Raise a code: into the event log, or, before start-up is over, into the events raised at phase 8 (R338, Table 14.7). -/
def raise (s : State) (code : Code) (arg : Nat) : State :=
  if s.boot.phase < 8 then s.onBoot (fun b => { b with held := b.held ++ [(code, arg)] }) else logEvent s code arg

end Sys2Proof.Machine
end

