-- ==== Sys2Proof/Machine/Wire.lean ====
section
/-! DEFINITION. The fabric's wires: flits (R222), credits and the replay buffer (R223, R224), packets (R230), routes and detours
(R227 to R229, R250), streams (R231), and the holding state with its notices (R288, R294). -/

namespace Sys2Proof.Machine

open Sys2Proof

/-! ## Node ids and routes (R227, R228) -/

/-- The module's torus position. -/
def ownPosition (s : State) : Nat := cfg s 0x500102 % 4096

/-- The module's node id: attach 7 at its own position. -/
def ownNode (s : State) : BitVec 24 := BitVec.ofNat 24 (ownPosition s + 7 * 2 ^ 12)

/-- The position of a node id. -/
def nodePosition (n : BitVec 24) : Nat := n.toNat % 4096

/-- The attach field of a node id: 7 for a Henelo module. -/
def nodeAttach (n : BitVec 24) : Nat := bitsAt n.toNat 12 3

/-- Coordinate `d` of a position. -/
def coord (p d : Nat) : Nat := p / 16 ^ d % 16

/-- The extent of dimension `d`. -/
def extent (s : State) (d : Nat) : Nat := bitsAt (cfg s 0x500101) (4 * d) 4 + 1

/-- The way from `own` to `dest` in dimension `d`: none when there, else whether it goes plus. Ties go plus. -/
def stepWay (s : State) (own dest d : Nat) : Option Bool :=
  let e := extent s d
  let delta := (coord dest d + e - coord own d % e) % e
  if delta = 0 then none else some (decide (2 * delta ≤ e))

/-- The port of dimension `d` in a direction. -/
def portToward (d : Nat) (plus : Bool) : Nat := 2 * d + (if plus then 0 else 1)

/-- The dimension-order port toward another position; a detoured packet that came in by a dimension does not go back through it
while another is left (R229). -/
def dimensionPort (s : State) (dest : Nat) (avoid : Option Nat) : Option Nat :=
  let ports := [0, 1, 2].filterMap (fun d => (stepWay s (ownPosition s) dest d).map (portToward d))
  match ports.find? (fun p => decide (some (p / 2) ≠ avoid.map (· / 2))) with
  | some p => some p
  | none => ports.head?

/-- A port is up, at full or half width. -/
def portUp (s : State) (p : Nat) : Bool := decide (2 ≤ (portOf s p).state)

/-- The link version of a port's mode (Table 9.2). -/
def modeVersion (mode : Nat) : Nat := if mode = 1 then 3 else if mode = 2 then 2 else if mode = 3 then 1 else 0

/-- A port may carry traffic for another position: not in mode 2 or 3 (R228). -/
def portTransit (s : State) (p : Nat) : Bool := decide (cfgElem s 0x500001 p ≤ 1)

/-- Where a packet goes from here. -/
inductive Way where
  | here
  | port (p : Nat)
  | none
  deriving DecidableEq, Repr

/-- The output of a packet before detours: override, dimension order, the attach port, or here (R228); the twin port carries
nothing but what goes to the partner, whatever an override says (R250). -/
def wayOf (s : State) (dst : BitVec 24) (avoid : Option Nat) : Way :=
  let dest := nodePosition dst
  if dest = ownPosition s then
    if nodeAttach dst = 7 then .here else .port (nodeAttach dst)
  else
    let o := cfgElem s 0x500103 dest
    if o ≠ 0xFF ∧ (o = 6 → cfg s 0x500104 = dst.toNat) then .port o
    else match dimensionPort s dest avoid with
      | some p => .port p
      | Option.none => .none

/-- The detour ports for a port in dimension `d` (R229). -/
def detourPorts (d : Nat) : List Nat :=
  if d = 0 then [2, 3, 4, 5] else if d = 1 then [4, 5, 0, 1] else [0, 1, 2, 3]

/-- A hop through a port crosses the dateline (R228). -/
def crossesDateline (s : State) (p : Nat) : Bool :=
  if 6 ≤ p then false
  else
    let d := p / 2
    let x := coord (ownPosition s) d
    if p % 2 = 0 then decide (x + 1 = extent s d) else decide (x = 0)

/-! ## Packets and flits (R222, R230) -/

/-- The 64 header bytes of a packet (Table 9.7). -/
def headerBytes (p : Packet) : List Byte :=
  bytesOfNat 64
    (p.ptype + p.cls * 2 ^ 4 + natOfBool p.detoured * 2 ^ 6 + natOfBool p.flagOr * 2 ^ 7 + p.dst.toNat * 2 ^ 8
      + p.src.toNat * 2 ^ 32 + p.comm * 2 ^ 56 + p.streamSeq.toNat * 2 ^ 64 + p.step * 2 ^ 96 + p.srcSlot * 2 ^ 160
      + p.dstSlot * 2 ^ 172 + p.group * 2 ^ 184 + p.fmt * 2 ^ 197 + natOfBool p.deferred * 2 ^ 201
      + natOfBool p.reverse * 2 ^ 202 + p.payload.length * 2 ^ 203 + p.elemOffset * 2 ^ 216 + p.collId * 2 ^ 256
      + p.epoch * 2 ^ 288 + p.arg.toNat * 2 ^ 320)

/-- The packet that a header number and payload bytes with poison marks give. -/
def packetOf (v : Nat) (payload : List (Byte × Bool)) : Packet where
  ptype := bitsAt v 0 4
  cls := bitsAt v 4 2
  detoured := bitAt v 6
  flagOr := bitAt v 7
  dst := BitVec.ofNat 24 (bitsAt v 8 24)
  src := BitVec.ofNat 24 (bitsAt v 32 24)
  comm := bitsAt v 56 8
  streamSeq := BitVec.ofNat 32 (bitsAt v 64 32)
  step := bitsAt v 96 64
  srcSlot := bitsAt v 160 12
  dstSlot := bitsAt v 172 12
  group := bitsAt v 184 13
  fmt := bitsAt v 197 4
  deferred := bitAt v 201
  reverse := bitAt v 202
  elemOffset := bitsAt v 216 40
  collId := bitsAt v 256 32
  epoch := bitsAt v 288 32
  arg := BitVec.ofNat 64 (bitsAt v 320 64)
  payload := (payload.take (bitsAt v 203 13)).map (fun x => x.1)
  poison := ((payload.take (bitsAt v 203 13)).zipIdx.filterMap (fun x => if x.1.2 ∧ x.2 % 8 = 0 then some (x.2 / 8) else Option.none))

/-- Bytes filled up with zeros to a length. -/
def padTo (n : Nat) (l : List Byte) : List Byte := l ++ List.replicate (n - l.length) 0

/-- A link header (Table 9.5). -/
structure LinkHeader where
  pos : Nat
  valid : Bool
  abort : Bool
  vc : Nat
  seq : Nat
  ack : Nat
  nak : Bool
  probe : Bool
  creditVc : Nat
  creditCount : Nat
  version : Nat
  deriving DecidableEq, Repr

/-- The link header word. -/
def LinkHeader.nat (h : LinkHeader) : Nat :=
  h.pos + natOfBool h.valid * 2 ^ 2 + natOfBool h.abort * 2 ^ 3 + h.vc * 2 ^ 4 + h.seq * 2 ^ 8 + h.ack * 2 ^ 20
    + natOfBool h.nak * 2 ^ 32 + natOfBool h.probe * 2 ^ 33 + h.creditVc * 2 ^ 34 + h.creditCount * 2 ^ 38 + h.version * 2 ^ 46

/-- The link header that a word holds. -/
def linkHeaderOf (v : Nat) : LinkHeader :=
  ⟨bitsAt v 0 2, bitAt v 2, bitAt v 3, bitsAt v 4 4, bitsAt v 8 12, bitsAt v 20 12, bitAt v 32, bitAt v 33, bitsAt v 34 4,
    bitsAt v 38 8, bitsAt v 46 2⟩

/-- The check byte of a word, with the poison mark of R194 where asked. -/
def checkByte (d : Word64) (poison : Bool) : Byte := if poison then eccCheck d ^^^ 0xFF else eccCheck d

/-- The 256 bytes of a flit (Table 9.4). -/
def flitBytes (h : LinkHeader) (payload : List Byte) (poison : NatSet) : List Byte :=
  let head := bytesOfNat 8 h.nat
  let body := padTo 216 payload
  let checks := (wordsOfBytes 27 body).zipIdx.map (fun w => checkByte w.1 (poison.contains w.2))
  let covered := head ++ body ++ checks ++ [checkByte (BitVec.ofNat 64 h.nat) false]
  covered ++ bytesOfNat 4 (crc32 covered).toNat

/-- The words of a part of a packet that are poisoned, counted from word `lo`, `n` of them. -/
def poisonFrom (poison : NatSet) (lo n : Nat) : NatSet :=
  poison.filterMap (fun w => if lo ≤ w ∧ w < lo + n then some (w - lo) else Option.none)

/-- Body and tail flits of the rest of a packet: `n` of them from word `lo` of the packet. -/
def bodyFlits (vc : Nat) (ends : BitVec 24 × BitVec 24) (packet : Nat) (poison : NatSet) : Nat → Nat → List Byte → List OutFlit
  | 0, _, _ => []
  | n + 1, lo, l =>
    ⟨vc, if n = 0 then 3 else 2, false, l.take 216, poisonFrom poison lo 27, ends, packet, none⟩ ::
      bodyFlits vc ends packet poison n (lo + 27) (l.drop 216)

/-- The flits of a packet with a number on a virtual channel (R230). -/
def packetFlits (vc packet : Nat) (p : Packet) : List OutFlit :=
  let bytes := headerBytes p ++ p.payload
  let poison := p.poison.map (· + 8)
  let rest := (bytes.length - 216 + 215) / 216
  ⟨vc, if rest = 0 then 0 else 1, false, bytes.take 216, poisonFrom poison 0 27, (p.src, p.dst), packet, none⟩
    :: bodyFlits vc (p.src, p.dst) packet poison rest 27 (bytes.drop 216)

/-- An idle flit of a port: acknowledgement, nak and credits (Table 9.5). -/
def idleFlit (s : State) (port : Nat) (nak : Bool) (creditVc creditCount : Nat) : State :=
  let p := portOf s port
  let h : LinkHeader := ⟨0, false, false, 0, 0, p.rxLast, nak, false, creditVc, creditCount, modeVersion (cfgElem s 0x500001 port)⟩
  emit s (.flit port (flitBytes h [] []))

/-! ## The input buffer (R223) -/

/-- Flits that a port's input buffer holds for a virtual channel: of packets being gathered, of packets that no command has taken,
of held ones, and of those that wait for another port's credits. -/
def bufferedFlits (s : State) (port vc : Nat) : Nat :=
  let here := fun (r : InputRoom) => if r.port = port ∧ r.vc = vc then r.flits else 0
  (((portOf s port).assembling.filter (fun x => x.1 == vc)).foldl (fun n x => n + x.2.length / 216) 0) +
    s.fabric.rooms.foldl (fun n x => n + here x.2) 0 +
    s.fabric.reroute.foldl (fun n x => n + (x.room.map here).getD 0) 0 +
    s.fabric.ports.foldl (fun n (e : Nat × Port) => n + (e.2.outbox.filter (fun f => f.slot == some (port, vc))).length) 0

/-- Flits that a virtual channel of a port has been given: those in the buffer and those that the partner holds credits for. -/
def givenFlits (s : State) (port vc : Nat) : Nat := bufferedFlits s port vc + tabGet 0 (portOf s port).granted vc

/-- Flits of a port's 1,024 that are held for its virtual channels or given to them: 8 each at least. -/
def takenFlits (s : State) (port : Nat) : Nat := (List.range 16).foldl (fun n vc => n + max 8 (givenFlits s port vc)) 0

/-- The credits that a port returns for a virtual channel: those that bring it back to its 8 flits, and, for a flit that has
arrived, one of the rest while some of it is not lent (R223; how much is lent to which channel is the model's choice, DESIGN
CHOICE, assumption 69). -/
def creditsFor (s : State) (port vc : Nat) (arrived : Bool) : Nat :=
  let given := givenFlits s port vc
  if given < 8 then 8 - given else if arrived ∧ takenFlits s port < 1024 then 1 else 0

/-- Answer a flit that has arrived: its acknowledgement with the credits for its virtual channel. -/
def answerFlit (s : State) (port vc : Nat) : State :=
  let n := creditsFor s port vc true
  idleFlit (onPort s port (fun p => { p with granted := tabCount p.granted vc n })) port false vc n

/-- Flits have left the input buffer of a port: the credits that this brings are returned. -/
def returnCredits (s : State) (port vc : Nat) : State :=
  let n := creditsFor s port vc false
  if n = 0 ∨ (portOf s port).state < 2 then s
  else idleFlit (onPort s port (fun p => { p with granted := tabCount p.granted vc n })) port false vc n

/-- A delivered packet is taken or discarded: it leaves the list, and the room that it fills is free (R223). -/
def removeDelivered (s : State) (p : Packet) : State :=
  let s1 := s.onFabric (fun f => { f with delivered := f.delivered.erase p })
  match s.fabric.rooms.find? (fun x => x.1 == p) with
  | some x => returnCredits (s1.onFabric (fun f => { f with rooms := f.rooms.erase x })) x.2.port x.2.vc
  | none => s1

/-! ## Sending flits (R223, R224, R230) -/

/-- The first flit of a port's outbox that may be sent: there is a credit for its virtual channel, the channel is not in the
middle of another packet, and no flit of the same channel and packet, nor, for a head, of the same channel, waits before it. -/
def nextFlit (p : Port) : List OutFlit → List OutFlit → Option (OutFlit × List OutFlit)
  | _, [] => none
  | before, f :: rest =>
    let mine : Bool := match tabFind p.openOut f.vc with
      | some n => decide (n = f.packet + 1) && before.all (fun g => !decide (g.vc = f.vc ∧ g.packet = f.packet))
      | none => decide (f.pos ≤ 1) && before.all (fun g => decide (g.vc ≠ f.vc))
    if mine = true ∧ 0 < tabGet 0 p.credits f.vc then some (f, before ++ rest) else nextFlit p (before ++ [f]) rest

/-- Send one flit of a port. -/
def sendFlit (s : State) (port : Nat) (f : OutFlit) : State :=
  let p := portOf s port
  let h : LinkHeader := ⟨f.pos, true, f.abort, f.vc, p.txSeq, p.rxLast, false, false, 0, 0, modeVersion (cfgElem s 0x500001 port)⟩
  let bytes := flitBytes h f.payload f.poison
  let s1 := onPort s port (fun p => { p with
    txSeq := (p.txSeq + 1) % 4096
    replay := p.replay ++ [⟨p.txSeq, bytes, some f.ends⟩]
    credits := tabModify 0 p.credits f.vc (· - 1)
    openOut := if f.pos = 1 ∧ f.abort = false then tabInsert p.openOut f.vc (f.packet + 1)
      else if f.pos = 2 then p.openOut else tabErase p.openOut f.vc })
  let s2 := emit (s1.onFabric (fun k => { k with flitsSent := tabCount k.flitsSent port 1 })) (.flit port bytes)
  match f.slot with
  | some (q, vc) => returnCredits s2 q vc
  | none => s2

/-- Send flits of a port's outbox, `n` at most, while the replay buffer has room for one. -/
def pump : Nat → State → Nat → State
  | 0, s, _ => s
  | n + 1, s, port =>
    let p := portOf s port
    if p.state < 2 ∨ 1280 ≤ p.replay.length then s
    else match nextFlit p [] p.outbox with
      | some (f, rest) => pump n (sendFlit (onPort s port (fun p => { p with outbox := rest })) port f) port
      | none => s

/-- Send what a port's outbox can send. -/
def pumpPort (s : State) (port : Nat) : State := pump (portOf s port).outbox.length s port

/-- Put flits in a port's outbox. -/
def queueFlits (s : State) (port : Nat) (l : List OutFlit) : State :=
  pumpPort (onPort s port (fun q => { q with outbox := q.outbox ++ l })) port

/-! ## Routes (R228, R229, R250) -/

/-- What becomes of a packet here: delivered, put on a port and virtual channel, with or without a detour, or held. -/
inductive Route where
  | deliver
  | out (port vc : Nat) (detour : Bool)
  | hold
  deriving DecidableEq, Repr

/-- The virtual channel of a packet on a port: class in bits 1..0, dateline in bit 2, layer in bit 3 (R223). A hop to an older
part at its attach port crosses no dateline, and modes 2 and 3 have no layer 1 (R249). -/
def outChannel (s : State) (p : Packet) (port : Nat) (dateline detoured : Bool) : Nat :=
  let crossing := decide (nodePosition p.dst ≠ ownPosition s) && (dateline || crossesDateline s port)
  p.cls + natOfBool crossing * 4 + natOfBool (detoured && portTransit s port) * 8

/-- A packet takes the twin port: MIRROR and MIRROR_ACK between the partners, and anything for the partner whose own way is not up
(R250). -/
def twinPort (s : State) (p : Packet) (normal : Way) : Bool :=
  decide (cfg s 0x500104 = p.dst.toNat ∧ nodePosition p.dst ≠ ownPosition s) && portUp s 6 &&
    (decide (p.src = ownNode s ∧ (p.ptype = 0xA ∨ p.ptype = 0xB)) || (match normal with
      | .port q => !portUp s q
      | _ => false))

/-- The route of a packet from here: its port, one detour, or the reroute queue (R228, R229). `arrival` is the port it came in by
with its dateline bit. -/
def routeOf (s : State) (p : Packet) (arrival : Option (Nat × Bool)) : Route :=
  let way := wayOf s p.dst (if p.detoured then arrival.map (fun a => a.1) else Option.none)
  if twinPort s p way then .out 6 p.cls false
  else
    match way with
    | .here => .deliver
    | .none => .hold
    | .port q =>
      let same := match arrival with
        | some a => a.2 && decide (a.1 / 2 = q / 2)
        | Option.none => false
      if portUp s q ∧ (portTransit s q ∨ nodePosition p.dst = ownPosition s) then .out q (outChannel s p q same p.detoured) false
      else if p.detoured ∨ nodePosition p.dst = ownPosition s then .hold
      else
        match (detourPorts (q / 2)).find? (fun r => portUp s r && portTransit s r) with
        | some r => .out r (outChannel s p r false true) true
        | Option.none => .hold

/-- A packet that takes a detour is counted. -/
def countDetour (s : State) (detour : Bool) : State :=
  if detour then s.onFabric (fun k => { k with detours := k.detours + 1 }) else s

/-- Put a whole packet on a port. -/
def putOnPort (s : State) (p : Packet) (port vc : Nat) : State :=
  queueFlits (s.onFabric (fun k => { k with nextPacket := k.nextPacket + 1 })) port (packetFlits vc s.fabric.nextPacket p)

/-- Packets that the reroute queue holds (R229). -/
def rerouteSize : Nat := 4096

/-- Hold a packet in the reroute queue and raise its code; beyond the queue's size it keeps its room in the input buffer (R229). -/
def holdReroute (s : State) (p : Packet) (arrival : Option (Nat × Bool)) (room : Option InputRoom) : State :=
  let full := decide (rerouteSize ≤ s.fabric.reroute.length)
  raise (s.onFabric (fun k => { k with reroute := k.reroute ++ [⟨p, arrival, if full then room else none⟩] })) 0x030A0906 (nodePosition p.dst)

/-- Send a whole packet on its way from here. -/
def forwardFrom (s : State) (p : Packet) (arrival : Option (Nat × Bool)) (room : Option InputRoom) : State :=
  match routeOf s p arrival with
  | .deliver => s.onFabric (fun k => { k with
      delivered := k.delivered ++ [p]
      rooms := k.rooms ++ (room.map (fun r => (p, r))).toList })
  | .hold => holdReroute s p arrival room
  | .out q vc detour => putOnPort (countDetour s detour) { p with detoured := p.detoured || detour } q vc

/-- Send a packet that fills no input buffer on its way. -/
def forward (s : State) (p : Packet) (arrival : Option (Nat × Bool)) : State := forwardFrom s p arrival none

/-- The packets of the reroute queue that have a way now leave it, as when a port returns or an override is set; those that come
within its size then give back their room (R229). -/
def releaseReroute (s : State) : State :=
  let s1 := s.fabric.reroute.foldl (fun (t : State) (h : HeldPacket) =>
      match routeOf t h.packet h.arrival with
      | .hold => t.onFabric (fun k => { k with reroute := k.reroute ++ [h] })
      | _ => forward t h.packet h.arrival)
    (s.onFabric (fun k => { k with reroute := [] }))
  let inside := s1.fabric.reroute.take rerouteSize
  let s2 := s1.onFabric (fun k => { k with reroute := inside.map (fun h => { h with room := none }) ++ k.reroute.drop rerouteSize })
  (s.fabric.reroute.filterMap (fun h => h.room)).foldl (fun t r => returnCredits t r.port r.vc) s2

/-! ## Streams (R231) -/

/-- Packet types that streams do not number: ACK and PATH_NOTICE. -/
def unsequenced (ptype : Nat) : Bool := decide (ptype = 5 ∨ ptype = 6)

/-- The sender's side of a stream. -/
def txOf (s : State) (k : StreamKey) : TxStream :=
  (s.fabric.tx.find? (fun t => decide (t.key = k))).getD ⟨k, 0, []⟩

/-- Change the sender's side of a stream. -/
def setTx (s : State) (t : TxStream) : State :=
  s.onFabric (fun k => { k with tx := k.tx.filter (fun u => decide (u.key ≠ t.key)) ++ [t] })

/-- The receiver's side of a stream. -/
def rxOf (s : State) (k : StreamKey) : RxStream :=
  (s.fabric.rx.find? (fun t => decide (t.key = k))).getD ⟨k, 0, 0⟩

/-- Change the receiver's side of a stream. -/
def setRx (s : State) (t : RxStream) : State :=
  s.onFabric (fun k => { k with rx := k.rx.filter (fun u => decide (u.key ≠ t.key)) ++ [t] })

/-- The key of the stream a packet travels in. -/
def streamKeyOf (p : Packet) : StreamKey := ⟨p.src, p.dst, p.cls, p.comm⟩

/-- Bytes of the retransmit store (Table 9.9). -/
def retransmitBytes : Nat := 0x10000000

/-- Bytes that the retransmit store holds: every packet not yet acknowledged, with its header. -/
def storeUsed (s : State) : Nat :=
  s.fabric.tx.foldl (fun n t => n + t.unacked.foldl (fun m p => m + 64 + p.payload.length) 0) 0

/-- The retransmit store has room for a packet (R233). -/
def storeRoom (s : State) (p : Packet) : Bool := decide (storeUsed s + 64 + p.payload.length ≤ retransmitBytes)

/-- Send a packet in its stream, kept until acknowledged (R231). -/
def sendStream (s : State) (p : Packet) : State :=
  let t := txOf s (streamKeyOf p)
  let q := { p with streamSeq := BitVec.ofNat 32 t.next, epoch := s.fabric.epoch }
  forward (setTx s { t with next := t.next + 1, unacked := t.unacked ++ [q] }) q Option.none

/-- Send a packet of this module: to itself at once; to a Henelo node in its stream, once the retransmit store has room and no
packet waits for it already; to an older member without a stream (R231 to R233). -/
def sendPacket (s : State) (p : Packet) : State :=
  let p := { p with src := ownNode s, epoch := s.fabric.epoch }
  if p.dst = ownNode s then s.onFabric (fun k => { k with delivered := k.delivered ++ [p] })
  else if unsequenced p.ptype ∨ nodeAttach p.dst ≠ 7 then forward s p Option.none
  else if s.fabric.toSend = [] ∧ storeRoom s p then sendStream s p
  else s.onFabric (fun k => { k with toSend := k.toSend ++ [p] })

/-- The packets that wait for the retransmit store go out, `n` at most, as far as it has room (R233). -/
def drainSend : Nat → State → State
  | 0, s => s
  | n + 1, s =>
    match s.fabric.toSend with
    | [] => s
    | p :: rest => if storeRoom s p then drainSend n (sendStream (s.onFabric (fun k => { k with toSend := rest })) p) else s

/-- A packet of a type with its class (Table 9.8) and nothing else set. -/
def blankPacket (ptype : Nat) (dst : BitVec 24) : Packet where
  ptype := ptype
  cls := if ptype = 1 ∨ ptype = 7 then 1 else if ptype = 8 ∨ ptype = 0xA then 2 else if ptype = 9 ∨ ptype = 0xB then 3 else 0
  detoured := false
  flagOr := false
  dst := dst
  src := 0
  comm := 0
  streamSeq := 0
  step := 0
  srcSlot := 0
  dstSlot := 0
  group := 0x1FFF
  fmt := 0
  deferred := false
  reverse := false
  elemOffset := 0
  collId := 0
  epoch := 0
  arg := 0
  payload := []
  poison := []

/-! ## Communication groups (R234, R236) -/

/-- A communication group in force. -/
def commGroup (s : State) (n : Nat) : Option CommGroup := s.fabric.groups.find? (fun g => g.number == n)

/-- The member of a slot. -/
def memberAt (g : CommGroup) (slot : Nat) : Option Member := g.members[slot]?

/-- The node id of the group's root. -/
def rootNode (g : CommGroup) : BitVec 24 :=
  match memberAt g g.root with
  | some m => m.node
  | Option.none => 0

/-- The module's own slot in a group. -/
def ownSlot (s : State) (g : CommGroup) : Option Nat := g.members.findIdx? (fun m => decide (m.node = ownNode s))

/-- job_group (0x6000.06). -/
def jobGroup (s : State) : Nat := cfg s 0x600006

/-- A CONTROL packet of a subtype (Table 13.5). -/
def controlPacket (s : State) (dst : BitVec 24) (comm subtype : Nat) (body : List Byte) : Packet :=
  { blankPacket 0xC dst with comm := comm, step := currentStep s, payload := bytesOfNat 8 subtype ++ body }

/-! ## Holding (R288, R289, R294, R8) -/

/-- Enter the holding state from running (Table 11.9). -/
def enterHolding (s : State) : State :=
  if s.resil.state = 0 then s.onResil (fun r => { r with state := 1 }) else s

/-- A condition of R7 fails: stopped (R8, Table 11.9). -/
def stopModule (s : State) : State := s.onResil (fun r => { r with state := 6 })

/-- The communication groups whose roots a hold notice goes to: the job group and every group with a collective open (R294). -/
def noticeGroups (s : State) : List Nat :=
  s.fabric.colls.foldl (fun l c => if c.done then l else setAdd l c.key.comm) [jobGroup s]

/-- Send hold notices of the current step (R294). -/
def sendHoldNotices (s : State) : State :=
  (noticeGroups s).foldl (fun s n =>
    match commGroup s n with
    | some g =>
      let slot := (ownSlot s g).getD 0
      sendPacket s (controlPacket s (rootNode g) n 8 (bytesOfNat 8 (currentStep s) ++ bytesOfNat 4 slot ++ bytesOfNat 4 s.fabric.epoch))
    | Option.none => s) s

/-- The header of a saved record (Table 11.6). -/
def recordHeader (kind slot epoch step fromStep group : Nat) (digest : List Byte) : List Byte :=
  bytesOfNat 32 (kind + slot * 2 ^ 8 + epoch * 2 ^ 32 + step * 2 ^ 64 + fromStep * 2 ^ 128 + group * 2 ^ 192) ++ digest

/-- The twin partner's node (0x5001.04). -/
def twinPartnerNode (s : State) : BitVec 24 := BitVec.ofNat 24 (cfg s 0x500104)

/-- A MIRROR packet of the pair: kind 0x10 digest, 0x11 leave, 0x12 evict in the place of a record's kind (DESIGN CHOICE,
assumption 11). -/
def twinPacket (s : State) (kind : Nat) (body : List Byte) : Packet :=
  { blankPacket 0xA (twinPartnerNode s) with
    step := currentStep s
    payload := recordHeader kind 0 s.fabric.epoch (currentStep s) (currentStep s) 0x1FFF (shake256 body 32) ++ body }

/-- This module is one of a pair that runs in lock step (R301). -/
def paired (s : State) : Bool := decide (cfg s 0x600601 ≠ 0 ∧ s.resil.twinState = 0)

/-- The module leaves its pair for a step whose cut it withholds (R303). -/
def leavePair (s : State) : State :=
  if paired s then sendPacket (s.onResil (fun r => { r with twinState := 2 })) (twinPacket s 0x11 []) else s

/-- Withhold the staging cut of the current step: hold, and send the notices once (R294); a twin leaves its pair instead of
sending its digest (R303). After the cut the module commits no step and holds (R142). -/
def withholdCut (s : State) : State :=
  if s.train.cut then enterHolding (s.onTrain (fun t => { t with lateFault := true }))
  else if s.train.withheld then s
  else leavePair (sendHoldNotices (enterHolding (s.onTrain (fun t => { t with withheld := true }))))

/-- A poison escape in the current step (R203, R204): raised at the first of the step, the cut withheld and counted; when the step
is being re-executed after an escape, the second code and R8. -/
def poisonEscape (s : State) : State :=
  if s.train.escape then s
  else
    let s1 := s.onTrain (fun t => { t with escape := true })
    if s.train.escapedStep = some (currentStep s) then stopModule (raise s1 0x08000805 0)
    else
      let s2 := raise s1 0x08000804 (currentStep s)
      let s3 := if s.train.cut then s2 else s2.onProt (fun p => { p with reexecutions := p.reexecutions + 1 })
      withholdCut s3

end Sys2Proof.Machine
end

