-- ==== Sys2Proof/Machine/Memory.lean ====
section
/-! DEFINITION. Memory: decoding addresses (R20 to R26), reading and writing protected memory with its code, poison and narrow
merges (R193 to R206), accumulator banks and the status mirror (R269). -/

namespace Sys2Proof.Machine

open Sys2Proof

/-! ## The address map (R20 to R26) -/

/-- The ranges of Table 1.10. -/
inductive Region where
  | hbm
  | pinned
  | tileStore
  | doorbell
  | mirror
  | hazel
  deriving DecidableEq, Repr

/-- First address of the pinned cache window. -/
def pinnedBase : Nat := 0x010000000000
/-- First address of the tile stores. -/
def tileBase : Nat := 0x020000000000
/-- First address of the doorbell pages. -/
def doorbellBase : Nat := 0x030000000000
/-- First address of the status mirror. -/
def mirrorBase : Nat := 0x030010000000
/-- First address of Hazel's range. -/
def hazelBase : Nat := 0x040000000000
/-- The end of the HBM range. -/
def hbmEnd : Nat := 0x00C000000000

/-- The range of Table 1.10 in which an address lies. -/
def regionOf (a : Nat) : Option Region :=
  if a < hbmEnd then some .hbm
  else if pinnedBase ≤ a ∧ a < 0x010280000000 then some .pinned
  else if tileBase ≤ a ∧ a < 0x020030000000 then some .tileStore
  else if doorbellBase ≤ a ∧ a < 0x030000040000 then some .doorbell
  else if mirrorBase ≤ a ∧ a < 0x030011000000 then some .mirror
  else if hazelBase ≤ a ∧ a < 2 ^ 48 then some .hazel
  else none

/-- Table 1.11: may the initiator make this access in the range? -/
def permitted (who : Initiator) (r : Region) (write : Bool) : Bool :=
  match who, r with
  | .hazel, _ => true
  | _, .hbm => true
  | _, .pinned => true
  | .pip _, .tileStore => true
  | .cracker _, .tileStore => write
  | .remote _, .tileStore => true
  | .acorn, .tileStore => !write
  | .remote _, .doorbell => write
  | .remote _, .mirror => !write
  | _, _ => false

/-- The block of Table 1.13 that an initiator is. -/
def initiatorBlock : Initiator → Nat
  | .pip _ => 4
  | .cracker _ => 9
  | .remote _ => 0x0C
  | .acorn => 0x0E
  | .hazel => 0x0F

/-- logical_tiles in force. -/
def logicalTiles (s : State) : Nat := cfg s 0x400004

/-- The valid pinned partitions in force. -/
def pinnedNow (s : State) : List Pinned := (pinnedIn s.dict.values).map (fun e => e.2)

/-- The partition that covers a pinned-window offset. -/
def pinnedAt (l : List Pinned) (off : Nat) : Option Pinned :=
  l.find? (fun p => decide (p.start ≤ off ∧ off < p.start + p.bytes))

/-- The detail of Table 1.12 for one byte, if the access to it is forbidden. Where a byte fails two of the table's rows the spec
does not say which is reported: the model's choice is the first in the table's order, so 0x0103 before 0x0104 and the mapping
before 0x0106 (DESIGN CHOICE, assumption 60). -/
def byteDetail (s : State) (who : Initiator) (write : Bool) (a : Nat) : Option Nat :=
  if 2 ^ 48 ≤ a then some 0x0101
  else
    match regionOf a with
    | none => some 0x0102
    | some r =>
      if r = .tileStore ∧ logicalTiles s ≤ (a - tileBase) / 0x200000 then some 0x0103
      else if r = .tileStore ∧ 0x180000 ≤ (a - tileBase) % 0x200000 then some 0x0104
      else if r = .pinned ∧ pinnedAt (pinnedNow s) (a - pinnedBase) = none then some 0x0105
      else if permitted who r write then none else some 0x0106

/-- The end of the run of mapped addresses that starts at `a`, following adjoining pinned partitions at most `fuel` times. -/
def mappedEnd (l : List Pinned) : Nat → Nat → Nat
  | 0, a => a
  | n + 1, a =>
    match regionOf a with
    | some .hbm => hbmEnd
    | some .pinned =>
      match pinnedAt l (a - pinnedBase) with
      | some p => if p.bytes = 0 then a else mappedEnd l n (pinnedBase + p.start + p.bytes)
      | none => a
    | some .tileStore => tileBase + (a - tileBase) / 0x200000 * 0x200000 + 0x180000
    | some .doorbell => 0x030000040000
    | some .mirror => 0x030011000000
    | some .hazel => 2 ^ 48
    | none => a

/-- The detail of Table 1.12 of the lowest byte of an access that is forbidden (R26); none: the access is permitted. -/
def accessDetail (s : State) (who : Initiator) (write : Bool) (a len : Nat) : Option Nat :=
  if len = 0 then none
  else
    match byteDetail s who write a with
    | some d => some d
    | none =>
      let e := mappedEnd (pinnedNow s) 65 a
      if a + len ≤ e then none
      else match byteDetail s who write e with
        | some d => some d
        | none => some 0x0102

/-! ## Protection attributes (R197, R200) -/

/-- The store whose counters count a word (R217): a line of the HBM range that its home slice holds counts under 2. -/
def storeOf (s : State) (a : Nat) : Nat :=
  match regionOf a with
  | some .hbm => if s.cache.sets.any (fun e => e.2.any (fun l => decide (l.line = a / 64))) then 2 else 3
  | some .pinned => 2
  | some .tileStore => 0
  | _ => 4

/-- Detect regions in force: base and size. -/
def detectRegions (s : State) : List (Nat × Nat) :=
  (listedElems s.dict.values 0x300501).filterMap (fun i =>
    let v := cfgElem s 0x300501 i
    if bitAt v 104 then some (bitsAt v 0 48, bitsAt v 64 40) else none)

/-- The word at an address is handled under Detect (R197). -/
def isDetect (s : State) (a : Nat) : Bool :=
  match regionOf a with
  | some .hbm => (detectRegions s).any (fun d => decide (d.1 ≤ a ∧ a < d.1 + d.2))
  | some .pinned =>
    match pinnedAt (pinnedNow s) (a - pinnedBase) with
    | some p => p.attr == 1
    | none => false
  | _ => false

/-- A group record of Table 5.1. -/
structure Group where
  number : Nat
  valid : Bool
  replicated : Bool
  globalNorm : Bool
  layer : Nat
  tensorId : Nat
  slot0 : Nat
  base2 : Nat
  stride : Nat
  rbuf : Nat
  elements : Nat
  rowLen : Nat
  coef : Nat
  tileFirst : Nat
  tileCount : Nat
  lr : Nat
  beta1 : Nat
  beta2 : Nat
  eps : Nat
  decay : Nat
  bound : Nat
  stageRows : Nat
  deriving DecidableEq, Repr

/-- The group record that 128 bytes hold. -/
def groupOf (v : Nat) : Group where
  number := bitsAt v 0 13
  valid := bitAt v 13
  replicated := bitAt v 14
  globalNorm := bitAt v 15
  layer := bitsAt v 16 16
  tensorId := bitsAt v 32 32
  slot0 := bitsAt v 64 48
  base2 := bitsAt v 128 48
  stride := bitsAt v 192 48
  rbuf := bitsAt v 256 48
  elements := bitsAt v 320 40
  rowLen := bitsAt v 360 13
  coef := bitsAt v 384 48
  tileFirst := bitsAt v 448 9
  tileCount := bitsAt v 457 9
  lr := bitsAt v 512 64
  beta1 := bitsAt v 576 64
  beta2 := bitsAt v 640 64
  eps := bitsAt v 704 64
  decay := bitsAt v 768 64
  bound := bitsAt v 832 64
  stageRows := bitsAt v 896 32

/-- The record of group `g` in a store of values: dense groups 0 to 4,095, sweep groups 4,096 to 4,127. -/
def groupIn (t : Tab Byte) (g : Nat) : Group :=
  if g < 4096 then groupOf (storeNat t 0x481201 (128 * g) 128) else groupOf (storeNat t 0x481202 (128 * (g - 4096)) 128)

/-- The record of group `g` in force. -/
def groupNow (s : State) (g : Nat) : Group := groupIn s.dict.values g

/-- The valid groups of a store of values, ascending. -/
def validGroups (t : Tab Byte) : List Group :=
  ((listedElems t 0x481201).map (groupIn t) ++ (listedElems t 0x481202).map (fun i => groupIn t (4096 + i))).filter
    (fun g => g.valid)

/-- Bytes of one state slot or table of a group (R120). -/
def Group.planeBytes (g : Group) : Nat :=
  5 * g.stride + 2 * g.elements * (if 4096 ≤ g.number then g.rowLen else 1)

/-- Bytes of a stage slot of a sweep group. -/
def Group.slotBytes (g : Group) : Nat := (64 + 12 * g.rowLen + 63) / 64 * 64

/-- Bytes of a group's reduction buffer (R120). -/
def Group.rbufBytes (g : Group) : Nat := if 4096 ≤ g.number then 4 * g.rowLen * g.stageRows else 4 * g.elements

/-- Plane 0 of a dense group's live slot (R132). -/
def liveSlot (s : State) (g : Group) : Nat := if (ledgerOf s g.number).liveIsOne then g.base2 else g.slot0

/-- Plane 0 of a dense group's shadow slot (R132). -/
def shadowSlot (s : State) (g : Group) : Nat := if (ledgerOf s g.number).liveIsOne then g.slot0 else g.base2

/-- The address lies in saved state: a live slot of a valid dense group or a table of a valid sweep group (R200). -/
def inSavedState (s : State) (a : Nat) : Bool :=
  (validGroups s.dict.values).any (fun g =>
    let base := if 4096 ≤ g.number then g.slot0 else liveSlot s g
    decide (base ≤ a ∧ a < base + g.planeBytes))

/-! ## Words of protected memory -/

/-- The canonical form of protected memory: addresses strictly rising, and no syndrome of 0 listed. A byte is listed just when it
was written, so no listed byte equals what an unlisted one holds, which is nothing. -/
def Memory.wf (m : Memory) : Bool := tabRising none m.cells && tabWf 0 m.synd

/-- The byte at an address, if it was ever written. -/
def memByte? (m : Memory) (a : Nat) : Option Byte := tabFind m.cells a

/-- A byte as the store holds it: a byte never written is free (R206, assumption 3). -/
def heldByte (m : Memory) (n a : Nat) : Byte :=
  match memByte? m a with
  | some b => b
  | none => Config.freeByte n a

/-- No byte of word `w` was ever written. -/
def neverWritten (m : Memory) (w : Nat) : Bool :=
  (List.range 8).all (fun i => (memByte? m (8 * w + i)).isNone)

/-- The syndrome with which word `w` is read: free for a word never written. -/
def heldSyndrome (m : Memory) (n w : Nat) : Byte :=
  if neverWritten m w then Config.freeSyndrome n w else tabGet 0 m.synd w

/-- The data bits of word `w` as the store holds them. -/
def heldWord (m : Memory) (n w : Nat) : Word64 :=
  BitVec.ofNat 64 (natOfBytes ((List.range 8).map (fun i => heldByte m n (8 * w + i))))

/-- Write bytes from an address up, without regard to words. -/
def putBytes : Tab Byte → Nat → List Byte → Tab Byte
  | t, _, [] => t
  | t, a, b :: l => putBytes (tabInsert t a b) (a + 1) l

/-- Write word `w` with its check bits, poisoned or not (R194). -/
def putWord (m : Memory) (w : Nat) (d : Word64) (poison : Bool) : Memory :=
  ⟨putBytes m.cells (8 * w) (bytesOfNat 8 d.toNat), tabSet 0 m.synd w (if poison then 0xFF else 0)⟩

/-- Forget the bytes from `lo` to `hi` − 1: they are never written from now on (R206). -/
def forget (m : Memory) (lo hi : Nat) : Memory :=
  ⟨tabDrop m.cells lo hi, tabDrop m.synd ((lo + 7) / 8) (hi / 8)⟩

/-- What a read of one word delivers (Table 8.4, R201). -/
inductive Read where
  | good (d : Word64)
  | poison (d : Word64)
  | error
  | held
  deriving DecidableEq, Repr

/-- Count one event of a store in a table of Table 8.9. -/
def countStore (t : Tab Nat) (store : Nat) : Tab Nat := tabCount t store 1

/-- Hold a request on a line of saved state and raise the event of R200; the lines of a group whose contents are lost are not
repaired (R298). -/
def holdLine (s : State) (a : Nat) : State :=
  let line := a / 64
  let block := if storeOf s a = 2 then 0x06 else 0x08
  let lost := (validGroups s.dict.values).any (fun g =>
    s.prot.lostGroups.contains g.number && (let base := if 4096 ≤ g.number then g.slot0 else liveSlot s g
      decide (base ≤ a ∧ a < base + g.planeBytes)))
  if lost || s.prot.heldLines.any (fun h => decide (h.1 = line)) then s
  else raise (s.onProt (fun p => { p with heldLines := p.heldLines ++ [(line, block)] })) (codeOf 8 block 0x0806) (64 * line)

/-! ## HBM geometry and row repair (R148, R149, R276) -/

/-- log2 of the interleave granule (Table 6.3). -/
def granuleBits (s : State) : Nat :=
  match cfg s 0x300005 with
  | 0 => 8
  | 1 => 10
  | 2 => 12
  | _ => 16

/-- The stack that holds an HBM address (R149). -/
def stackOf (s : State) (a : Nat) : Nat := a / 2 ^ granuleBits s % 12

/-- The stack offset of an HBM address (R149). -/
def stackOffset (s : State) (a : Nat) : Nat :=
  let g := granuleBits s
  a / 2 ^ g / 12 * 2 ^ g + a % 2 ^ g

/-- The bank number of a stack offset (R148). -/
def bankNumber (o : Nat) : Nat := (bitsAt o 16 6) ^^^ (bitsAt o 22 6)

/-- The place of an HBM address: its channel and its row in the pseudo-channel's bank. A row of a spread channel lies in a
channel-sparing row of one of the stack's 31 other channels (R148, R277). -/
def channelRow (s : State) (a : Nat) : Nat × Nat :=
  let o := stackOffset s a
  let f := bitsAt o 6 5
  let row := bitsAt o 22 14
  if s.prot.spread.contains (32 * stackOf s a + f) then
    (((List.range 32).filter (fun c => decide (c ≠ f))).getD (row % 31) 0, 16384 + 16 + row / 31)
  else (f, row)

/-- The key of an HBM address's bank: stack, channel, pseudo-channel and bank. -/
def bankKey (s : State) (a : Nat) : Nat :=
  let o := stackOffset s a
  ((stackOf s a * 32 + (channelRow s a).1) * 2 + bitsAt o 11 1) * 64 + bankNumber o

/-- The row of an HBM address. -/
def rowNumber (s : State) (a : Nat) : Nat := (channelRow s a).2

/-- Repair a row of a bank while it has repair rows (R276). -/
def repairRow (p : Protect) (bank row : Nat) : Protect :=
  if tabGet 0 p.rowRepairs bank < 16 ∧ p.repaired.contains (bank, row) = false then
    { p with rowRepairs := tabCount p.rowRepairs bank 1, repaired := p.repaired ++ [(bank, row)] }
  else p

/-- A row is repaired: redirected, each uncorrectable word of its copy held for repair where it is saved state, and written
poisoned where it is in a Detect region (R276). -/
def copyRow (s : State) (bank row : Nat) : State :=
  s.mem.synd.foldl (fun (t : State) (e : Nat × Byte) =>
    let a := 8 * e.1
    if regionOf a ≠ some .hbm ∨ bankKey s a ≠ bank ∨ rowNumber s a ≠ row then t
    else
      match decodeSyndrome e.2 with
      | .uncorrectable =>
        if isDetect t a then
          { t.onProt (fun p => { p with poisoned := countStore p.poisoned 3 }) with
            mem := putWord t.mem e.1 (heldWord t.mem t.free e.1) true }
        else if inSavedState t a then holdLine t a
        else t
      | _ => t) s

/-- Repair the row of an HBM address, once, while its bank has repair rows (R276). -/
def repairRowAt (s : State) (a : Nat) : State :=
  let bank := bankKey s a
  let row := rowNumber s a
  if tabGet 0 s.prot.rowRepairs bank < 16 ∧ s.prot.repaired.contains (bank, row) = false then
    copyRow (s.onProt (fun p => repairRow p bank row)) bank row
  else s

/-- A word's syndrome is uncorrectable. -/
def wordLost (s : State) (w : Nat) : Bool :=
  match decodeSyndrome (heldSyndrome s.mem s.free w) with
  | .uncorrectable => true
  | _ => false

/-- A demand read has found an uncorrectable word: of HBM, its row is repaired (R276). -/
def demandRow (s : State) (a : Nat) : State := if storeOf s a = 3 then repairRowAt s a else s

/-- The word with a code that reads as uncorrectable: what an on-die ECC or a tag that failed makes of it (R195). -/
def spoilWord (s : State) (w : Nat) : State :=
  { s with mem := ⟨putBytes s.mem.cells (8 * w) (bytesOfNat 8 (heldWord s.mem s.free w).toNat), tabSet 0 s.mem.synd w 0x03⟩ }

/-- The tag and state entry of a line is decoded at its lookup: a single-bit error is corrected, and with any other the entry is
given up and every word of the line counts as uncorrectable (Table 8.2). -/
def lookupTag (s : State) (line : Nat) : State :=
  let drop := fun (t : State) => { t with cache := { t.cache with tagSynd := tabErase t.cache.tagSynd line } }
  match decodeSyndrome (tabGet 0 s.cache.tagSynd line) with
  | .clean => s
  | .dataBit _ => drop (s.onProt (fun p => { p with corrected := countStore p.corrected 2 }))
  | .checkBit _ => drop (s.onProt (fun p => { p with corrected := countStore p.corrected 2 }))
  | _ => drop ((List.range 8).foldl (fun t i => spoilWord t (8 * line + i)) s)

/-- Lines that `len` bytes from an address touch. -/
def linesTouched (a len : Nat) : List Nat :=
  if len = 0 then [] else (List.range ((a + len - 1) / 64 - a / 64 + 1)).map (fun i => a / 64 + i)

/-- The lookups of an access: every line that lies in a slice has its tag decoded. -/
def lookupTags (s : State) (a len : Nat) : State :=
  if s.cache.tagSynd = [] then s else (linesTouched a len).foldl lookupTag s

/-! ## Reads -/

/-- Read word `w` of the address space under its attribute: what is delivered, and the state with the counts, corrections and
marks of R199 to R201. -/
def readWord (s : State) (w : Nat) : Read × State :=
  let a := 8 * w
  let store := storeOf s a
  let d := heldWord s.mem s.free w
  let count := fun (f : Protect → Protect) (r : Read) => (r, s.onProt f)
  let synd := heldSyndrome s.mem s.free w
  if isDetect s a then
    match decodeSyndrome synd with
    | .clean => (.good d, s)
    | .poison => (.poison d, s)
    | x =>
      let t := { s.onProt (fun p => { p with poisoned := countStore p.poisoned store }) with mem := putWord s.mem w d true }
      (.poison d, if x = .uncorrectable then demandRow t a else t)
  else
    match decodeSyndrome synd with
    | .clean => (.good d, s)
    | .dataBit i =>
      let d' := d ^^^ (BitVec.ofNat 64 (2 ^ i))
      (.good d', { s.onProt (fun p => { p with corrected := countStore p.corrected store }) with mem := putWord s.mem w d' false })
    | .checkBit _ =>
      (.good d, { s.onProt (fun p => { p with corrected := countStore p.corrected store }) with mem := putWord s.mem w d false })
    | .poison => count (fun p => { p with uncorrectable := countStore p.uncorrectable store }) (.poison d)
    | .uncorrectable =>
      let t := s.onProt (fun p => { p with uncorrectable := countStore p.uncorrectable store })
      if inSavedState s a then (.held, demandRow (holdLine t a) a) else (.error, demandRow t a)

/-- A read of bytes: the bytes with a poison mark each, and whether a word read as an error or is held. -/
structure Bytes where
  data : List (Byte × Bool)
  error : Bool
  held : Bool
  deriving DecidableEq, Repr

/-- Read the words from `w` up, `n` of them: bytes in order; a word that is not delivered stands as it is stored, marked. -/
def readWords : Nat → State → Nat → Bytes × State
  | 0, s, _ => (⟨[], false, false⟩, s)
  | n + 1, s, w =>
    let (r, s1) := readWord s w
    let (l, s2) := readWords n s1 (w + 1)
    let mark := fun (d : Word64) (p : Bool) => (bytesOfNat 8 d.toNat).map (fun b => (b, p))
    match r with
    | .good d => (⟨mark d false ++ l.data, l.error, l.held⟩, s2)
    | .poison d => (⟨mark d true ++ l.data, l.error, l.held⟩, s2)
    | .error => (⟨mark (heldWord s.mem s.free w) true ++ l.data, true, l.held⟩, s2)
    | .held => (⟨mark (heldWord s.mem s.free w) true ++ l.data, l.error, true⟩, s2)

/-- Read `len` bytes from an address. -/
def readBytes (s : State) (a len : Nat) : Bytes × State :=
  let w := a / 8
  let (l, s') := readWords ((a + len + 7) / 8 - w) s w
  (⟨(l.data.drop (a - 8 * w)).take len, l.error, l.held⟩, s')

/-- The bytes of a read without their marks. -/
def Bytes.bytes (b : Bytes) : List Byte := b.data.map (fun x => x.1)

/-- The number that the bytes of a read spell. -/
def Bytes.nat (b : Bytes) : Nat := natOfBytes b.bytes

/-- A word of the read is poisoned. -/
def Bytes.poisoned (b : Bytes) : Bool := b.data.any (fun x => x.2)

/-! ## Writes -/

/-- Write a whole word; a poisoned word in a Correct region is an escape. -/
def writeWhole (s : State) (w : Nat) (d : Word64) (poison : Bool) : State :=
  let s1 := { s with mem := putWord s.mem w d poison }
  if poison && !isDetect s (8 * w) then poisonEscape s1 else s1

/-- Replace the bytes of a word that `new` gives. -/
def mergeBytes (old : List Byte) (new : List (Option (Byte × Bool))) : List Byte :=
  List.zipWith (fun o n => match n with | some x => x.1 | none => o) old new

/-- A byte of the merge carries poison. -/
def mergePoison (new : List (Option (Byte × Bool))) : Bool :=
  new.any (fun n => match n with | some x => x.2 | none => false)

/-- A write to some bytes of word `w` (R205, Table 8.5): the state, and whether the write was refused as uncorrectable or is
held on saved state. Merges that are performed are counted. -/
def writeNarrow (s : State) (w : Nat) (new : List (Option (Byte × Bool))) : State × Bool × Bool :=
  let a := 8 * w
  let store := storeOf s a
  let merge := fun (t : State) (x : Word64) (mark : Bool) =>
    writeWhole (t.onProt (fun p => { p with narrow := countStore p.narrow store })) w x mark
  let d := heldWord s.mem s.free w
  let merged := fun (x : Word64) => BitVec.ofNat 64 (natOfBytes (mergeBytes (bytesOfNat 8 x.toNat) new))
  let mark := mergePoison new
  if isDetect s a then
    match decodeSyndrome (heldSyndrome s.mem s.free w) with
    | .clean => (merge s (merged d) mark, false, false)
    | .poison => (merge s (merged d) true, false, false)
    | x =>
      let t := merge (s.onProt (fun p => { p with poisoned := countStore p.poisoned store })) (merged d) true
      (if x = .uncorrectable then demandRow t a else t, false, false)
  else
    match readWord s w with
    | (.good x, s2) => (merge s2 (merged x) mark, false, false)
    | (.poison x, s2) => (merge s2 (merged x) true, false, false)
    | (.error, s2) => (s2, true, false)
    | (.held, s2) => (s2, false, true)

/-- The part of a list of bytes that starts at address `a` which falls on word `w`. -/
def bytesOnWord (a : Nat) (l : List (Byte × Bool)) (w : Nat) : List (Option (Byte × Bool)) :=
  (List.range 8).map (fun i => if 8 * w + i < a then none else l[8 * w + i - a]?)

/-- Write bytes to `n` words from word `w` up; the bytes start at address `a`. -/
def writeWords : Nat → State → Nat → Nat → List (Byte × Bool) → State × Bool × Bool
  | 0, s, _, _, _ => (s, false, false)
  | n + 1, s, w, a, l =>
    let new := bytesOnWord a l w
    let (s1, e1, h1) :=
      if new.all (fun x => x.isSome) then
        (writeWhole s w (BitVec.ofNat 64 (natOfBytes (mergeBytes (List.replicate 8 0) new))) (mergePoison new), false, false)
      else writeNarrow s w new
    let (s2, e2, h2) := writeWords n s1 (w + 1) a l
    (s2, e1 || e2, h1 || h2)

/-- Write bytes, each with its poison mark, from an address up: whole words with fresh check bits, other words merged. The flags
say that a word was not written because it is uncorrectable, or is held for repair. -/
def writeMarked (s : State) (a : Nat) (l : List (Byte × Bool)) : State × Bool × Bool :=
  if l = [] then (s, false, false) else writeWords ((a + l.length + 7) / 8 - a / 8) s (a / 8) a l

/-- Write bytes without poison. -/
def writeBytes (s : State) (a : Nat) (l : List Byte) : State × Bool × Bool :=
  writeMarked s a (l.map (fun b => (b, false)))

/-- Write bytes without poison for a block of Table 1.13, which raises its own code where a merge is refused (Table 8.5). -/
def putFor (block : Nat) (s : State) (a : Nat) (l : List Byte) : State :=
  match writeBytes s a l with
  | (t, refused, _) => if refused then raise t (codeOf 2 block 0x0801) a else t

/-- Hazel writes bytes without poison. -/
def putMem (s : State) (a : Nat) (l : List Byte) : State := putFor 0x0F s a l

/-! ## Accumulator banks (Table 8.2: Correct, store 1) -/

/-- The place of a byte of a bank of a tile. -/
def bankAt (tile bank byte : Nat) : Nat := tile * 2 ^ 17 + bank * 2 ^ 16 + byte

/-- Read word `w` of the banks. -/
def readBankWord (s : State) (w : Nat) : Read × State :=
  let d := heldWord s.banks s.free w
  let bad := fun (r : Read) => (r, s.onProt (fun p => { p with uncorrectable := countStore p.uncorrectable 1 }))
  let fixed := fun (x : Word64) =>
    (Read.good x, { s.onProt (fun p => { p with corrected := countStore p.corrected 1 }) with banks := putWord s.banks w x false })
  match decodeSyndrome (heldSyndrome s.banks s.free w) with
  | .clean => (.good d, s)
  | .dataBit i => fixed (d ^^^ (BitVec.ofNat 64 (2 ^ i)))
  | .checkBit _ => fixed d
  | .poison => bad (.poison d)
  | .uncorrectable => bad .error

/-- Write word `w` of the banks; poison there is an escape (R203: banks are Correct). -/
def writeBankWord (s : State) (w d : Nat) (poison : Bool) : State :=
  let s1 := { s with banks := putWord s.banks w (BitVec.ofNat 64 d) poison }
  if poison then poisonEscape s1 else s1

/-- Write 4-byte elements of a bank, given by place div 4 in ascending order with a poison mark each: a pair of elements that
share a word is written whole, a lone one keeps the other (Table 8.2, Table 8.5). The flag says that a word was not written
because it is uncorrectable. -/
def writeBankElems : State → List (Nat × Nat × Bool) → State × Bool
  | s, [] => (s, false)
  | s, [(i, v, p)] => writeLone s i v p
  | s, (i, v, p) :: (j, u, q) :: l =>
    if i % 2 = 0 ∧ j = i + 1 then
      writeBankElems (writeBankWord s (i / 2) (v % 2 ^ 32 + u % 2 ^ 32 * 2 ^ 32) (p || q)) l
    else
      let (s1, e1) := writeLone s i v p
      let (s2, e2) := writeBankElems s1 ((j, u, q) :: l)
      (s2, e1 || e2)
where
  writeLone (s : State) (i v : Nat) (p : Bool) : State × Bool :=
    let merged := fun (d : Word64) =>
      if i % 2 = 0 then d.toNat / 2 ^ 32 * 2 ^ 32 + v % 2 ^ 32 else v % 2 ^ 32 * 2 ^ 32 + d.toNat % 2 ^ 32
    let count := fun (t : State) => t.onProt (fun q => { q with narrow := countStore q.narrow 1 })
    match readBankWord s (i / 2) with
    | (.good d, s1) => (writeBankWord (count s1) (i / 2) (merged d) p, false)
    | (.poison d, s1) => (writeBankWord (count s1) (i / 2) (merged d) true, false)
    | (_, s1) => (s1, true)

/-! ## The status mirror (R269) -/

/-- Objects of the mirror beyond the fixed ones, with their offsets: the model's placement, from 0x02_0000 up at multiples of
4 KiB (assumption 10). -/
def mirrorObjects : List (Nat × Nat) :=
  [(0x281002, 0x0), (0x281001, 0x8), (0x281004, 0x10), (0x281003, 0x20), (0x581101, 0x1000), (0x580202, 0x2000),
   (0x110001, 0x20000), (0x110103, 0x21000), (0x110104, 0x22000), (0x200002, 0x23000), (0x200301, 0x24000),
   (0x200302, 0x25000), (0x480101, 0x26000), (0x480102, 0x27000), (0x480106, 0x28000), (0x600202, 0x29000),
   (0x600203, 0x2A000), (0x481401, 0x2B000), (0x481402, 0x2C000)]

/-- Objects of the mirror that change only at boundaries. -/
def boundaryMirror : List Nat := [0x281001, 0x281003, 0x110001, 0x480101, 0x480102, 0x480106, 0x481401, 0x481402]

/-- A directory entry of the mirror (R269). -/
def directoryEntry (key off len : Nat) : Nat :=
  key / 256 + key % 256 * 2 ^ 16 + natOfBool (boundaryMirror.contains key) * 2 ^ 24 + off * 2 ^ 32 + len * 2 ^ 64

/-- A byte of the status mirror at an offset: an object, the directory, zero in the rest of a word an object starts, or free. -/
def mirrorByte (s : State) (off : Nat) : Byte :=
  let lenOf := fun (key : Nat) => match objFind key with
    | some o => (viewOf s o).length
    | none => 0
  match mirrorObjects.find? (fun m => decide (m.2 ≤ off ∧ off < m.2 + (lenOf m.1 + 7) / 8 * 8)) with
  | some m =>
    match objFind m.1 with
    | some o => (viewBytes s m.1 (viewOf s o) (off - m.2) 1).headD 0
    | none => 0
  | none =>
    if 0x10000 ≤ off ∧ off < 0x10000 + 16 * (mirrorObjects.length + 1) then
      let i := (off - 0x10000) / 16
      match mirrorObjects[i]? with
      | some m => BitVec.ofNat 8 (directoryEntry m.1 m.2 (lenOf m.1) / 256 ^ ((off - 0x10000) % 16))
      | none => 0
    else Config.freeByte s.free (mirrorBase + off)

end Sys2Proof.Machine
end

