-- ==== Sys2Proof/Machine/HomeSlice.lean ====
section
/-! DEFINITION. Home slices and HBM controllers (R147 to R160): the home set of a line, residency hints, allocation and eviction,
fills and write-backs, row and bus state, refresh, and the rows HOME_SLICE_ACCESS, SLICE_FILL_RETURN, WRITE_BACK_COMPLETE,
HBM_REFRESH and MEM_COUNTERS_CLEAR's effect. Where a line is held never changes a value (R147): values are in `State.mem`. -/

namespace Sys2Proof.Machine

open Sys2Proof

/-! ## Pseudo-channels (R148) -/

/-- The key of an HBM address's pseudo-channel. -/
def pseudoChannel (s : State) (a : Nat) : Nat := bankKey s a / 64

/-! ## Home sets (R152, R153, R157, R214) -/

/-- The sets of all slices. -/
def setCount : Nat := 10485760

/-- The global set number of an HBM line. -/
def homeSet (line : Nat) : Nat := line * 0x9e3779b97f4a7c15 % 2 ^ 64 / 2 ^ 40 * setCount / 2 ^ 24

/-- The slice 4 × column + layer − 1 and the index of a global set. -/
def setOf (g : Nat) : Nat × Nat :=
  let j := g / 4
  let q := j / 20480
  let r := j % 20480
  if r < 6827 then (4 * (3 * q) + g % 4, r)
  else if r < 13654 then (4 * (3 * q + 1) + g % 4, r - 6827)
  else (4 * (3 * q + 2) + g % 4, r - 13654)

/-- The global set of a slice and an index. -/
def setAt (slice index : Nat) : Nat :=
  let p := slice / 4
  let r := if p % 3 = 0 then index else if p % 3 = 1 then index + 6827 else index + 13654
  4 * (p / 3 * 20480 + r) + slice % 4

/-- The set that serves a global set: while its slice is retired, the set of the same index of the proxy, or of the proxy's own
proxy (R214). -/
def servingFrom (k : Stack) : Nat → Nat → Nat
  | 0, g => g
  | n + 1, g =>
    let (i, x) := setOf g
    let q := tabGet 0xFFFF k.proxies i
    if tabGet 0 k.slices i = 1 ∧ q ≠ 0xFFFF then servingFrom k n (setAt (4 * q + i % 4) x) else g

/-- The set that serves a global set. -/
def servingSet (s : State) (g : Nat) : Nat := servingFrom s.stack 384 g

/-- The slice that serves a line. -/
def servingSlice (s : State) (line : Nat) : Nat := (setOf (servingSet s (homeSet line))).1

/-- Pinned lines that a global set holds of its own (R157). -/
def ownPinned (s : State) (g : Nat) : Nat :=
  ((List.range 14).filter (fun b => (pinnedAt (pinnedNow s) (64 * (b * setCount + g))).isSome)).length

/-- The retired slices whose sets a slice serves. -/
def adopted (s : State) (slice : Nat) : List Nat :=
  s.stack.slices.filterMap (fun e =>
    if e.2 = 1 ∧ e.1 ≠ slice ∧ (setOf (servingSet s (setAt e.1 0))).1 = slice then some e.1 else none)

/-- Pinned lines of a set, with those of the retired slices it serves. -/
def pinnedLines (s : State) (g : Nat) : Nat :=
  let (i, x) := setOf g
  (adopted s i).foldl (fun a j => a + ownPinned s (setAt j x)) (ownPinned s g)

/-! ## Residency hints (R125, R159, R160) -/

/-- The regions of act_regions, by layer: base and size. -/
def actRegions (t : Tab Byte) : List (Nat × Nat × Nat) :=
  (listedElems t 0x481203).filterMap (fun i =>
    let v := storeNat t 0x481203 (16 * i) 16
    if bitsAt v 64 40 = 0 then none else some (i, bitsAt v 0 48, bitsAt v 64 40))

/-- The regions under the standing hints of R125: those of the highest-numbered layers with regions. -/
def standingRegions (t : Tab Byte) : List (Nat × Nat) :=
  ((actRegions t).reverse.take (storeNat t 0x481004 0 2)).map (fun e => e.2)

/-- The valid user hints: base and size. -/
def userHints (t : Tab Byte) : List (Nat × Nat) :=
  (listedElems t 0x300202).filterMap (fun i =>
    let v := storeNat t 0x300202 (16 * i) 16
    if bitAt v 104 then some (bitsAt v 0 48, bitsAt v 64 40) else none)

/-- The regions that carry class 1 hints now: reduction buffer and both slots of each group being updated. -/
def updateRegions (s : State) : List (Nat × Nat) :=
  s.cache.updating.flatMap (fun n =>
    let g := groupNow s n
    [(g.rbuf, g.rbufBytes), (g.slot0, g.planeBytes), (g.base2, g.planeBytes)])

/-- A region rounded outward to 2 MiB pages covers the page of an address. -/
def coversPage (r : Nat × Nat) (a : Nat) : Bool :=
  decide (0 < r.2 ∧ r.1 / 2097152 ≤ a / 2097152 ∧ a / 2097152 ≤ (r.1 + r.2 - 1) / 2097152)

/-- The hint class of an address's page: the highest that holds, 0 for none. -/
def hintClass (s : State) (a : Nat) : Nat :=
  if (standingRegions s.dict.values).any (coversPage · a) then 3
  else if (userHints s.dict.values).any (coversPage · a) then 2
  else if (updateRegions s).any (coversPage · a) then 1
  else 0

/-! ## HBM accesses (R150) -/

/-- One access of a line to HBM: activate on a page change, turn-round on a change of direction, bytes (R150, Table 6.14). -/
def hbmAccess (s : State) (line bytes : Nat) (write : Bool) : State :=
  let a := 64 * line
  let bank := bankKey s a
  let row := rowNumber s a
  let pc := pseudoChannel s a
  let k := stackOf s a
  let opened := tabFind s.cache.openPages bank == some row
  let turned := s.cache.lastWrite.contains pc != write
  let bursts := (bytes + 31) / 32
  s.onCache (fun c => { c with
    activates := if opened then c.activates else tabCount c.activates k 1
    openPages := tabInsert c.openPages bank row
    turns := if turned then tabCount c.turns k 1 else c.turns
    lastWrite := if write then setAdd c.lastWrite pc else setRemove c.lastWrite pc
    busBursts := tabSet 0 c.busBursts pc (if turned then bursts else tabGet 0 c.busBursts pc + bursts)
    readBytes := if write then c.readBytes else tabCount c.readBytes k bytes
    writeBytes := if write then tabCount c.writeBytes k bytes else c.writeBytes })

/-- The first of two entries of the controllers' queue that are one, by its place; the queue's length where there is none. -/
def hbmPlace (s : State) (line : Nat) (write : Bool) : Nat := s.cache.hbmQueue.findIdx (fun e => e == (line, write))

/-- HBM may serve a fill or a write-back of a line now: no request to its bank arrived before it, and its pseudo-channel's bus
points its way, or has held the other direction for 32 bursts, or has no request left of that direction (R150). -/
def hbmServes (s : State) (line : Nat) (write : Bool) : Bool :=
  let before := s.cache.hbmQueue.take (hbmPlace s line write)
  let pc := pseudoChannel s (64 * line)
  before.all (fun e => decide (bankKey s (64 * e.1) ≠ bankKey s (64 * line))) &&
    ((s.cache.lastWrite.contains pc == write) || decide (32 ≤ tabGet 0 s.cache.busBursts pc) ||
      s.cache.hbmQueue.all (fun e => decide (pseudoChannel s (64 * e.1) ≠ pc ∨ e.2 = write)))

/-- A request leaves the controllers' queue. -/
def hbmServed (s : State) (line : Nat) (write : Bool) : State :=
  s.onCache (fun c => { c with hbmQueue := c.hbmQueue.eraseIdx (hbmPlace s line write) })

/-- The layer entry (L1 is 0) whose counters count a line. -/
def layerOf (s : State) (line : Nat) : Nat := servingSlice s line % 4

/-! ## Sets (R154, R156, R160) -/

/-- The lines of a set, most recently used first. -/
def linesOf (s : State) (g : Nat) : List Line := tabGet [] s.cache.sets g

/-- A set's lines changed; a set without lines has no entry. -/
def setLines (s : State) (g : Nat) (l : List Line) : State :=
  s.onCache (fun c => { c with sets := tabSet [] c.sets g l })

/-- Evict a line: a dirty one goes into the write-back buffer and before HBM (R154, R155); its tag entry goes with it. -/
def evictLine (s : State) (x : Line) : State :=
  let s1 := s.onCache (fun c => { c with tagSynd := tabErase c.tagSynd x.line })
  if x.dirty = 0 then s1
  else s1.onCache (fun c => { c with
    writebacks := c.writebacks ++ [⟨x.line, x.dirty, x.valid⟩]
    hbmQueue := c.hbmQueue ++ [(x.line, true)]
    evictions := tabCount c.evictions (layerOf s x.line) 1 })

/-- The slice of a line has 256 write-backs outstanding (R155). -/
def writeBacksFull (s : State) (line : Nat) : Bool :=
  decide (256 ≤ (s.cache.writebacks.filter (fun w => servingSlice s w.line == servingSlice s line)).length)

/-- A line that leaves must be written back, and the buffer of its slice is full. -/
def cannotLeave (s : State) (x : Option Line) : Bool :=
  match x with
  | some v => decide (v.dirty ≠ 0) && writeBacksFull s v.line
  | none => false

/-- The last element of a list that satisfies a test, and the list without it. -/
def takeLast {α : Type} (f : α → Bool) (l : List α) : Option α × List α :=
  match l.reverse.find? f with
  | none => (none, l)
  | some _ => (l.reverse.find? f, (l.reverse.eraseIdx (l.reverse.findIdx f)).reverse)

/-- The victim of a set (R156): the least recently used unhinted line, else that of the lowest class present. -/
def chooseVictim (l : List Line) : Option Line × List Line :=
  match takeLast (fun x => x.hint == 0) l with
  | (some v, r) => (some v, r)
  | (none, _) =>
    let low := l.foldl (fun a x => min a x.hint) 3
    takeLast (fun x => x.hint == low) l

/-- Most hinted lines that a set may hold (R160). -/
def hintedLimit (s : State) (g : Nat) : Nat := min (cfg s 0x300201) (14 - pinnedLines s g)

/-- The class a new line takes, and the hinted line that it displaces when the set is at its hinted-way limit (R156). -/
def admitHint (s : State) (g cls : Nat) : Nat × Option Line × List Line :=
  let l := linesOf s g
  let hinted := (l.filter (fun x => decide (x.hint ≠ 0))).length
  if cls = 0 ∨ hinted < hintedLimit s g then (cls, none, l)
  else
    let low := l.foldl (fun a x => if x.hint = 0 then a else min a x.hint) 4
    if low ≤ cls then
      let (v, r) := takeLast (fun x => x.hint == low) l
      (cls, v, r)
    else (0, none, l)

/-- Allocate a line in its set: a hinted line displaced by the limit, then a victim where no way is free. Nothing is allocated
when pinned lines take every way; none: a dirty line must leave and the write-back buffer is full. -/
def allocateLine (s : State) (x : Line) : Option State :=
  let g := servingSet s (homeSet x.line)
  let ways := 16 - pinnedLines s g
  let (cls, displaced, rest) := admitHint s g x.hint
  if cannotLeave s displaced then none
  else
    let s1 := match displaced with
      | some v => evictLine (setLines s g rest) v
      | none => s
    if ways = 0 then some s1
    else
      let l := linesOf s1 g
      if l.length < ways then some (setLines s1 g ({ x with hint := cls } :: l))
      else match chooseVictim l with
        | (some v, r) => if cannotLeave s1 (some v) then none else some (setLines (evictLine s1 v) g ({ x with hint := cls } :: r))
        | (none, _) => some s1

/-- The line of a set with a number. -/
def findLine (s : State) (line : Nat) : Option Line :=
  (linesOf s (servingSet s (homeSet line))).find? (fun x => x.line == line)

/-- Change a line that its set holds and make it the most recently used. -/
def touchLine (s : State) (x : Line) : State :=
  let g := servingSet s (homeSet x.line)
  setLines s g (x :: (linesOf s g).filter (fun y => decide (y.line ≠ x.line)))

/-- The class that an accessed line takes from its page: a line not hinted before keeps the limit of its set, displacing another
or staying unhinted (R156, R159). -/
def accessHint (s : State) (x : Line) (cls : Nat) : Nat × State :=
  if cls = 0 ∨ x.hint ≠ 0 then (cls, s)
  else
    let g := servingSet s (homeSet x.line)
    let (c, displaced, rest) := admitHint s g cls
    (c, match displaced with
      | some v => evictLine (setLines s g rest) v
      | none => s)

/-- The bytes of a line that a mask of words touches, in 32 B sectors (R173). -/
def sectorBytes (words : BitVec 8) : Nat :=
  (if words &&& 0x0F = 0 then 0 else 32) + (if words &&& 0xF0 = 0 then 0 else 32)

/-- Write back a dirty line at once, at a boundary (R158, R215). -/
def writeBackNow (s : State) (x : Line) : State :=
  if x.dirty = 0 then s
  else hbmAccess (s.onCache (fun c => { c with evictions := tabCount c.evictions (layerOf s x.line) 1 })) x.line (sectorBytes x.dirty) true

/-- The hinted lines of a set above its limit lose their hints, the least recently used of the lowest class first, at most `n`
(R156, R160). The spec does not say what becomes of them when the limit falls; keeping them without a hint is the model's
choice (DESIGN CHOICE, assumption 61). -/
def unhintLines : Nat → Nat → List Line → List Line
  | 0, _, l => l
  | n + 1, limit, l =>
    if (l.filter (fun x => decide (x.hint ≠ 0))).length ≤ limit then l
    else
      let low := l.foldl (fun a x => if x.hint = 0 then a else min a x.hint) 4
      let i := l.length - 1 - l.reverse.findIdx (fun x => x.hint == low)
      match l[i]? with
      | some x => unhintLines n limit (listSet l i { x with hint := 0 })
      | none => l

/-- A set keeps its hinted-way limit (R156, R160). -/
def limitHints (s : State) (g : Nat) : State := setLines s g (unhintLines 16 (hintedLimit s g) (linesOf s g))

/-- Lines leave a set, at most `n`, until its pinned lines and they fit its 16 ways (R158). -/
def displaceLines : Nat → State → Nat → State
  | 0, s, _ => s
  | n + 1, s, g =>
    let l := linesOf s g
    if l.length + pinnedLines s g ≤ 16 then s
    else match chooseVictim l with
      | (some v, r) => displaceLines n (writeBackNow (setLines s g r) v) g
      | (none, _) => s

/-- Outstanding fills of the slice that serves a line. -/
def fillsOf (s : State) (line : Nat) : Nat :=
  (s.cache.fills.filter (fun f => servingSlice s f.line == servingSlice s line)).length

/-- Ask HBM for the words of a line (R154, R155): merged with a fill of the line that is outstanding; without a free entry the
request waits. -/
def requestFill (s : State) (who : Initiator) (line : Nat) (want : BitVec 8) (hint : Nat) : State :=
  if s.cache.fills.any (fun f => f.line == line) then
    s.onCache (fun c => { c with fills := c.fills.map (fun f => if f.line = line then { f with want := f.want ||| want } else f) })
  else if fillsOf s line < 256 then
    s.onCache (fun c => { c with fills := c.fills ++ [⟨line, who, want, 0, hint⟩], hbmQueue := c.hbmQueue ++ [(line, false)] })
  else s.onCache (fun c => { c with waiting := c.waiting ++ [(who, line, want)] })

/-- Words of a line that `len` bytes from address `a` touch; `whole` keeps those covered entirely. -/
def wordMask (line a len : Nat) : BitVec 8 :=
  BitVec.ofNat 8 ((List.range 8).foldl (fun m i =>
    let w := 64 * line + 8 * i
    if a < w + 8 ∧ w < a + len then m + 2 ^ i else m) 0)

/-- The words of a line that a write covers entirely. -/
def wholeMask (line a len : Nat) : BitVec 8 :=
  BitVec.ofNat 8 ((List.range 8).foldl (fun m i =>
    let w := 64 * line + 8 * i
    if a ≤ w ∧ w + 8 ≤ a + len then m + 2 ^ i else m) 0)

/-- How a home slice takes an access: served, waiting for words of HBM, or not taken. -/
inductive Taken where
  | served
  | missed
  | refused
  deriving DecidableEq, Repr

/-- The access of `len` bytes from `a` to one line. -/
def lineAccess (who : Initiator) (line a len : Nat) (write : Bool) : SliceAccess :=
  let touched := wordMask line a len
  let full := if write then wholeMask line a len else 0
  ⟨who, line, touched &&& ~~~ full, full, if write then touched else 0, 0xFF⟩

/-- The words of a 32 B sector within its line. -/
def sectorMask (sector : Nat) : BitVec 8 := if sector % 2 = 0 then 0x0F else 0xF0

/-- A Cracker access to the part of `len` bytes from `a` that lies in one 32 B sector of the HBM range; the sector alone is filled
(R173). -/
def sectorAccess (channel sector a len : Nat) (write : Bool) : SliceAccess :=
  let mask := sectorMask sector
  let touched := wordMask (sector / 2) a len &&& mask
  let full := if write then wholeMask (sector / 2) a len &&& mask else 0
  ⟨.cracker channel, sector / 2, touched &&& ~~~ full, full, if write then touched else 0, mask⟩

/-- The supervisor of the layer of a line's slice holds its handshakes (R32). -/
def sliceStopped (s : State) (line : Nat) : Bool := s.power.stopped.contains (layerOf s line + 1)

/-- One access of one HBM line at its home slice: hit, miss, allocation, fill (R154 to R156, R173). A slice whose layer is stopped
takes none (R32), nor one whose line needs a way that a full write-back buffer keeps (R155). -/
def serveLine (s : State) (x : SliceAccess) : Taken × State :=
  let layer := layerOf s x.line
  let cls := hintClass s (64 * x.line)
  let hit := fun (t : State) => t.onCache (fun c => { c with hits := tabCount c.hits layer 1 })
  let miss := fun (t : State) => t.onCache (fun c => { c with misses := tabCount c.misses layer 1 })
  let noteWrite := fun (t : State) => t.onCache (fun c => { c with
    fills := c.fills.map (fun f => if f.line = x.line then { f with written := f.written ||| x.full } else f) })
  if sliceStopped s x.line then (.refused, s)
  else match findLine s x.line with
    | some l =>
      let (c, s1) := accessHint s l cls
      let y := { l with dirty := l.dirty ||| x.dirty, valid := l.valid ||| x.full, hint := c }
      if x.need &&& ~~~ l.valid = 0 then (.served, noteWrite (touchLine (hit s1) y))
      else (.missed, requestFill (noteWrite (touchLine (miss s1) y)) x.who x.line (x.ask &&& ~~~ y.valid) c)
    | none =>
      match s.cache.writebacks.find? (fun w => decide (w.line = x.line ∧ x.need &&& ~~~ w.valid = 0)) with
      | some w =>
        if x.dirty = 0 then (.served, hit s)
        else match allocateLine s ⟨x.line, x.dirty, w.valid ||| x.full, cls⟩ with
          | some t => (.served, hit t)
          | none => (.refused, s)
      | none =>
        match allocateLine s ⟨x.line, x.dirty, x.full, cls⟩ with
        | none => (.refused, s)
        | some t =>
          if x.ask &&& ~~~ x.full = 0 then (.served, miss t)
          else (if x.need = 0 then .served else .missed, requestFill (miss t) x.who x.line (x.ask &&& ~~~ x.full) cls)

/-- An access by a block that waits at the slice: one that is not taken is kept there. -/
def accessLine (s : State) (x : SliceAccess) : State :=
  match serveLine s x with
  | (.refused, t) => t.onCache (fun c => { c with blocked := c.blocked ++ [x] })
  | (_, t) => t

/-- A Cracker access to one whole 32 B sector of the HBM range by its home slice (R173). -/
def accessSector (s : State) (channel sector : Nat) (write : Bool) : State :=
  accessLine s (sectorAccess channel sector (32 * sector) 32 write)

/-- The 32 B sectors of a range that lie in the HBM range. -/
def sectorsOf (a len : Nat) : List Nat :=
  if len = 0 ∨ hbmEnd ≤ a then [] else (List.range ((a + len - 1) / 32 - a / 32 + 1)).map (fun i => a / 32 + i)

/-- The home slices' part of a Cracker access, one sector at a time (R173). -/
def accessSectors (s : State) (channel a len : Nat) (write : Bool) : State :=
  (sectorsOf a len).foldl (fun t x => accessLine t (sectorAccess channel x a len write)) s

/-- The home slices' part of an access to the HBM range; other ranges have no home slice. -/
def accessSlices (s : State) (who : Initiator) (a len : Nat) (write : Bool) : State :=
  if regionOf a = some .hbm then (linesTouched a len).foldl (fun t n => accessLine t (lineAccess who n a len write)) s else s

/-! ## Accesses without an order (R86, R90) -/

/-- Two runs share a byte. -/
def Run.meets (a b : Run) : Bool := decide (a.lo < b.lo + b.len ∧ b.lo < a.lo + a.len)

/-- A run of one list shares a byte with a run of another. -/
def runsMeet (a b : List Run) : Bool := a.any (fun x => b.any x.meets)

/-- The bytes of runs are forgotten: they are undefined from now on. -/
def forgetRuns (m : Memory) (l : List Run) : Memory := l.foldl (fun m r => forget m r.lo (r.lo + r.len)) m

/-- What a descriptor writes becomes undefined (R86, R90, R115). -/
def forgetIssued (s : State) (d : Issued) : State :=
  { s with mem := forgetRuns s.mem d.dests, banks := forgetRuns s.banks d.bankDests }

/-- The bytes that both of two lists of runs hold. -/
def commonRuns (a b : List Run) : List Run :=
  a.flatMap (fun x => (b.filter x.meets).map (fun y => ⟨max x.lo y.lo, min (x.lo + x.len) (y.lo + y.len) - max x.lo y.lo⟩))

/-- The descriptors that are issued and have not completed, with their tiles. -/
def inFlight (s : State) : List (Nat × Issued) := s.tiles.flatMap (fun (e : Nat × Tile) => e.2.issued.map (fun d => (e.1, d)))

/-- Bytes are written while descriptors that touch them run, with no order between them: what such a descriptor makes of the bytes
it reads, and the bytes that both write, are undefined (R90). -/
def raceWrites (s : State) (others : List (Nat × Issued)) (l : List Run) : State :=
  others.foldl (fun (t : State) (e : Nat × Issued) =>
    let t1 := if runsMeet l e.2.sources then forgetIssued t e.2 else t
    if runsMeet l e.2.dests then { t1 with mem := forgetRuns t1.mem (commonRuns l e.2.dests) } else t1) s

/-- Written bytes as the running programs see them: a descriptor that one has fetched may not be written (R86). -/
def noteWritten (s : State) (l : List Run) : State :=
  { s with uses := s.uses.map (fun (e : Nat × ProgramUse) => (e.1, { e.2 with
      written := e.2.written ++ l
      stale := e.2.stale || e.2.fetched.any (fun a => l.any (Run.meets ⟨a, 64⟩)) })) }

/-- A program fetches descriptors: none of them may have been written since it started (R86). -/
def noteFetched (s : State) (n : Nat) (l : List Nat) : State :=
  { s with uses := s.uses.map (fun (e : Nat × ProgramUse) =>
      if e.1 = n then (e.1, { e.2 with
        fetched := e.2.fetched ++ l
        stale := e.2.stale || l.any (fun a => e.2.written.any (Run.meets ⟨a, 64⟩)) })
      else e) }

/-- A block other than a tile's engines writes bytes. -/
def disturb (s : State) (l : List Run) : State := raceWrites (noteWritten s l) (inFlight s) l

/-- Read bytes for an initiator, its access served by the home slices (R24); the words are read first, so that an error found in
HBM is counted there (R217). -/
def readThrough (s : State) (who : Initiator) (a len : Nat) : Bytes × State :=
  let (b, t) := readBytes (lookupTags s a len) a len
  (b, accessSlices t who a len false)

/-- Write marked bytes for an initiator, its access served by the home slices (R24). -/
def writeThrough (s : State) (who : Initiator) (a : Nat) (l : List (Byte × Bool)) : State × Bool × Bool :=
  let (t, refused, held) := writeMarked (lookupTags s a l.length) a l
  (accessSlices (disturb t [⟨a, l.length⟩]) who a l.length true, refused, held)

/-- Write bytes without poison for an initiator through the home slices; a merge that is refused is its block's code (Table 8.5). -/
def putThrough (s : State) (who : Initiator) (a : Nat) (l : List Byte) : State :=
  match writeThrough s who a (l.map (fun b => (b, false))) with
  | (t, refused, _) => if refused then raise t (codeOf 2 (initiatorBlock who) 0x0801) a else t

/-- One run-ahead request: a fill of the words of a line that its home slice does not hold; one that finds no room is given up
(R162, R184). -/
def runAheadFill (s : State) (who : Initiator) (line : Nat) (want : BitVec 8) : State :=
  if (findLine s line).isSome || sliceStopped s line then s
  else
    let cls := hintClass s (64 * line)
    match allocateLine (s.onCache (fun c => { c with runaheadFills := c.runaheadFills + 1 })) ⟨line, 0, 0, cls⟩ with
    | some t => requestFill t who line want cls
    | none => s

/-! ## A tile's outstanding requests (R161) -/

/-- The parts of runs that lie on one line each, in order; parts of one line that follow each other are one request. -/
def lineReads (index : Bool) : List Run → List LineRead
  | [] => []
  | r :: l =>
    let parts := (linesTouched r.lo r.len).map (fun n =>
      (⟨max r.lo (64 * n), min (r.lo + r.len) (64 * n + 64) - max r.lo (64 * n), index⟩ : LineRead))
    match parts.getLast?, lineReads index l with
    | some x, y :: rest =>
      if x.lo / 64 = y.lo / 64 then
        parts.dropLast ++ ⟨min x.lo y.lo, max (x.lo + x.len) (y.lo + y.len) - min x.lo y.lo, index⟩ :: rest
      else parts ++ y :: rest
    | _, rest => parts ++ rest

/-- Read requests of a tile's descriptors that the given ones hold entries for. -/
def waitsOf (t : Tile) (f : Issued → Bool) : Nat := (t.issued.filter f).foldl (fun n d => n + d.waits.length) 0

/-- An entry is free for one more read request of a descriptor: of 48 for the stream unit and 24 for its channel, of 128 for the
matrix and vector engines (R161). -/
def entryFree (t : Tile) (d : Issued) : Bool :=
  if d.engine = 2 then
    decide (waitsOf t (fun e => e.engine == 2) < 48 ∧ waitsOf t (fun e => e.engine == 2 && e.channel == d.channel) < 24)
  else decide (waitsOf t (fun e => e.engine != 2) < 128)

/-- An issued descriptor of a tile changed, by its number. -/
def onIssued (s : State) (n number : Nat) (f : Issued → Issued) : State :=
  onTile s n (fun t => { t with issued := t.issued.map (fun d => if d.number = number then f d else d) })

/-- One more request of a descriptor, if it has one to make and the slice takes it: a read with a free entry, and a write once
every read has returned. None: no progress. -/
def requestNext (s : State) (n : Nat) (d : Issued) : Option State :=
  match d.reads with
  | r :: rest =>
    if regionOf r.lo ≠ some .hbm then some (onIssued s n d.number (fun d => { d with reads := rest }))
    else if entryFree (tileOf s n) d = false then none
    else match serveLine s (lineAccess (.pip n) (r.lo / 64) r.lo r.len false) with
      | (.refused, _) => none
      | (.served, t) => some (onIssued t n d.number (fun d => { d with reads := rest }))
      | (.missed, t) => some (onIssued t n d.number (fun d => { d with reads := rest, waits := d.waits ++ [r] }))
  | [] =>
    match d.writes with
    | w :: rest =>
      if d.waits ≠ [] then none
      else if regionOf w.lo ≠ some .hbm then some (onIssued s n d.number (fun d => { d with writes := rest }))
      else match serveLine s (lineAccess (.pip n) (w.lo / 64) w.lo w.len true) with
        | (.refused, _) => none
        | (_, t) => some (onIssued t n d.number (fun d => { d with writes := rest }))
    | [] => none

/-- The requests of a tile's descriptors go out, the earliest descriptor first, at most `k` of them (R161). -/
def pumpTile : Nat → State → Nat → State
  | 0, s, _ => s
  | k + 1, s, n =>
    match (tileOf s n).issued.findSome? (fun d => requestNext s n d) with
    | some t => pumpTile k t n
    | none => s

/-- Requests that a tile's descriptors have still to make. -/
def requestsLeft (t : Tile) : Nat := t.issued.foldl (fun k d => k + d.reads.length + d.writes.length) 0

/-- Every tile's requests go on as far as they can. -/
def pumpTiles (s : State) : State :=
  (s.tiles.map (fun (e : Nat × Tile) => e.1)).foldl (fun t n => pumpTile (requestsLeft (tileOf t n)) t n) s

/-- A line's words have returned to the tiles that wait for them. -/
def lineReturned (s : State) (line : Nat) : State :=
  { s with tiles := s.tiles.map (fun (e : Nat × Tile) => (e.1, { e.2 with
      issued := e.2.issued.map (fun d => { d with waits := d.waits.filter (fun r => decide (r.lo / 64 ≠ line)) }) })) }

/-! ## Fills and write-backs -/

/-- Give what has become free to the misses and the accesses that wait for it, and let the tiles' requests go on. -/
def admitWaiting (s : State) : State :=
  let waiting := s.cache.waiting
  let blocked := s.cache.blocked
  let s1 := waiting.foldl (fun (t : State) (w : Initiator × Nat × BitVec 8) =>
      let hint := match findLine t w.2.1 with
        | some x => x.hint
        | none => hintClass t (64 * w.2.1)
      requestFill t w.1 w.2.1 w.2.2 hint)
    (s.onCache (fun c => { c with waiting := [], blocked := [] }))
  pumpTiles (blocked.foldl accessLine s1)

/-- The block that an engine of a tile is (Table 1.13). -/
def engineBlock (engine : Nat) : Nat := engine + 2

/-- A descriptor of tile `n` waits for a line some words of which fail: it faults where one of them is not delivered, and what it
made of them is undefined. -/
def burstFails (s : State) (line : Nat) (words : BitVec 8) : State :=
  let hit := fun (d : Issued) => d.waits.any (fun r => decide (r.lo / 64 = line ∧ wordMask line r.lo r.len &&& words ≠ 0))
  let lost := (List.range 8).any (fun i => words.getLsbD i && !isDetect s (64 * line + 8 * i) && !inSavedState s (64 * line + 8 * i))
  let s1 := s.tiles.foldl (fun (t : State) (e : Nat × Tile) => e.2.issued.foldl (fun t d => if hit d then forgetIssued t d else t) t) s
  if lost then
    { s1 with tiles := s1.tiles.map (fun (e : Nat × Tile) => (e.1, { e.2 with issued := e.2.issued.map (fun d =>
        if hit d then { d with
          fault := some (d.fault.getD (codeOf 2 (engineBlock d.engine) 0x0801))
          block := if d.fault.isSome then d.block else engineBlock d.engine
          reads := []
          writes := [] }
        else d) })) }
  else s1

/-- A burst of a line whose on-die ECC failed: its words become poison in a Detect region (R202) and uncorrectable in a Correct
one, held for repair where they are saved state (R195, R199, R200). -/
def failBurst (s : State) (line : Nat) (words : BitVec 8) : State :=
  let s1 := (List.range 8).foldl (fun t i =>
    let w := 8 * line + i
    if words.getLsbD i = false then t
    else if isDetect t (8 * w) then
      { t.onProt (fun p => { p with poisoned := countStore p.poisoned 3 }) with mem := putWord t.mem w (heldWord t.mem t.free w) true }
    else
      let u := spoilWord (t.onProt (fun p => { p with uncorrectable := countStore p.uncorrectable 3 })) w
      if inSavedState u (8 * w) then
        if u.prot.heldLines.any (fun h => decide (h.1 = line)) then u
        else raise (u.onProt (fun p => { p with heldLines := p.heldLines ++ [(line, 0x08)] })) (codeOf 8 0x08 0x0806) (64 * line)
      else u) s
  burstFails s1 line words

/-- SLICE_FILL_RETURN: the fill of a line returns, when its bank and bus serve it, and fills the words not written since the
request (R150, R154); a burst whose on-die ECC failed is an error of every word of it (R195, R202). A line held for repair
returns to nobody before its repair (R200). -/
def execSliceFillReturn (line : Nat) (onDieFail : Bool) (s : State) : Host.Outcome State Fault Refusal :=
  match s.cache.fills.find? (fun f => f.line == line) with
  | none => .next s
  | some f =>
    if sliceStopped s line || !hbmServes s line false then .next s
    else
      let s1 := hbmAccess (hbmServed (s.onCache (fun c => { c with fills := c.fills.filter (fun x => decide (x.line ≠ line)) })) line false)
        line (sectorBytes f.want) false
      let wanted := f.want &&& ~~~ f.written
      let failed := onDieFail || (List.range 8).any (fun i => wanted.getLsbD i && wordLost s1 (8 * line + i))
      let s2 := if failed then repairRowAt (if onDieFail then failBurst s1 line wanted else s1) (64 * line) else s1
      let s3 := match findLine s2 line with
        | some x =>
          let g := servingSet s2 (homeSet line)
          setLines s2 g ((linesOf s2 g).map (fun y => if y.line = line then { x with valid := x.valid ||| f.want } else y))
        | none => s2
      done s (admitWaiting (if s3.prot.heldLines.any (fun h => decide (h.1 = line)) then s3 else lineReturned s3 line))

/-- WRITE_BACK_COMPLETE: HBM accepts a write-back, when its bank and bus serve it, which frees its entry and buffer (R150, R155);
only dirty sectors travel (R173). -/
def execWriteBackComplete (line : Nat) (s : State) : Host.Outcome State Fault Refusal :=
  match s.cache.writebacks.find? (fun w => w.line == line) with
  | none => .next s
  | some w =>
    if sliceStopped s line || !hbmServes s line true then .next s
    else
      done s (admitWaiting (hbmAccess (hbmServed (s.onCache (fun c => { c with writebacks := c.writebacks.erase w })) line true) line
        (sectorBytes w.dirty) true))

/-- HBM_REFRESH: a per-bank refresh of a stack takes `busNs` of its data bus and closes the pages of the bank that the controller
chooses (R150). -/
def execHbmRefresh (stack busNs : Nat) (s : State) : Host.Outcome State Fault Refusal :=
  let bank := stack * 4096 + Config.unitChoice s.free stack % 4096
  done s (s.onCache (fun c => { c with
    refreshNs := tabCount c.refreshNs stack busNs
    openPages := tabErase c.openPages bank }))

/-- mem_counters_clear (R171). -/
def clearMemCounters (s : State) : State :=
  s.onCache (fun c => { c with
    readBytes := []
    writeBytes := []
    activates := []
    turns := []
    refreshNs := []
    hits := []
    misses := []
    evictions := []
    runaheadFills := 0
    runaheadDropped := 0 })

end Sys2Proof.Machine
end

