-- ==== Sys2Proof/Machine/Numeric.lean ====
section
/-! DEFINITION. Number formats and training numerics (03_numerics.md): decoding and encoding of the eight formats, exact values,
rounding to nearest even, stochastic rounding and its generator, MX block formation, the fixed-order reductions, the
value–remainder pair and the built-in update. Values are exact dyadic numbers; bits are natural numbers. -/

namespace Sys2Proof.Machine

open Sys2Proof

/-- A number as an operation sees it: canonical NaN, an infinity, or a signed exact value m × 2^e (m = 0 is a signed zero). -/
inductive FNum where
  | nan
  | inf (neg : Bool)
  | fin (neg : Bool) (m : Nat) (e : Int)
  deriving DecidableEq, Repr

/-- The shape of a floating format (Table 3.2): significand bits, exponent bits, and how the top exponent is used: 0 as in
IEEE 754, 1 only the all-ones significand is NaN (E4M3), 2 no special values (E2M1). -/
structure FloatShape where
  mbits : Nat
  ebits : Nat
  top : Nat
  deriving DecidableEq, Repr

/-- The shapes of the format codes of Table 3.1; code 0x4 (INT8) and reserved codes have none. -/
def shapeOf : Nat → Option FloatShape
  | 1 => some ⟨1, 2, 2⟩
  | 2 => some ⟨3, 4, 1⟩
  | 3 => some ⟨2, 5, 0⟩
  | 5 => some ⟨7, 8, 0⟩
  | 6 => some ⟨10, 5, 0⟩
  | 7 => some ⟨23, 8, 0⟩
  | 8 => some ⟨52, 11, 0⟩
  | _ => none

/-- Bits of an element of a format (Table 3.1). -/
def fmtBits : Nat → Nat
  | 1 => 4
  | 2 => 8
  | 3 => 8
  | 4 => 8
  | 5 => 16
  | 6 => 16
  | 7 => 32
  | 8 => 64
  | _ => 0

/-- Bytes of an element of a format; 0 for MXFP4 and reserved codes. -/
def fmtBytes (f : Nat) : Nat := fmtBits f / 8

/-- A code that Table 3.1 reserves (R52). -/
def fmtReserved (f : Nat) : Bool := decide (f = 0 ∨ 9 ≤ f)

/-- Number of significant bits of a natural number. -/
def bitLen (m : Nat) : Nat := if m = 0 then 0 else Nat.log2 m + 1

/-- The exponent bias of a shape. -/
def FloatShape.bias (s : FloatShape) : Nat := 2 ^ (s.ebits - 1) - 1

/-- The exponent of the smallest subnormal. -/
def FloatShape.qmin (s : FloatShape) : Int := 1 - (s.bias : Int) - (s.mbits : Int)

/-- The largest exponent field that a finite value uses. -/
def FloatShape.maxField (s : FloatShape) : Nat := if s.top = 0 then 2 ^ s.ebits - 2 else 2 ^ s.ebits - 1

/-- The largest significand, with its hidden bit, at the largest exponent field. -/
def FloatShape.maxSig (s : FloatShape) : Nat := if s.top = 1 then 2 ^ (s.mbits + 1) - 2 else 2 ^ (s.mbits + 1) - 1

/-- The canonical NaN of a format (R54). -/
def canonicalNaN : Nat → Nat
  | 2 => 0x7F
  | 3 => 0x7F
  | 5 => 0x7FC0
  | 6 => 0x7E00
  | 7 => 0x7FC00000
  | 8 => 0x7FF8000000000000
  | _ => 0

/-- The exact value of an element's bits (R53, R55). -/
def decodeNum (f bits : Nat) : FNum :=
  match shapeOf f with
  | none =>
    if f = 4 then
      let b := bits % 256
      if b < 128 then .fin false b 0 else .fin true (256 - b) 0
    else .nan
  | some s =>
    let mant := bits % 2 ^ s.mbits
    let field := bits / 2 ^ s.mbits % 2 ^ s.ebits
    let neg := decide (bits / 2 ^ (s.mbits + s.ebits) % 2 = 1)
    if s.top = 0 ∧ field = 2 ^ s.ebits - 1 then
      if mant = 0 then .inf neg else .nan
    else if s.top = 1 ∧ field = 2 ^ s.ebits - 1 ∧ mant = 2 ^ s.mbits - 1 then .nan
    else if field = 0 then .fin neg mant s.qmin
    else .fin neg (2 ^ s.mbits + mant) (s.qmin + (field : Int) - 1)

/-- Bits of a floating format with every NaN made canonical (R54). -/
def quiet (f bits : Nat) : Nat := if (shapeOf f).isSome ∧ decodeNum f bits = .nan then canonicalNaN f else bits

/-- m × 2^(−k) rounded to an integer, to nearest with ties to even. -/
def shiftRne (m k : Nat) : Nat :=
  let q := m / 2 ^ k
  let r := m % 2 ^ k
  if 2 * r < 2 ^ k then q else if 2 ^ k < 2 * r then q + 1 else q + q % 2

/-- m × 2^e as an integer multiple of 2^q, to nearest even. -/
def quantize (m : Nat) (e q : Int) : Nat :=
  if q ≤ e then m * 2 ^ (e - q).toNat else shiftRne m (q - e).toNat

/-- The significand and exponent of m × 2^e rounded once to precision `p`, no exponent below `qmin`, none too large. -/
def roundSig (p : Nat) (qmin : Int) (m : Nat) (e : Int) : Nat × Int :=
  let q0 := (bitLen m : Int) + e - (p : Int)
  let q := if q0 < qmin then qmin else q0
  let r := quantize m e q
  if r = 2 ^ p then (2 ^ (p - 1), q + 1) else (r, q)

/-- Sign bit placed for a format of `n` bits. -/
def signBit (neg : Bool) (n : Nat) : Nat := if neg then 2 ^ (n - 1) else 0

/-- The infinity of a format with one. -/
def infBits (s : FloatShape) (neg : Bool) : Nat :=
  signBit neg (s.mbits + s.ebits + 1) + (2 ^ s.ebits - 1) * 2 ^ s.mbits

/-- The largest finite value of a format. -/
def maxBits (s : FloatShape) (neg : Bool) : Nat :=
  signBit neg (s.mbits + s.ebits + 1) + s.maxField * 2 ^ s.mbits + s.maxSig % 2 ^ s.mbits

/-- Round a finite value to a format with RNE, handling range as Table 3.3 states (R58, R60). -/
def encodeFin (f : Nat) (s : FloatShape) (neg : Bool) (m : Nat) (e : Int) : Nat :=
  if m = 0 then signBit neg (s.mbits + s.ebits + 1) else
  let (r, q) := roundSig (s.mbits + 1) s.qmin m e
  let field := q - s.qmin + 1
  if r < 2 ^ s.mbits then signBit neg (s.mbits + s.ebits + 1) + r
  else if (s.maxField : Int) < field ∨ (field = s.maxField ∧ s.maxSig < r) then
    if f = 1 ∨ f = 2 then maxBits s neg else infBits s neg
  else signBit neg (s.mbits + s.ebits + 1) + field.toNat * 2 ^ s.mbits + r % 2 ^ s.mbits

/-- A signed integer as eight two's-complement bits after saturation (Table 3.3). -/
def saturateInt8 (neg : Bool) (m : Nat) : Nat :=
  if neg then (if 128 ≤ m then 128 else if m = 0 then 0 else 256 - m) else (if 127 ≤ m then 127 else m)

/-- The bits of a value converted to a format (R54, R58, R60). For E2M1 an infinity or a NaN gives element zero; its block's
scale is then 0xFF (R56). -/
def encodeNum (f : Nat) (x : FNum) : Nat :=
  match shapeOf f with
  | none =>
    if f = 4 then
      match x with
      | .nan => 0
      | .inf neg => if neg then 128 else 127
      | .fin neg m e => saturateInt8 neg (quantize m e 0)
    else 0
  | some s =>
    match x with
    | .nan => if f = 1 then 0 else canonicalNaN f
    | .inf neg => if f = 1 then 0 else if f = 2 then canonicalNaN 2 else infBits s neg
    | .fin neg m e => encodeFin f s neg m e

/-- A value rounded to a format and read back. -/
def roundNum (f : Nat) (x : FNum) : FNum := decodeNum f (encodeNum f x)

/-- Not an infinity and not a NaN (R57). -/
def FNum.finite : FNum → Bool
  | .fin _ _ _ => true
  | _ => false

/-- The bits of an element show a non-finite value of its format (R57). -/
def nonfiniteBits (f bits : Nat) : Bool := !(decodeNum f bits).finite

/-! ## Exact arithmetic -/

/-- An exact signed value i × 2^e. -/
structure ExactDyad where
  i : Int
  e : Int
  deriving DecidableEq, Repr

/-- A finite value as a dyadic. -/
def dyOf (neg : Bool) (m : Nat) (e : Int) : ExactDyad := ⟨if neg then -(m : Int) else (m : Int), e⟩

/-- The exact sum of two dyadics. -/
def ExactDyad.add (a b : ExactDyad) : ExactDyad :=
  if a.e ≤ b.e then ⟨a.i + b.i * 2 ^ (b.e - a.e).toNat, a.e⟩ else ⟨b.i + a.i * 2 ^ (a.e - b.e).toNat, b.e⟩

/-- Comparison of dyadics: a < b. -/
def ExactDyad.lt (a b : ExactDyad) : Bool :=
  if a.e ≤ b.e then decide (a.i < b.i * 2 ^ (b.e - a.e).toNat) else decide (a.i * 2 ^ (a.e - b.e).toNat < b.i)

/-- A dyadic as a number; a zero takes the sign given. -/
def ExactDyad.num (d : ExactDyad) (zeroNeg : Bool) : FNum :=
  if d.i = 0 then .fin zeroNeg 0 d.e else .fin (decide (d.i < 0)) d.i.natAbs d.e

/-- The negative of a number. -/
def FNum.neg : FNum → FNum
  | .nan => .nan
  | .inf s => .inf !s
  | .fin s m e => .fin (!s) m e

/-- The magnitude of a number. -/
def FNum.abs : FNum → FNum
  | .nan => .nan
  | .inf _ => .inf false
  | .fin _ m e => .fin false m e

/-- The sign of a number that is not a NaN. -/
def FNum.isNeg : FNum → Bool
  | .nan => false
  | .inf s => s
  | .fin s _ _ => s

/-- Zero of either sign. -/
def FNum.isZero : FNum → Bool
  | .fin _ m _ => decide (m = 0)
  | _ => false

/-- The exact sum: an exact zero is +0 unless both terms are −0 (R58); infinities follow IEEE 754. -/
def FNum.add : FNum → FNum → FNum
  | .nan, _ => .nan
  | _, .nan => .nan
  | .inf a, .inf b => if a = b then .inf a else .nan
  | .inf a, .fin _ _ _ => .inf a
  | .fin _ _ _, .inf b => .inf b
  | .fin a m e, .fin b n f =>
    ((dyOf a m e).add (dyOf b n f)).num (decide (m = 0) && decide (n = 0) && a && b)

/-- The exact difference. -/
def FNum.sub (x y : FNum) : FNum := x.add y.neg

/-- The exact product. -/
def FNum.mul : FNum → FNum → FNum
  | .nan, _ => .nan
  | _, .nan => .nan
  | .inf a, .inf b => .inf (xor a b)
  | .inf a, .fin b n _ => if n = 0 then .nan else .inf (xor a b)
  | .fin a m _, .inf b => if m = 0 then .nan else .inf (xor a b)
  | .fin a m e, .fin b n f => .fin (xor a b) (m * n) (e + f)

/-- The exact fused product and sum. -/
def FNum.fma (x y z : FNum) : FNum := (x.mul y).add z

/-- Scaling by a power of two, exact. -/
def FNum.scale (x : FNum) (k : Int) : FNum :=
  match x with
  | .fin s m e => .fin s m (e + k)
  | y => y

/-- The quotient carried to more bits than any format keeps, with a sticky last bit, so that one rounding of it is the rounding
of the exact quotient. -/
def FNum.div : FNum → FNum → FNum
  | .nan, _ => .nan
  | _, .nan => .nan
  | .inf _, .inf _ => .nan
  | .inf a, .fin b _ _ => .inf (xor a b)
  | .fin a _ _, .inf b => .fin (xor a b) 0 0
  | .fin a m e, .fin b n f =>
    if n = 0 then (if m = 0 then .nan else .inf (xor a b))
    else if m = 0 then .fin (xor a b) 0 0
    else
      let k := 128 + bitLen n
      let q := m * 2 ^ k / n
      let r := m * 2 ^ k % n
      .fin (xor a b) (2 * q + (if r = 0 then 0 else 1)) (e - f - (k : Int) - 1)

/-- The integer square root by bits from `b` − 1 down. -/
def isqrtBits : Nat → Nat → Nat → Nat
  | 0, _, r => r
  | b + 1, n, r => if (r + 2 ^ b) * (r + 2 ^ b) ≤ n then isqrtBits b n (r + 2 ^ b) else isqrtBits b n r

/-- The square root carried to more bits than any format keeps, with a sticky last bit. -/
def FNum.sqrt : FNum → FNum
  | .nan => .nan
  | .inf s => if s then .nan else .inf false
  | .fin s m e =>
    if m = 0 then .fin s 0 e
    else if s then .nan
    else
      let odd := e % 2 = 1
      let m' := if odd then 2 * m else m
      let e' := if odd then e - 1 else e
      let n := m' * 2 ^ 256
      let r := isqrtBits (bitLen n / 2 + 1) n 0
      .fin false (2 * r + (if r * r = n then 0 else 1)) (e' / 2 - 128 - 1)

/-- x > y; a NaN compares false. -/
def FNum.gt : FNum → FNum → Bool
  | .nan, _ => false
  | _, .nan => false
  | .inf a, .inf b => !a && b
  | .inf a, .fin _ _ _ => !a
  | .fin _ _ _, .inf b => b
  | .fin a m e, .fin b n f => (dyOf b n f).lt (dyOf a m e)

/-- The larger, with −0 below +0 and NaN if either is NaN (Table 4.14 MAX). -/
def FNum.max : FNum → FNum → FNum
  | .nan, _ => .nan
  | _, .nan => .nan
  | x, y => if x.gt y then x else if y.gt x then y else if x.isNeg then y else x

/-- The smaller, with the same rules (Table 4.14 MIN). -/
def FNum.min : FNum → FNum → FNum
  | .nan, _ => .nan
  | _, .nan => .nan
  | x, y => if x.gt y then y else if y.gt x then x else if x.isNeg then x else y

/-! ## The exact sum of a group (R62, R186) -/

/-- A running exact sum: a NaN or opposite infinities were met, an infinity was met, or an exact value; `allNegZero` while
every term so far is −0. -/
structure ExactSum where
  nan : Bool
  inf : Option Bool
  sum : ExactDyad
  allNegZero : Bool
  deriving DecidableEq, Repr

/-- The empty sum. -/
def ExactSum.empty : ExactSum := ⟨false, none, ⟨0, 0⟩, true⟩

/-- One more term. -/
def ExactSum.addTerm (a : ExactSum) : FNum → ExactSum
  | .nan => { a with nan := true }
  | .inf s =>
    match a.inf with
    | none => { a with inf := some s }
    | some t => if s = t then a else { a with nan := true }
  | .fin s m e => { a with sum := a.sum.add (dyOf s m e), allNegZero := a.allNegZero && s && decide (m = 0) }

/-- The value of an exact sum; a sum without terms is +0. -/
def ExactSum.value (a : ExactSum) (terms : Bool) : FNum :=
  if a.nan then .nan else
  match a.inf with
  | some s => .inf s
  | none => a.sum.num (terms && a.allNegZero)

/-- The exact sum of a list of terms (range and precision without bound). -/
def exactSum (l : List FNum) : FNum := (l.foldl ExactSum.addTerm ExactSum.empty).value (!l.isEmpty)

/-! ## Stochastic rounding -/

/-- The mixing function of R67. -/
def mix64 (z : BitVec 64) : BitVec 64 :=
  let a := (z ^^^ (z >>> 30)) * 0xbf58476d1ce4e5b9
  let b := (a ^^^ (a >>> 27)) * 0x94d049bb133111eb
  b ^^^ (b >>> 31)

/-- The 32-bit draw of R67. -/
def draw (seed step : BitVec 64) (tensorId site : BitVec 32) (index : BitVec 64) : Nat :=
  let a := mix64 (seed ^^^ mix64 step)
  let b := mix64 (a ^^^ ((tensorId.zeroExtend 64 <<< 32) ||| site.zeroExtend 64))
  let c := mix64 (b ^^^ index)
  (c >>> 32).toNat

/-- Stochastic rounding of an exact value to binary32 with draw `u` (R66). -/
def roundStochastic (x : FNum) (u : Nat) : Nat :=
  match x with
  | .fin neg m e =>
    if m = 0 then encodeNum 7 x else
    let s : FloatShape := ⟨23, 8, 0⟩
    let q0 := (bitLen m : Int) + e - 24
    let q := if q0 < s.qmin then s.qmin else q0
    if q ≤ e then encodeNum 7 x
    else
      let k := (q - e).toNat
      let lo := m / 2 ^ k
      let r := m % 2 ^ k
      if r = 0 then encodeNum 7 x
      else if (104 : Int) < q ∨ (q = 104 ∧ 2 ^ 24 - 1 ≤ lo) then encodeNum 7 x
      else
        let t := r * 2 ^ 32 / 2 ^ k
        encodeNum 7 (.fin neg (if u < t then lo + 1 else lo) q)
  | y => encodeNum 7 y

/-- How a rounding is made at a site: under profile H with sr_mode 0 by the draw, otherwise with RNE (R65). -/
structure Rounding where
  stochastic : Bool
  seed : BitVec 64
  step : BitVec 64
  tensorId : BitVec 32
  site : BitVec 32
  deriving DecidableEq, Repr

/-- The site word of R67: kind in 31..28, ordinal in 27..0. -/
def siteWord (kind ordinal : Nat) : BitVec 32 := BitVec.ofNat 32 (kind % 16 * 2 ^ 28 + ordinal % 2 ^ 28)

/-- An exact value rounded to binary32 at a site, for the element with the given index. -/
def roundAt (r : Rounding) (index : BitVec 64) (x : FNum) : Nat :=
  if r.stochastic then roundStochastic x (draw r.seed r.step r.tensorId r.site index) else encodeNum 7 x

/-! ## MX blocks -/

/-- The largest element exponent of an MX element format (R61). -/
def emaxElem : Nat → Int
  | 1 => 2
  | 2 => 8
  | _ => 15

/-- The largest magnitude of a block of finite values. -/
def blockMax (l : List FNum) : FNum := l.foldl (fun a x => if x.abs.gt a then x.abs else a) (.fin false 0 0)

/-- Block formation of R61: the scale byte and the elements of a block in an element format. -/
def mxBlock (f : Nat) (l : List FNum) : Nat × List Nat :=
  if l.any (fun x => !x.finite) then (0xFF, l.map (fun _ => 0))
  else
    match blockMax l with
    | .fin _ m e =>
      if m = 0 then (0, l.map (encodeNum f))
      else
        let x := (bitLen m : Int) - 1 + e - emaxElem f
        let c := if x < -127 then -127 else if 127 < x then 127 else x
        ((c + 127).toNat, l.map (fun v => encodeNum f (v.scale (-c))))
    | _ => (0, l.map (encodeNum f))

/-- The value of an MX element: element × 2^(scale − 127), NaN under scale 0xFF (R53, R56). -/
def mxValue (f scale bits : Nat) : FNum :=
  if scale = 0xFF then .nan else (decodeNum f bits).scale ((scale : Int) - 127)

/-! ## Reductions of R64 -/

/-- Combine two lanes, an empty one yielding the other unchanged. -/
def lanePair (op : FNum → FNum → FNum) : Option FNum → Option FNum → Option FNum
  | none, y => y
  | x, none => x
  | some x, some y => some (op x y)

/-- One level of the pairwise combination. -/
def lanePairs (op : FNum → FNum → FNum) : List (Option FNum) → List (Option FNum)
  | x :: y :: l => lanePair op x y :: lanePairs op l
  | l => l

/-- `k` levels of the pairwise combination. -/
def laneTree (op : FNum → FNum → FNum) : Nat → List (Option FNum) → List (Option FNum)
  | 0, l => l
  | k + 1, l => laneTree op k (lanePairs op l)

/-- Put the terms into 128 lanes: term i enters lane i mod 128 in ascending order. -/
def laneFill (op : FNum → FNum → FNum) : Nat → List FNum → List (Option FNum) → List (Option FNum)
  | _, [], lanes => lanes
  | i, x :: l, lanes =>
    laneFill op (i + 1) l (listSetLane lanes (i % 128) (lanePair op (listGetLane lanes (i % 128)) (some x)))
where
  listSetLane : List (Option FNum) → Nat → Option FNum → List (Option FNum)
    | [], _, _ => []
    | _ :: l, 0, v => v :: l
    | x :: l, i + 1, v => x :: listSetLane l i v
  listGetLane : List (Option FNum) → Nat → Option FNum
    | [], _ => none
    | x :: _, 0 => x
    | _ :: l, i + 1 => listGetLane l i

/-- The fixed-order reduction of R64 with a combination in the working format; `none` when there is no term. -/
def laneReduce (op : FNum → FNum → FNum) (terms : List FNum) : Option FNum :=
  match laneTree op 7 (laneFill op 0 terms (List.replicate 128 none)) with
  | x :: _ => x
  | [] => none

/-- A sum in the order of R64, rounded in format `f` at every combination; +0 without terms. -/
def laneSum (f : Nat) (terms : List FNum) : FNum :=
  (laneReduce (fun a b => roundNum f (a.add b)) terms).getD (.fin false 0 0)

/-- A maximum in the order of R64; −infinity without terms. -/
def laneMax (terms : List FNum) : FNum :=
  (laneReduce FNum.max terms).getD (.inf true)

/-! ## Value–remainder pairs and the update -/

/-- join of R69. -/
def joinPair (w rem : Nat) : Nat := w % 65536 * 65536 + rem % 65536

/-- split of R69. -/
def splitPair (x : Nat) : Nat × Nat := (x / 65536 % 65536, x % 65536)

/-- The nine coefficients of R71 in the working format. -/
structure Coefs where
  lr : FNum
  beta1 : FNum
  beta2 : FNum
  eps : FNum
  decay : FNum
  c1 : FNum
  c2 : FNum
  bc1 : FNum
  bc2 : FNum
  deriving DecidableEq, Repr

/-- The update of R71 for one element, in working format `wf` (7 or 8): binary32 bits of x1, a1 and v1. -/
def updateElement (wf : Nat) (c : Coefs) (k : Nat) (g x a v : FNum) : Nat × Nat × Nat :=
  let r := roundNum wf
  let gu := r (g.scale (-(k : Int)))
  let a1 := r (c.beta1.fma a (r (c.c1.mul gu)))
  let v1 := r (c.beta2.fma v (r (c.c2.mul (r (gu.mul gu)))))
  let d := r ((r (a1.mul c.bc1)).div (r ((r (FNum.sqrt (r (v1.mul c.bc2)))).add c.eps)))
  let x1 := r (c.lr.neg.fma (r (c.decay.fma x d)) x)
  (encodeNum 7 x1, encodeNum 7 a1, encodeNum 7 v1)

/-- The working format of the update: binary64 in wide state mode under profile H, otherwise binary32 (R71, Table 3.5). -/
def updateFormat (profile mode : Nat) : Nat := if profile = 2 ∧ mode = 1 then 8 else 7

/-- beta^t by square-and-multiply over the bits of t from the most significant, each product rounded in binary64 (R131). -/
def powBits (beta : FNum) (t : Nat) : Nat → FNum → FNum
  | 0, acc => acc
  | b + 1, acc =>
    let sq := roundNum 8 (acc.mul acc)
    powBits beta t b (if t / 2 ^ b % 2 = 1 then roundNum 8 (sq.mul beta) else sq)

/-- The coefficient block of R131 as nine binary64 bit patterns, from the group's coefficients and t = update_count + 1. -/
def coefficientBlock (lr beta1 beta2 eps decay : Nat) (t : Nat) : List Nat :=
  let one : FNum := .fin false 1 0
  let b1 := decodeNum 8 beta1
  let b2 := decodeNum 8 beta2
  let pow := fun b => powBits b t (bitLen t) one
  let bc := fun b => encodeNum 8 (one.div (roundNum 8 (one.sub (pow b))))
  [lr, beta1, beta2, eps, decay, encodeNum 8 (one.sub b1), encodeNum 8 (one.sub b2), bc b1, bc b2]

/-- The coefficients read in a working format, each rounded once (R109). -/
def coefsOf (wf : Nat) (l : List Nat) : Coefs :=
  let c := fun i => roundNum wf (decodeNum 8 (l.getD i 0))
  ⟨c 0, c 1, c 2, c 3, c 4, c 5, c 6, c 7, c 8⟩

/-- The accumulation group of a matrix operation (R62, Table 3.7). -/
def groupSize (profile engFmt : Nat) : Nat :=
  if engFmt = 7 then 1 else if profile = 2 then 32 else if profile = 1 then 16 else 1

/-- A matrix input under the profile: subnormals read as zero with their sign under profile F (R55). -/
def flushInput (profile f : Nat) (x : FNum) : FNum :=
  match shapeOf f, x with
  | some s, .fin neg m e =>
    if profile = 0 ∧ m < 2 ^ s.mbits ∧ e = s.qmin then .fin neg 0 e else .fin neg m e
  | _, y => y

/-- Matrix formats a profile allows (Table 3.7): operand format and MX scale. -/
def profileAllows (profile f : Nat) : Bool :=
  if profile = 2 then decide (1 ≤ f ∧ f ≤ 7)
  else if profile = 1 then decide (2 ≤ f ∧ f ≤ 7)
  else decide (5 ≤ f ∧ f ≤ 7)

end Sys2Proof.Machine
end

