-- ==== Sys2Proof/Machine/Tile.lean ====
section
/-! DEFINITION. The tile's sequencer (R81 to R97, R114 to R116): reading for an engine, tensor descriptors, hazards, issue, loops and
traps; what every descriptor row shares. -/

namespace Sys2Proof.Machine

open Sys2Proof

/-! ## Results of an engine's work -/

/-- What a part of a descriptor's work gives: a value, a fault, or a wait on a line held for repair (R200). -/
inductive Got (α : Type) where
  | ok (a : α)
  | fault (c : Code)
  | wait
  deriving DecidableEq, Repr

/-- Go on with a value; a fault or a wait ends the work. -/
def Got.andThen {α β : Type} (r : Got α × State) (f : α → State → Got β × State) : Got β × State :=
  match r with
  | (.ok a, s) => f a s
  | (.fault c, s) => (.fault c, s)
  | (.wait, s) => (.wait, s)

/-- Do something for every element of a list, gathering the values in order. -/
def Got.each {α β : Type} (f : α → State → Got β × State) : List α → State → Got (List β) × State
  | [], s => (.ok [], s)
  | a :: l, s =>
    match f a s with
    | (.ok b, s1) =>
      match Got.each f l s1 with
      | (.ok r, s2) => (.ok (b :: r), s2)
      | (.fault c, s2) => (.fault c, s2)
      | (.wait, s2) => (.wait, s2)
    | (.fault c, s1) => (.fault c, s1)
    | (.wait, s1) => (.wait, s1)

/-- Read bytes for an initiator, faults carrying the block (R26, R199, R200). -/
def readFor (who : Initiator) (block a len : Nat) (s : State) : Got Bytes × State :=
  match accessDetail s who false a len with
  | some d => (.fault (codeOf 2 block d), s)
  | none =>
    match readBytes (lookupTags s a len) a len with
    | (b, s1) => if b.held then (.wait, s1) else if b.error then (.fault (codeOf 2 block 0x0801), s1) else (.ok b, s1)

/-- Bytes to be written: by address, each with its poison mark. -/
abbrev Bundle := Tab (Byte × Bool)

/-- Put bytes into a bundle from an address up; a later byte of one address replaces an earlier one. -/
def bundlePut (b : Bundle) (a : Nat) : List Byte → Bool → Bundle
  | [], _ => b
  | x :: l, p => bundlePut (tabInsert b a (x, p)) (a + 1) l p

/-- The maximal runs of adjoining addresses of a bundle. -/
def bundleRuns : Bundle → List (Nat × List (Byte × Bool))
  | [] => []
  | (a, x) :: t =>
    match bundleRuns t with
    | (b, l) :: r => if b = a + 1 then (a, x :: l) :: r else (a, [x]) :: (b, l) :: r
    | [] => [(a, [x])]

/-- Write the runs of a bundle; the flags as `writeMarked` gives them. -/
def writeRuns : List (Nat × List (Byte × Bool)) → State → State × Bool × Bool
  | [], s => (s, false, false)
  | (a, l) :: r, s =>
    let (s1, e1, h1) := writeMarked s a l
    let (s2, e2, h2) := writeRuns r s1
    (s2, e1 || e2, h1 || h2)

/-- The detail of the first forbidden run of a bundle. -/
def bundleDetail (s : State) (who : Initiator) (b : Bundle) : Option Nat :=
  (bundleRuns b).findSome? (fun r => accessDetail s who true r.1 r.2.length)

/-- Forget the bytes of a bundle: the destination of work that faulted is undefined (R115, R167). -/
def forgetBundle (s : State) (b : Bundle) : State :=
  { s with mem := (bundleRuns b).foldl (fun m r => forget m r.1 (r.1 + r.2.length)) s.mem }

/-- Write a bundle whole, or not at all where a forbidden byte (R26) or a line held for repair (R200) stands in the way; an
uncorrectable word (Table 8.5) is a fault. -/
def writeFor (who : Initiator) (block : Nat) (b : Bundle) (s : State) : Got Unit × State :=
  match bundleDetail s who b with
  | some d => (.fault (codeOf 2 block d), s)
  | none =>
    match writeRuns (bundleRuns b) s with
    | (s1, e, h) =>
      if h then (.wait, { s with prot := s1.prot, dict := s1.dict })
      else if e then (.fault (codeOf 2 block 0x0801), s1)
      else (.ok (), s1)

/-! ## Base registers, tensors -/

/-- A base register: b15 reads zero (R84). -/
def regVal (t : Tile) (r : Nat) : Nat := if r = 15 then 0 else (t.regs.getD r 0).toNat

/-- Write a base register: b15 stays zero (R84). -/
def setReg (t : Tile) (r v : Nat) : Tile := if r = 15 then t else { t with regs := listSet t.regs r (BitVec.ofNat 64 v) }

/-- Base register plus offset, modulo 2^64. -/
def baseOffset (t : Tile) (r off : Nat) : Nat := (regVal t r + off) % 2 ^ 64

/-- First address of a tile's own tile store. -/
def ownBase (n : Nat) : Nat := tileBase + n * 0x200000

/-- A tensor as its descriptor gives it (Table 4.13). -/
structure Tensor where
  addr : Nat
  fmt : Nat
  acc : Bool
  bank : Nat
  ext : List Nat
  stride : List Int
  deriving DecidableEq, Repr

/-- Extent of dimension `d`. -/
def Tensor.extent (x : Tensor) (d : Nat) : Nat := x.ext.getD d 1

/-- Stride of dimension `d`. -/
def Tensor.step (x : Tensor) (d : Nat) : Int := x.stride.getD d 0

/-- Bytes of an element; one for the two packed elements of MXFP4. -/
def elemBytes (fmt : Nat) : Nat := if fmt = 1 then 1 else fmtBytes fmt

/-- The elements of a tensor. -/
def Tensor.count (x : Tensor) : Nat := x.ext.foldl (· * ·) 1

/-- All coordinates of an extent vector: dimension 4 outermost (R105). -/
def coords : List Nat → List (List Nat)
  | [] => [[]]
  | e :: l => (coords l).flatMap (fun c => (List.range e).map (fun i => i :: c))

/-- A coordinate in a tensor that repeats along dimensions of extent 1 (R105). -/
def clipCoord (ext c : List Nat) : List Nat := List.zipWith (fun e i => if e = 1 then 0 else i) ext c

/-- The sum of coordinate times stride, dimension 0 packed two to a byte for MXFP4 (R99, R104). -/
def strideSum (fmt : Nat) (c : List Nat) (st : List Int) : Int :=
  match c, st with
  | i :: cs, k :: ks =>
    (if fmt = 1 then ((i / 2 : Nat) : Int) else (i : Int) * k) + (List.zipWith (fun (j : Nat) (k : Int) => (j : Int) * k) cs ks).foldl (· + ·) 0
  | _, _ => 0

/-- An address computed modulo 2^64. -/
def wrapAddr (a : Int) : Nat := (a % 2 ^ 64).toNat

/-- The address of an element, or its offset in the bank. -/
def Tensor.at (x : Tensor) (c : List Nat) : Nat := wrapAddr ((x.addr : Int) + strideSum x.fmt c x.stride)

/-- The lowest and highest byte that a tensor may touch, over its full extents (R89). -/
def Tensor.span (x : Tensor) : Int × Int :=
  let ends := List.zipWith (fun (e : Nat) (k : Int) => ((e : Int) - 1) * k) x.ext
    (if x.fmt = 1 then 0 :: x.stride.drop 1 else x.stride)
  let packed : Int := if x.fmt = 1 then (((x.extent 0 - 1) / 2 : Nat) : Int) else 0
  ((x.addr : Int) + ends.foldl (fun a k => if k < 0 then a + k else a) 0,
   (x.addr : Int) + ends.foldl (fun a k => if 0 < k then a + k else a) 0 + packed + (elemBytes x.fmt : Int) - 1)

/-- Every element address is a multiple of the element's size (R104). -/
def Tensor.aligned (x : Tensor) : Bool :=
  let es := elemBytes x.fmt
  decide (es ≤ 1) || (decide (x.addr % es = 0) &&
    (List.zipWith (fun (e : Nat) (k : Int) => decide (e ≤ 1 ∨ k % (es : Int) = 0)) x.ext x.stride).all id)

/-- A code of Table 4.19. -/
def malformed (d : Nat) : Code := codeOf 4 1 (0x0100 + d)

/-- The tensor that 64 bytes describe, read with the registers of a tile; the code of a malformed one. `side` for a descriptor
whose extents are ignored and whose acc must be 0 (R109 to R111). -/
def tensorOf (t : Tile) (v : Nat) (side : Bool) : Except Code Tensor :=
  let ext := [bitsAt v 64 24, bitsAt v 88 16, bitsAt v 104 16, bitsAt v 128 16, bitsAt v 144 16]
  let stride := signed 32 (bitsAt v 160 32) :: [192, 256, 320, 384].map (fun b => signed 64 (bitsAt v b 64))
  let fmt := bitsAt v 52 4
  let acc := bitAt v 56
  if bitsAt v 58 6 ≠ 0 ∨ bitsAt v 120 8 ≠ 0 ∨ bitsAt v 448 64 ≠ 0 then .error (malformed 0x02)
  else if side = false ∧ ext.contains 0 then .error (malformed 0x04)
  else if acc then
    let x : Tensor := ⟨bitsAt v 4 48, fmt, true, bitsAt v 57 1, ext, stride⟩
    if side then .error (malformed 0x06)
    else if bitsAt v 0 4 ≠ 15 ∨ fmt ≠ 7 ∨ x.span.1 < 0 ∨ 65536 ≤ x.span.2 then .error (malformed 0x0A)
    else .ok x
  else .ok ⟨baseOffset t (bitsAt v 0 4) (bitsAt v 4 48), fmt, false, 0, ext, stride⟩

/-- Fetch 64 bytes for the sequencer: a descriptor or a tensor descriptor (R86, R114, R199). -/
def fetch64 (n a : Nat) (s : State) : Got Nat × State :=
  if a % 64 ≠ 0 then (.fault (malformed 0x0C), s)
  else
    Got.andThen (readFor (.pip n) 1 a 64 s) (fun b s1 =>
      if b.poisoned then (.fault 0x02010802, s1) else (.ok b.nat, s1))

/-- The tensor that a pointer names (Table 4.12); none where it is absent. -/
def fetchTensor (n : Nat) (t : Tile) (pointer : Nat) (side : Bool) (s : State) : Got (Option Tensor) × State :=
  if bitsAt pointer 52 11 ≠ 0 then (.fault (malformed 0x02), s)
  else if bitAt pointer 63 = false then (.ok none, s)
  else
    Got.andThen (fetch64 n (baseOffset t (bitsAt pointer 0 4) (bitsAt pointer 4 48)) s) (fun v s1 =>
      match tensorOf t v side with
      | .ok x => (.ok (some x), s1)
      | .error c => (.fault c, s1))

/-! ## Footprints and hazards (R89) -/

/-- The part of a byte interval that lies in a tile's own tile store. -/
def storePart (n : Nat) (lo hi : Int) (writes : Bool) : List Interval :=
  let b : Int := ownBase n
  let e : Int := b + 0x180000
  if hi < b ∨ e ≤ lo then []
  else [⟨0, (max lo b).toNat, (min hi (e - 1)).toNat, writes⟩]

/-- The footprint of a tensor with `more` bytes beyond its span (the planes of R109); a bank counts as used whole. -/
def footprintOf (n : Nat) (x : Tensor) (more : Nat) (writes : Bool) : List Interval :=
  if x.acc then [⟨1 + x.bank, 0, 65535, true⟩] else storePart n x.span.1 (x.span.2 + more) writes

/-- Two intervals stand in each other's way. -/
def conflict (a b : Interval) : Bool :=
  decide (a.bank = b.bank) && (a.writes || b.writes) && decide (a.lo ≤ b.hi ∧ b.lo ≤ a.hi)

/-- A descriptor of the footprint may issue: no hazard against an issued one, and room on the scoreboard of 64 intervals. -/
def hazardFree (t : Tile) (foot : List Interval) : Bool :=
  t.issued.all (fun d => d.foot.all (fun a => foot.all (fun b => !conflict a b))) &&
    decide ((t.issued.foldl (fun k d => k + d.foot.length) 0) + foot.length ≤ 64)

/-! ## Traps (R114 to R116) -/

/-- The iteration indexes of the innermost four open loops. -/
def loopIterations (t : Tile) : List Nat := (t.loops.take 4).map (fun l => l.done)

/-- A fault of a descriptor of tile `n` is detected: issue stops, the earliest in program order is kept, every fault is counted. -/
def detectTrap (s : State) (n : Nat) (i : TrapInfo) : State :=
  onTile s n (fun t => { t with
    trapCount := t.trapCount + 1
    trap := match t.trap with
      | none => some i
      | some j => if i.number < j.number then some i else some j })

/-- What a trap record says of a fault of the descriptor at the program counter. -/
def faultHere (t : Tile) (c : Code) : TrapInfo :=
  ⟨t.nextNumber, c, bitsAt c.toNat 16 8, t.loops.length, t.pc, loopIterations t⟩

/-- A fault of the next descriptor is detected. -/
def trapHere (s : State) (n : Nat) (c : Code) : State := detectTrap s n (faultHere (tileOf s n) c)

/-! ## Issue (R88, R91, R92, R94) -/

/-- Leave the descriptor at `pc`: the innermost loops whose body ends there add their increments, repeat or end (R94). -/
def leaveLoops (pc : Nat) : List Loop → Tile → Tile
  | [], t => { t with loops := [], pc := (pc + 64) % 2 ^ 64 }
  | l :: ls, t =>
    if l.last = pc then
      if 1 < l.left then
        { (l.slots.foldl (fun t x => setReg t x.reg (regVal t x.reg + x.inc.toNat)) t) with
          loops := { l with left := l.left - 1, done := l.done + 1 } :: ls
          pc := l.first }
      else leaveLoops pc ls (l.slots.foldl (fun t x => setReg t x.reg x.entry.toNat) t)
    else { t with loops := l :: ls, pc := (pc + 64) % 2 ^ 64 }

/-- Add 1 to a synchronisation counter of a tile, modulo 2^32 (R92). -/
def signalCounter (s : State) (target : Option (Nat × Nat)) : State :=
  match target with
  | some (n, c) => onTile s n (fun t => { t with counters := tabModify 0 t.counters c (fun v => (v + 1) % 2 ^ 32) })
  | none => s

/-- The signal that a descriptor's header asks for. -/
def signalOf (d : Nat) : Option (Nat × Nat) := if bitAt d 17 then some (bitsAt d 22 10, bitsAt d 18 4) else none

/-- The fences that a header sets are satisfied (Table 4.3). -/
def fencesMet (t : Tile) (d : Nat) : Bool :=
  t.issued.all (fun x => !((bitAt d 8 && x.engine == 0) || (bitAt d 9 && x.engine == 1) || (bitAt d 10 && x.engine == 2)))

/-- The counter condition of a header holds. -/
def counterMet (t : Tile) (d : Nat) : Bool :=
  !bitAt d 16 || decide (bitsAt d 32 32 ≤ tabGet 0 t.counters (bitsAt d 12 4))

/-- What a checked descriptor will do at issue: its engine (3 for the sequencer itself) and channel, its footprint, the bytes that
it touches, and its effect. -/
structure Issue where
  engine : Nat
  channel : Nat
  foot : List Interval
  named : List Nat             -- addresses of the descriptors that it names
  index : List Run             -- index elements that it reads
  sources : List Run           -- what else it reads
  dests : List Run             -- what it writes
  bankDests : List Run         -- what it writes of accumulator banks
  run : State → Got Unit × State

/-- The tile's handshakes run: neither its layer nor its own supervisor has stopped it (R32, R216). -/
def tilePowered (s : State) (n : Nat) : Bool :=
  !s.power.stopped.contains 5 && !s.power.tileFloor.contains (s.stack.tileMap.getD n 0xFFFF)

/-- A tile runs a program and issues. -/
def tileIssues (s : State) (n : Nat) : Bool :=
  let t := tileOf s n
  decide (t.state = 1 ∨ t.state = 2) && t.trap.isNone && tilePowered s n

/-- The sequencer holds its next descriptor for a cause of Table 6.13. -/
def holdFor (s : State) (n cause : Nat) : State := onTile s n (fun t => { t with hold := some cause })

/-- A run lies beyond the tile's own tile store. -/
def beyondStore (n : Nat) (r : Run) : Bool := decide (r.lo < ownBase n ∨ ownBase n + 0x180000 < r.lo + r.len)

/-- The parts of runs on one line each. -/
def lineRunsOf (l : List Run) : List Run := (lineReads false l).map (fun r => ⟨r.lo, r.len⟩)

/-- Adjoining runs made one. -/
def mergeRuns : List Run → List Run
  | [] => []
  | r :: l =>
    match mergeRuns l with
    | q :: rest => if q.lo = r.lo + r.len then ⟨r.lo, r.len + q.len⟩ :: rest else r :: q :: rest
    | [] => [r]

/-- The runs of a tensor's elements in memory, in element order. -/
def Tensor.runs (x : Tensor) : List Run :=
  if x.acc then [] else mergeRuns ((coords x.ext).map (fun c => ⟨x.at c, elemBytes x.fmt⟩))

/-- The runs of a tensor's elements in the accumulator banks of tile `n`. -/
def Tensor.bankRuns (n : Nat) (x : Tensor) : List Run :=
  if x.acc then mergeRuns ((coords x.ext).map (fun c => ⟨bankAt n x.bank (x.at c), 4⟩)) else []

/-- No order stands between two issued descriptors: only streams on one channel of a tile have one (R90, R97). -/
def unordered (n : Nat) (d : Issued) (m : Nat) (e : Issued) : Bool :=
  !(n == m && d.engine == 2 && e.engine == 2 && d.channel == e.channel)

/-- A descriptor of tile `n` that has just run, against those that run: what it made of bytes that another writes is undefined,
and so is what its writes spoil for another (R90); so is everything it made where its program was rewritten while it ran
(R86). -/
def orderIssued (s : State) (n : Nat) (d : Issued) : State :=
  let others := (inFlight s).filter (fun e => unordered n d e.1 e.2)
  let s1 := raceWrites (noteWritten s d.dests) others d.dests
  let stale := s1.uses.any (fun e => e.1 == n && e.2.stale)
  if stale || others.any (fun e => runsMeet d.sources e.2.dests) then forgetIssued s1 d else s1

/-- The cause of a hazard: late data of a stream, or an earlier MATMUL or VECTOR (Table 6.13). -/
def hazardCause (t : Tile) (foot : List Interval) : Nat :=
  if t.issued.any (fun d => d.engine == 2 && d.foot.any (fun a => foot.any (fun b => conflict a b))) then 1 else 0

/-- What a tile keeps of a descriptor that an engine runs (R89 to R91, R161): one that faulted makes no further request. -/
def issuedEntry (n : Nat) (t : Tile) (d : Nat) (x : Issue) (fault : Option Code) : Issued where
  number := t.nextNumber
  engine := x.engine
  channel := x.channel
  foot := x.foot
  signal := signalOf d
  fault := fault
  block := bitsAt (fault.getD 0).toNat 16 8
  pc := t.pc
  depth := t.loops.length
  iterations := loopIterations t
  reads := if fault.isSome then [] else lineReads true (x.index.filter (beyondStore n)) ++ lineReads false (x.sources.filter (beyondStore n))
  waits := []
  writes := if fault.isSome then [] else lineRunsOf (x.dests.filter (beyondStore n))
  sources := x.index ++ x.sources
  dests := x.dests
  bankDests := x.bankDests

/-- The home slices' part of the sequencer's fetches: the descriptor at `pc` and those that it names (R24, R86, R88). -/
def fetchSlices (s : State) (n pc : Nat) (named : List Nat) : State :=
  (pc :: named).foldl (fun t a => accessSlices t (.pip n) a 64 false) (noteFetched s n (pc :: named))

/-- The descriptor is issued: counted, left behind, and kept as issued unless the sequencer itself has done it, when its signal
goes out at once (R91); its requests go to the home slices (R24, R161). -/
def issued (s : State) (n d : Nat) (x : Issue) (fault : Option Code) : State :=
  let t := tileOf s n
  let entry := issuedEntry n t d x fault
  let s0 := fetchSlices (if x.engine = 3 then s else orderIssued s n entry) n t.pc x.named
  let s1 := onTile s0 n (fun t =>
    let u := leaveLoops t.pc t.loops { t with state := 1, hold := none, nextNumber := t.nextNumber + 1, descriptors := t.descriptors + 1 }
    if x.engine = 3 then u else { u with issued := u.issued ++ [entry] })
  if x.engine = 3 then signalCounter (x.sources.foldl (fun s r => accessSlices s (.pip n) r.lo r.len false) s1) (signalOf d)
  else pumpTile (requestsLeft (tileOf s1 n)) s1 n

/-- The gate of a tile's row lets its sequencer issue to the engines (R314). -/
def gateOpen (s : State) (n : Nat) : Bool := decide (rowGate s (s.stack.tileMap.getD n 0 / 24) ≠ 0)

/-- Issue a descriptor that has been checked, or wait at the fence, counter, hazard or gate that holds it (R88, R93, R314). -/
def issueChecked (s : State) (n d : Nat) (x : Issue) : State :=
  let t := tileOf s n
  if fencesMet t d = false then onTile s n (fun t => { t with state := 1, hold := some 8 })
  else if counterMet t d = false then
    onTile s n (fun t => { t with state := 2, wait := (bitsAt d 12 4, bitsAt d 32 32), hold := some 8 })
  else if hazardFree t x.foot = false then onTile s n (fun t => { t with state := 1, hold := some (hazardCause t x.foot) })
  else if x.engine ≠ 3 ∧ gateOpen s n = false then onTile s n (fun t => { t with state := 1, hold := some 9 })
  else
    match x.run s with
    | (.ok _, s1) => issued s1 n d x none
    | (.wait, s1) => holdFor s1 n 10
    | (.fault c, s1) => if x.engine = 3 then trapHere s1 n c else issued s1 n d x (some c)

/-- The operation codes of Table 4.4. -/
def opKnown (op : Nat) : Bool := [0x00, 0x01, 0x02, 0x03, 0x08, 0x10, 0x20, 0x3F].contains op

/-- The vector operations of Table 4.14. -/
def vopKnown (v : Nat) : Bool :=
  decide ((1 ≤ v ∧ v ≤ 0x15) ∨ v = 0x18 ∨ (0x20 ≤ v ∧ v ≤ 0x23) ∨ v = 0x30 ∨ v = 0x31 ∨ v = 0x40)

/-- One descriptor of tile `n`, if the one at its program counter is of the kind that `kind` accepts: fetched, checked by `prep`
under the rules that all descriptors share (Table 4.3, R87), and issued. A fault of fetching it and a reserved operation code
are taken whatever the kind. R87 gives no order among the ways in which a descriptor is malformed: the operation code, the
header and then the rest, reserved fields first, is the model's choice (DESIGN CHOICE, assumption 62). -/
def runDescriptor (n : Nat) (kind : Nat → Bool) (prep : Nat → State → Got Issue × State) (s : State) : State :=
  let t := tileOf s n
  if tileIssues s n = false then s
  else
    match fetch64 n t.pc s with
    | (.fault c, s1) => trapHere s1 n c
    | (.wait, s1) => holdFor s1 n 10
    | (.ok d, s1) =>
      let op := bitsAt d 0 8
      if opKnown op = false ∨ (op = 0x20 ∧ vopKnown (bitsAt d 64 8) = false) then trapHere s1 n (malformed 0x01)
      else if kind d = false then s
      else if bitAt d 11 then trapHere s1 n (malformed 0x02)
      else if bitAt d 17 ∧ logicalTiles s ≤ bitsAt d 22 10 then trapHere s1 n (malformed 0x05)
      else
        match prep d s1 with
        | (.fault c, s2) => trapHere s2 n c
        | (.wait, s2) => holdFor s2 n (if op = 0x3F then 8 else 10)
        | (.ok x, s2) => issueChecked s2 n d x

/-- A descriptor of an operation code. -/
def opIs (op d : Nat) : Bool := bitsAt d 0 8 == op

/-- What a sequencer descriptor without memory operands does to its tile. -/
def tileOnly (n : Nat) (f : Tile → Tile) : Issue := ⟨3, 0, [], [], [], [], [], [], fun s => (.ok (), onTile s n f)⟩

/-- NOP: waits, fences and signals only (R96). -/
def execNop (tile : Nat) (s : State) : Host.Outcome State Fault Refusal :=
  done s (runDescriptor tile (opIs 0x00) (fun d s1 =>
    if bitsAt d 64 448 ≠ 0 then (.fault (malformed 0x02), s1) else (.ok (tileOnly tile id), s1)) s)

/-- The increment slots of a LOOP (Table 4.6) with the registers' values at entry. -/
def loopSlots (t : Tile) (d : Nat) : List LoopSlot :=
  (List.range 6).filterMap (fun i =>
    let w := bitsAt d (128 + 64 * i) 64
    if bitAt w 7 then
      some ⟨bitsAt w 0 4, (BitVec.ofNat 48 (bitsAt w 8 48)).signExtend 64, BitVec.ofNat 64 (regVal t (bitsAt w 0 4))⟩
    else none)

/-- A reserved bit of a LOOP is set. -/
def loopReserved (d : Nat) : Bool :=
  decide (bitsAt d 112 16 ≠ 0) || (List.range 6).any (fun i =>
    let w := bitsAt d (128 + 64 * i) 64
    decide (bitsAt w 4 3 ≠ 0 ∨ bitsAt w 56 8 ≠ 0))

/-- LOOP: repeats the descriptors that follow (R94). -/
def execLoop (tile : Nat) (s : State) : Host.Outcome State Fault Refusal :=
  done s (runDescriptor tile (opIs 0x01) (fun d s1 =>
    let t := tileOf s1 tile
    let len := bitsAt d 64 16
    let count := bitsAt d 80 32
    let last := t.pc + 64 * len
    let outside := match t.loops with
      | l :: _ => decide (l.last < last)
      | [] => false
    if loopReserved d then (.fault (malformed 0x02), s1)
    else if len = 0 ∨ 4096 < len ∨ count = 0 then (.fault (malformed 0x04), s1)
    else if outside = true ∨ 8 ≤ t.loops.length then (.fault (malformed 0x03), s1)
    else
      (.ok ⟨3, 0, [], [], [], [], [], [], fun s2 => (.ok (), onTile s2 tile (fun t => { t with
        loops := ⟨t.pc + 64, last, count, 0, loopSlots t d⟩ :: t.loops }))⟩, s1)) s)

/-- SETB: a base register plus a constant (R95). -/
def execSetb (tile : Nat) (s : State) : Host.Outcome State Fault Refusal :=
  done s (runDescriptor tile (opIs 0x02) (fun d s1 =>
    if bitsAt d 72 56 ≠ 0 ∨ bitsAt d 192 320 ≠ 0 then (.fault (malformed 0x02), s1)
    else (.ok (tileOnly tile (fun t => setReg t (bitsAt d 64 4) (regVal t (bitsAt d 68 4) + bitsAt d 128 64))), s1)) s)

/-- The word that LOADB reads: undefined where an issued descriptor writes it, since nothing orders the two (R90). -/
def loadedWord (s : State) (a v : Nat) : Nat :=
  if (inFlight s).any (fun e => runsMeet [⟨a, 8⟩] e.2.dests) then natOfBytes ((List.range 8).map (fun i => Config.freeByte s.free (a + i)))
  else v

/-- LOADB: a base register from the word at an address (R95). -/
def execLoadb (tile : Nat) (s : State) : Host.Outcome State Fault Refusal :=
  done s (runDescriptor tile (opIs 0x03) (fun d s1 =>
    let a := baseOffset (tileOf s1 tile) (bitsAt d 68 4) (bitsAt d 72 48)
    if bitsAt d 120 8 ≠ 0 ∨ bitsAt d 128 384 ≠ 0 then (.fault (malformed 0x02), s1)
    else if a % 8 ≠ 0 then (.fault (malformed 0x0C), s1)
    else
      (.ok ⟨3, 0, storePart tile a (a + 7) false, [], [], [⟨a, 8⟩], [], [], fun s2 =>
        Got.andThen (readFor (.pip tile) 1 a 8 s2) (fun b s3 =>
          if b.poisoned then (.fault 0x02010802, s3)
          else (.ok (), onTile s3 tile (fun t => setReg t (bitsAt d 64 4) (loadedWord s3 a b.nat))))⟩, s1)) s)

/-- The tile ends its program: idle, the queue handler told (R96). -/
def endTileProgram (s : State) (n : Nat) : State :=
  let s1 : State := match (tileOf s n).program with
    | some p => onQueue s p.queue (fun (q : Queue) => { q with
        entries := q.entries.map (fun (e : Entry) => if e.seq = p.seq ∧ e.step = p.step then { e with tilesLeft := setRemove e.tilesLeft n } else e) })
    | none => s
  let s2 : State := { s1 with uses := tabErase s1.uses n }
  onTile s2 n (fun t => { t with state := 0, program := none, loops := [] })

/-- END: waits until every earlier descriptor has completed, then ends the program (R96). -/
def execEndProgram (tile : Nat) (s : State) : Host.Outcome State Fault Refusal :=
  let s1 := runDescriptor tile (opIs 0x3F) (fun d s1 =>
    if bitsAt d 64 448 ≠ 0 then (.fault (malformed 0x02), s1)
    else if (tileOf s1 tile).issued = [] then (.ok (tileOnly tile (fun t => { t with program := t.program })), s1)
    else (.wait, s1)) s
  let ended := decide ((tileOf s1 tile).descriptors ≠ (tileOf s tile).descriptors)
  done s (if ended then endTileProgram s1 tile else s1)

/-- DESCRIPTOR_COMPLETE: the issued descriptor of a number ends, first of its engine and channel, once its reads have returned and
the home slices have accepted its writes; it sends its signal, or its fault is detected (R91, R92, R115). A fault of a stream
halts its channel, whose later streams are discarded (R167). -/
def execDescriptorComplete (tile number : Nat) (s : State) : Host.Outcome State Fault Refusal :=
  let t := tileOf s tile
  match t.issued.find? (fun d => d.number == number) with
  | none => .next s
  | some d =>
    let first := t.issued.all (fun e => !(e.engine == d.engine && e.channel == d.channel && decide (e.number < d.number)))
    if first = false ∨ tilePowered s tile = false ∨ d.reads ≠ [] ∨ d.waits ≠ [] ∨ d.writes ≠ [] then .next s
    else
      let s1 := onTile s tile (fun t => { t with issued := t.issued.filter (fun e => decide (e.number ≠ number)) })
      match d.fault with
      | some c =>
        let s2 := if d.engine = 2 then onTile s1 tile (fun t => { t with halts := tabSet 0 t.halts d.channel c.toNat }) else s1
        done s (detectTrap s2 tile ⟨d.number, c, d.block, d.depth, d.pc, d.iterations⟩)
      | none => done s (if d.engine = 2 ∧ tabGet 0 t.halts d.channel ≠ 0 then s1 else signalCounter s1 d.signal)

/-- Base registers at dispatch to logical tile `n` (Table 4.2). -/
def dispatchRegs (n : Nat) (p : Program) : List Word64 :=
  BitVec.ofNat 64 (ownBase n) :: (p.args.take 12 ++ List.replicate (12 - p.args.length) 0) ++
    [BitVec.ofNat 64 n, BitVec.ofNat 64 p.step, 0]

/-- The grid row of a logical tile restarts at a quarter of its rate after an idle of 1,563 reference periods or more (R314). -/
def restartRow (s : State) (n : Nat) : State :=
  let y := s.stack.tileMap.getD n 0 / 24
  if 1563 ≤ tabGet 0 s.power.rowIdle y then
    s.onPower (fun p => { p with restart := tabSet 16 p.restart y 4, rowIdle := tabSet 0 p.rowIdle y 0 })
  else s.onPower (fun p => { p with rowIdle := tabSet 0 p.rowIdle y 0 })

/-- TILE_PROGRAM_START: the first waiting program starts on the idle tile (R84, R41); an entry address that may not be fetched is
a fault of the program's first descriptor (R26). -/
def execTileProgramStart (tile : Nat) (s : State) : Host.Outcome State Fault Refusal :=
  let t := tileOf s tile
  match t.waiting with
  | [] => .next s
  | p :: rest =>
    if t.state ≠ 0 ∨ p.step ≠ currentStep s ∨ tilePowered s tile = false then .next s
    else
      let s1 := restartRow s tile
      let s2 := onTile { s1 with uses := tabInsert s1.uses tile ProgramUse.fresh } tile (fun t => { t with
        state := 1
        pc := p.entry
        regs := dispatchRegs tile p
        loops := []
        nextNumber := 0
        issued := []
        program := some p
        waiting := rest
        trap := none
        halts := [] })
      match accessDetail s2 (.pip tile) false p.entry 64 with
      | some d => done s (trapHere s2 tile (codeOf 2 1 d))
      | none => done s s2

/-- tile_counters_clear (Table 4.18). -/
def clearTileCounters (s : State) : State :=
  { s with tiles := s.tiles.foldl (fun t e => tabSet Tile.idle t e.1 { e.2 with
      matrixBusy := 0
      matrixMacs := 0
      vectorBusy := 0
      vectorLanes := 0
      streamBytes := 0
      descriptors := 0
      stalls := [] }) s.tiles }

end Sys2Proof.Machine
end

