-- ==== Sys2Proof/Machine/Collectives.lean ====
section
/-! DEFINITION. Collectives (R237 to R247): commands and their checks, chunks and the ring, READY and GO, the reduction arithmetic of
R240, deferral (R243 to R246), and what the packets and commands of a collective do. -/

namespace Sys2Proof.Machine

open Sys2Proof

/-! ## Local faults (R142) -/

/-- A fault of the step: before the cut it is a local fault, the first of which is held; after it the module commits no step and
holds. -/
def recordFault (s : State) (code : Code) (arg : Nat) : State :=
  let s1 := raise s code arg
  if s.train.cut then enterHolding (s1.onTrain (fun t => { t with lateFault := true }))
  else s1.onTrain (fun t => { t with
    faulted := true
    localFault := if t.localFault = 0 then code else t.localFault })

/-! ## Commands (Table 9.11) -/

/-- A collective command. -/
structure CollCmd where
  kind : Nat
  dirBoth : Bool
  signal : Option (Nat × Nat)
  comm : Nat
  fmt : Nat
  group : Nat
  source : Nat
  reserved : Bool
  send : Nat
  recv : Nat
  count : Nat
  deriving DecidableEq, Repr

/-- The command that 64 bytes hold. -/
def collCmdOf (v : Nat) : CollCmd where
  kind := bitsAt v 0 8
  dirBoth := bitAt v 8
  signal := if bitAt v 9 then some (bitsAt v 14 10, bitsAt v 10 4) else none
  comm := bitsAt v 24 8
  fmt := bitsAt v 32 4
  group := bitsAt v 36 13
  source := bitsAt v 49 12
  reserved := decide (bitsAt v 61 3 ≠ 0 ∨ bitsAt v 112 16 ≠ 0 ∨ bitsAt v 176 16 ≠ 0 ∨ bitsAt v 232 280 ≠ 0)
  send := bitsAt v 64 48
  recv := bitsAt v 128 48
  count := bitsAt v 192 40

/-- No parameter group. -/
def noGroup : Nat := 0x1FFF

/-- Slots of older members. -/
def olderSlots (g : CommGroup) : List Nat := (g.members.zipIdx.filter (fun m => decide (m.1.generation ≠ 2))).map (fun m => m.2)

/-- Slots of Henelo members, ascending. -/
def heneloSlots (g : CommGroup) : List Nat := (g.members.zipIdx.filter (fun m => decide (m.1.generation = 2))).map (fun m => m.2)

/-- A command that names a parameter group meets R238. -/
def groupCmdOk (s : State) (c : CollCmd) (g : Nat) : Bool :=
  let r := groupNow s g
  r.valid && decide (g < 4128) && decide (c.group = g) &&
    (if 4096 ≤ g then decide (c.kind = 6)
     else decide ((c.kind = 1 ∨ c.kind = 2) ∧ c.send = r.rbuf ∧ c.recv = r.rbuf ∧ c.count = r.elements))

/-- The code of Table 9.17 with which a command halts, if it breaks a rule of R237 or R238; `g` is the group whose reduction it
is. -/
def collFault (s : State) (c : CollCmd) (g : Nat) : Option Code :=
  match commGroup s c.comm with
  | none => if c.kind = 0 ∨ 6 < c.kind ∨ c.reserved = true then some 0x040A0901 else some 0x040A0902
  | some m =>
    if c.kind = 0 ∨ 6 < c.kind ∨ c.reserved = true then some 0x040A0901
    else if (ownSlot s m).isNone then some 0x040A0902
    else if c.fmt ≤ 1 ∨ fmtReserved c.fmt = true ∨ ((c.kind = 1 ∨ c.kind = 2) ∧ c.fmt ≠ 7 ∧ ¬ (c.fmt = 8 ∧ g = noGroup)) then
      some 0x040A0903
    else if g = noGroup ∧ (c.group ≠ noGroup ∨ c.kind = 6) then some 0x040A0904
    else if g ≠ noGroup ∧ groupCmdOk s c g = false then some 0x040A0904
    else if olderSlots m ≠ [] ∧ (c.dirBoth = true ∨ c.kind = 4) then some 0x040A0905
    else if (c.kind ≠ 6 ∧ c.count = 0) ∨ (c.kind = 5 ∧ m.members.length ≤ c.source)
        ∨ (match c.signal with | some x => decide (logicalTiles s ≤ x.1) | none => false) = true then some 0x040A0906
    else none

/-! ## Collectives in progress -/

/-- A collective of which nothing is known yet but its key and step; for a dense group its kind, format and size follow from the
group record. -/
def Coll.blank (s : State) (k : CollKey) (step : Nat) : Coll where
  key := k
  kind := if k.group = noGroup then 0 else if 4096 ≤ k.group then 6 else if (groupNow s k.group).replicated then 1 else 2
  dirBoth := false
  signal := none
  fmt := 7
  source := 0
  send := (groupNow s k.group).rbuf
  recv := (groupNow s k.group).rbuf
  count := if k.group < 4096 then (groupNow s k.group).elements else 0
  step := step
  entry := none
  readySent := false
  readyFrom := []
  timer := false
  expired := false
  goSent := false
  decisions := []
  deferredIn := []
  ran := false
  partials := []
  chunksDone := []
  deferredSeen := []
  flagOr := false
  received := 0
  sent := 0
  summaries := []
  holdData := []
  marks := []
  done := false

/-- The collective of a key in a step. -/
def collAt (s : State) (k : CollKey) (step : Nat) : Coll :=
  (s.fabric.colls.find? (fun c => decide (c.key = k ∧ c.step = step))).getD (Coll.blank s k step)

/-- Put a collective in place. -/
def setColl (s : State) (c : Coll) : State :=
  s.onFabric (fun k => { k with colls := k.colls.filter (fun d => !decide (d.key = c.key ∧ d.step = c.step)) ++ [c] })

/-- Change the collective of a key in a step. -/
def onColl (s : State) (k : CollKey) (step : Nat) (f : Coll → Coll) : State := setColl s (f (collAt s k step))

/-- The group of a collective, with the module's own slot; a group not in force has no members. -/
def collGroup (s : State) (k : CollKey) : CommGroup × Nat :=
  match commGroup s k.comm with
  | some g => (g, (ownSlot s g).getD 0)
  | none => (⟨k.comm, 0, []⟩, 0)

/-- This module is the root of the collective's group. -/
def isRoot (s : State) (k : CollKey) : Bool :=
  match commGroup s k.comm with
  | some g => decide (rootNode g = ownNode s)
  | none => false

/-- A packet of a collective to a slot of its group. -/
def collPacket (s : State) (c : Coll) (ptype slot : Nat) : Packet :=
  let (g, own) := collGroup s c.key
  let node := match memberAt g slot with
    | some m => m.node
    | none => 0
  { blankPacket ptype node with
    comm := c.key.comm
    step := c.step
    srcSlot := own
    dstSlot := slot
    group := c.key.group
    collId := c.key.collId }

/-! ## The arithmetic of R240 -/

/-- The numerics profile in force: 0 F, 1 S, 2 H. -/
def profileNow (s : State) : Nat := cfg s 0x480001

/-- The rounding of a combine: stochastic under profile H with sr_mode 0 in a parameter group's collective, else RNE. -/
def combineRounding (s : State) (k : CollKey) (step kind ordinal : Nat) : Rounding :=
  ⟨decide (profileNow s = 2 ∧ cfg s 0x480005 = 0 ∧ k.group ≠ noGroup), BitVec.ofNat 64 (cfg s 0x480004), BitVec.ofNat 64 step,
    BitVec.ofNat 32 (groupNow s k.group).tensorId, siteWord kind ordinal⟩

/-- A value of a reduction as a contribution enters it: under profile F rounded to BF16 (R240). -/
def contributed (s : State) (fmt v : Nat) : Nat :=
  if profileNow s = 0 ∧ fmt = 7 then encodeNum 7 (decodeNum 5 (encodeNum 5 (decodeNum 7 v))) else quiet fmt v

/-- acc + x for element `e`: in binary64 for format 0x8, to BF16 under profile F, else in binary32 at the site. -/
def combine (s : State) (c : Coll) (kind ordinal e acc x : Nat) : Nat :=
  if c.fmt = 8 then encodeNum 8 ((decodeNum 8 acc).add (decodeNum 8 x))
  else
    let sum := (decodeNum 7 acc).add (decodeNum 7 x)
    if profileNow s = 0 then encodeNum 7 (decodeNum 5 (encodeNum 5 sum))
    else roundAt (combineRounding s c.key c.step kind ordinal) (BitVec.ofNat 64 e) sum

/-- The format in which a reduction's elements travel: BF16 under profile F. -/
def linkFmt (s : State) (c : Coll) : Nat := if profileNow s = 0 ∧ c.fmt = 7 ∧ (c.kind = 1 ∨ c.kind = 2) then 5 else c.fmt

/-- Elements as link bytes. -/
def linkBytes (s : State) (c : Coll) (l : List Nat) : List Byte :=
  let f := linkFmt s c
  l.flatMap (fun v => bytesOfNat (fmtBytes f) (if f ≠ c.fmt then encodeNum f (decodeNum c.fmt v) else v))

/-- The elements that link bytes hold, `n` of them. -/
def elemsOfBytes (width : Nat) : Nat → List Byte → List Nat
  | 0, _ => []
  | n + 1, l => natOfBytes (l.take width) :: elemsOfBytes width n (l.drop width)

/-- The elements of a DATA payload in the collective's own format. -/
def linkElems (s : State) (c : Coll) (l : List Byte) : List Nat :=
  let f := linkFmt s c
  (elemsOfBytes (fmtBytes f) (l.length / fmtBytes f) l).map (fun v => if f ≠ c.fmt then encodeNum c.fmt (decodeNum f v) else v)

/-! ## Chunks and the ring (R239) -/

/-- First element of chunk `i` of `h`. -/
def chunkStart (count h i : Nat) : Nat := count * i / h

/-- The chunk of an element. -/
def chunkOf (count h e : Nat) : Nat := ((List.range h).find? (fun i => decide (e < chunkStart count h (i + 1)))).getD 0

/-- A member's position in the reduction order of the chunk owned by slot `o`. -/
def ringPosition (n o slot : Nat) (reverse : Bool) : Nat :=
  if reverse then (o + 2 * n - slot - 1) % n else (slot + 2 * n - o - 1) % n

/-- The next slot of the ring. -/
def ringNext (n slot : Nat) (reverse : Bool) : Nat := if reverse then (slot + n - 1) % n else (slot + 1) % n

/-- A slot contributes under a GO: included, or an older member. -/
def contributes (c : Coll) (slot : Nat) : Bool :=
  let d := c.decisions.getD slot 2
  decide (d = 0 ∨ d = 3)

/-- The first contributing position of a chunk's order, if any member contributes. -/
def firstPosition (c : Coll) (n o : Nat) (reverse : Bool) : Option Nat :=
  (List.range n).find? (fun p => (List.range n).any (fun slot => decide (ringPosition n o slot reverse = p) && contributes c slot))

/-- Elements that one packet carries. -/
def packetElems (s : State) (c : Coll) : Nat :=
  let w := 4096 / fmtBytes (linkFmt s c)
  if c.dirBoth then min w 1024 else w

/-- Packets of a run of elements: first element and how many. -/
def packetRuns (size lo hi : Nat) : List (Nat × Nat) :=
  (List.range ((hi - lo + size - 1) / size)).map (fun i => (lo + i * size, min size (hi - lo - i * size)))

/-- An element travels in reverse ring order. -/
def reversed (c : Coll) (lo e : Nat) : Bool := c.dirBoth && decide ((e - lo) / 1024 % 2 = 1)

/-! ## Reading and writing elements -/

/-- Elements of width `w`, each with the poison of its bytes. -/
def markedElems (w n : Nat) (b : Bytes) : List (Nat × Bool) :=
  (elemsOfBytes w n b.bytes).zipIdx.map (fun x => (x.1, ((b.data.drop (w * x.2)).take w).any (fun y => y.2)))

/-- The bytes of elements of width `w`, with their poison. -/
def elemData (w : Nat) (l : List (Nat × Bool)) : List (Byte × Bool) := l.flatMap (fun x => (bytesOfNat w x.1).map (fun b => (b, x.2)))

/-- Put bytes at a place of an area that an object with base and size in MiB names, where they fit; the place is taken modulo the
room. -/
def placeIn (s : State) (who : Initiator) (key place : Nat) (l : List (Byte × Bool)) : State :=
  let v := cfgAt s key 0 16
  let size := bitsAt v 64 32 * 2 ^ 20
  if size < l.length then s else (writeThrough s who (bitsAt v 0 48 + place % (size - l.length + 1)) l).1

/-- The words of a payload that hold a poisoned element. -/
def poisonWords (w : Nat) (l : List (Nat × Bool)) : NatSet :=
  l.zipIdx.foldl (fun p x => if x.1.2 then setAddSorted p (x.2 * w / 8) else p) []

/-- Elements of a buffer as they stand, with their poison; an uncorrectable word is a fault of the step. -/
def readElems (s : State) (c : Coll) (a n : Nat) : List (Nat × Bool) × State :=
  let w := fmtBytes c.fmt
  let (b, s1) := readThrough s .hazel a (w * n)
  (markedElems w n b, if b.error then recordFault s1 0x020A0801 a else s1)

/-- The places of the marks of a list. -/
def markedAt (l : List Bool) : NatSet := l.zipIdx.filterMap (fun x => if x.1 then some x.2 else none)

/-- Note the poisoned ones among elements of a collective, the first being element `e`. -/
def noteMarks (s : State) (k : CollKey) (step e : Nat) (l : List (Nat × Bool)) : State :=
  if l.any (fun x => x.2) then
    onColl s k step (fun c => { c with marks := l.zipIdx.foldl (fun m x => if x.1.2 then setAdd m (e + x.2) else m) c.marks })
  else s

/-- Write marked bytes for the reduction and forwarding unit; a merge that is refused is a fault of the step (Table 8.5). -/
def fabricWrite (s : State) (a : Nat) (l : List (Byte × Bool)) : State :=
  match writeThrough s .hazel a l with
  | (t, refused, _) => if refused then recordFault t 0x020A0801 a else t

/-- The member's own values of elements [e, e + n) of a reduction, with their poison, which in a contribution is an escape (R203). -/
def ownValues (s : State) (c : Coll) (e n : Nat) : List (Nat × Bool) × State :=
  let (l, s1) := readElems s c (c.send + fmtBytes c.fmt * e) n
  (l.map (fun x => (contributed s c.fmt x.1, x.2)), if l.any (fun x => x.2) then poisonEscape s1 else s1)

/-- The contribution of a group to a step is in the deferral store (R245). -/
def copied (s : State) (group step : Nat) : Bool := s.fabric.deferred.any (fun d => decide (d.group = group ∧ d.step = step))

/-- The member may write reduced data: its own contribution is included, or is final and, if deferred, copied (R242). -/
def mayWrite (s : State) (c : Coll) : Bool :=
  let own := (collGroup s c.key).2
  contributes c own || (c.readySent && (decide (c.decisions.getD own 0 ≠ 1) || copied s c.key.group c.step))

/-- Bytes of the hold area (Table 9.9). -/
def holdBytes : Nat := 0xC000000

/-- Bytes that the hold area holds now. -/
def heldNow (s : State) : Nat := s.fabric.colls.foldl (fun n c => n + c.holdData.length * fmtBytes c.fmt) 0

/-- Elements of a collective can be taken: they may be written, or the hold area has room for them (R242). -/
def roomFor (s : State) (c : Coll) (n : Nat) : Bool := mayWrite s c || decide (heldNow s + n * fmtBytes c.fmt ≤ holdBytes)

/-- Write elements of a collective to its receive buffer, with the poison of their bytes, or hold them (R242). -/
def deliver (s : State) (k : CollKey) (step e : Nat) (l : List (Nat × Bool)) : State :=
  let c := collAt s k step
  let w := fmtBytes c.fmt
  let s1 :=
    if mayWrite s c then fabricWrite s (c.recv + w * e) (elemData w l)
    else onColl s k step (fun c => { c with holdData := c.holdData ++ l.zipIdx.map (fun x => (e + x.2, BitVec.ofNat 64 x.1.1, x.1.2)) })
  onColl s1 k step (fun c => { c with received := c.received + l.length })

/-- Send READY, DATA or INBOUND: after a hold notice the module sends none of that step (R294). -/
def sendStep (s : State) (p : Packet) : State := if s.train.withheld ∧ p.step = currentStep s then s else sendPacket s p

/-- Send DATA of elements from `e` to a slot. -/
def sendData (s : State) (c : Coll) (slot e : Nat) (reverse deferred : Bool) (l : List (Nat × Bool)) : State :=
  sendStep s { collPacket s c 1 slot with
    fmt := linkFmt s c
    reverse := reverse
    deferred := deferred
    flagOr := c.flagOr
    elemOffset := e
    payload := linkBytes s c (l.map (fun x => x.1))
    poison := poisonWords (fmtBytes (linkFmt s c)) l }

/-! ## Reductions (R239, R240, R245) -/

/-- Element `e`'s reduced value at the owner: the chain's partial, then the deferred contributions in ascending slot. -/
def reducedValue (s : State) (c : Coll) (chain : Bool) (e : Nat) : Nat :=
  let start : Option Nat := if chain then some ((tabGet 0 c.partials e).toNat) else none
  let slots := (List.range 4096).filter (fun x => c.deferredIn.contains x)
  let total := slots.foldl (fun acc slot =>
    match (c.deferredSeen.filter (fun d => decide (d.1 = slot ∧ d.2.1 ≤ e ∧ e < d.2.1 + d.2.2.length))).head? with
    | none => acc
    | some d =>
      let x := ((d.2.2)[e - d.2.1]?.getD 0).toNat
      match acc with
      | none => some x
      | some a => some (combine s c 3 slot e a x)) start
  total.getD 0

/-- Every element of [lo, hi) has its chain's partial, where a chain runs, and every deferred contribution that is due. -/
def chunkReady (c : Coll) (chain : Bool) (lo hi : Nat) : Bool :=
  (!chain || decide (((c.partials.filter (fun e => decide (lo ≤ e.1 ∧ e.1 < hi))).length) = hi - lo)) &&
    c.deferredIn.all (fun slot =>
      decide (((c.deferredSeen.filter (fun d => decide (d.1 = slot ∧ lo ≤ d.2.1 ∧ d.2.1 < hi))).foldl (fun a d => a + d.2.2.length) 0) = hi - lo))

/-- The owner finishes its chunk once everything for it is there: writes it and, for ALL_REDUCE, sends it round. -/
def finishChunk (s : State) (k : CollKey) (step : Nat) : State :=
  let c := collAt s k step
  let (g, own) := collGroup s k
  let hs := heneloSlots g
  let n := g.members.length
  match hs.findIdx? (fun x => x == own) with
  | none => s
  | some i =>
    let lo := chunkStart c.count hs.length i
    let hi := chunkStart c.count hs.length (i + 1)
    let chain := (firstPosition c n own false).isSome
    if (c.kind ≠ 1 ∧ c.kind ≠ 2) ∨ c.decisions = [] ∨ c.chunksDone.contains i = true ∨ chunkReady c chain lo hi = false ∨
        roomFor s c (hi - lo) = false then s
    else
      let s1 := onColl s k step (fun c => { c with chunksDone := setAdd c.chunksDone i })
      (packetRuns (packetElems s c) lo hi).foldl (fun t r =>
        let l := (List.range r.2).map (fun j => (reducedValue t c chain (r.1 + j), c.marks.contains (r.1 + j)))
        let t1 := deliver t k step r.1 l
        let back := reversed c lo r.1
        if c.kind = 1 ∧ 1 < n then sendData t1 c (ringNext n own back) r.1 back false l else t1) s1

/-- The own part of a reduction: the chunks whose order this member begins. -/
def startReduction (s : State) (k : CollKey) (step : Nat) : State :=
  let c := collAt s k step
  let (g, own) := collGroup s k
  let hs := heneloSlots g
  let n := g.members.length
  let s1 := hs.zipIdx.foldl (fun t oc =>
    let lo := chunkStart c.count hs.length oc.2
    let hi := chunkStart c.count hs.length (oc.2 + 1)
    (packetRuns (packetElems s c) lo hi).foldl (fun t r =>
      let back := reversed c lo r.1
      if contributes c own ∧ firstPosition c n oc.1 back = some (ringPosition n oc.1 own back) then
        let (l, t1) := ownValues t c r.1 r.2
        if oc.1 = own then
          onColl (noteMarks t1 k step r.1 l) k step (fun c => { c with
            partials := l.zipIdx.foldl (fun p x => tabInsert p (r.1 + x.2) (BitVec.ofNat 64 x.1.1)) c.partials })
        else sendData t1 c (ringNext n own back) r.1 back false l
      else t) t) s
  finishChunk s1 k step

/-- A partial reaches a member: it adds its own contribution where included and sends it on, or, as the owner, keeps it. -/
def passPartial (s : State) (k : CollKey) (step e : Nat) (back : Bool) (l : List (Nat × Bool)) (o : Nat) : State :=
  let c := collAt s k step
  let (g, own) := collGroup s k
  let n := g.members.length
  let (mine, s1) := if contributes c own then ownValues s c e l.length else ([], s)
  let sum := if contributes c own then
      (l.zip mine).zipIdx.map (fun x =>
        (combine s c 2 (ringPosition n o own back) (e + x.2) x.1.1.1 x.1.2.1, x.1.1.2 || x.1.2.2))
    else l
  let s2 := onColl (noteMarks s1 k step e sum) k step (fun c => { c with
    partials := sum.zipIdx.foldl (fun p x => tabInsert p (e + x.2) (BitVec.ofNat 64 x.1.1)) c.partials })
  if o = own then finishChunk s2 k step else sendData s2 (collAt s2 k step) (ringNext n own back) e back false sum

/-- A member expects a partial of a chunk before its reduced data: some member ahead of it contributes. -/
def expectsPartial (c : Coll) (n o own : Nat) (back : Bool) : Bool :=
  match firstPosition c n o back with
  | some p => decide (p < ringPosition n o own back)
  | none => false

/-- DATA of a reduction reaches a member. -/
def reductionData (s : State) (k : CollKey) (step : Nat) (p : Packet) : State :=
  let c := collAt s k step
  let (g, own) := collGroup s k
  let hs := heneloSlots g
  let n := g.members.length
  let e := p.elemOffset
  let w := fmtBytes (linkFmt s c)
  let l := (linkElems s c p.payload).zipIdx.map (fun x => (x.1, p.poison.contains (x.2 * w / 8)))
  let o := hs.getD (chunkOf c.count hs.length e) 0
  let s0 := if p.poison = [] then s else poisonEscape s
  if p.deferred then
    finishChunk (onColl (noteMarks s0 k step e l) k step (fun c => { c with
      deferredSeen := c.deferredSeen ++ [(p.srcSlot, e, l.map (fun x => BitVec.ofNat 64 x.1))] })) k step
  else
    let s1 := if p.flagOr then onColl s0 k step (fun c => { c with flagOr := true }) else s0
    if expectsPartial c n o own p.reverse ∧ (tabFind c.partials e).isNone then passPartial s1 k step e p.reverse l o
    else
      let s2 := deliver s1 k step e l
      let next := ringNext n own p.reverse
      if next = o then s2 else sendData s2 (collAt s2 k step) next e p.reverse false l

/-! ## Moves without arithmetic -/

/-- Send elements as they stand. -/
def moveData (s : State) (c : Coll) (slot e : Nat) (back : Bool) (l : List (Nat × Bool)) : State :=
  let w := fmtBytes c.fmt
  sendStep s { collPacket s c 1 slot with
    fmt := c.fmt
    reverse := back
    elemOffset := e
    payload := l.flatMap (fun x => bytesOfNat w x.1)
    poison := poisonWords w l }

/-- Write elements as they stand at an address, and count them as received. -/
def placeElems (s : State) (k : CollKey) (step a : Nat) (l : List (Nat × Bool)) : State :=
  let c := collAt s k step
  let w := fmtBytes c.fmt
  let s1 := fabricWrite s a (elemData w l)
  onColl s1 k step (fun c => { c with received := c.received + l.length })

/-- The own part of ALL_GATHER: the owner's chunk, written here and sent round. -/
def startGather (s : State) (k : CollKey) (step : Nat) : State :=
  let c := collAt s k step
  let (g, own) := collGroup s k
  let hs := heneloSlots g
  let n := g.members.length
  match hs.findIdx? (fun x => x == own) with
  | none => s
  | some i =>
    let lo := chunkStart c.count hs.length i
    let w := fmtBytes c.fmt
    (packetRuns (packetElems s c) lo (chunkStart c.count hs.length (i + 1))).foldl (fun t r =>
      let (l, t1) := readElems t c (c.send + w * r.1) r.2
      let t2 := placeElems t1 k step (c.recv + w * r.1) l
      let back := reversed c lo r.1
      if 1 < n then moveData t2 c (ringNext n own back) r.1 back l else t2) s

/-- The own part of BROADCAST: the source's elements, written here and sent round. -/
def startBroadcast (s : State) (k : CollKey) (step : Nat) : State :=
  let c := collAt s k step
  let (g, own) := collGroup s k
  let n := g.members.length
  let w := fmtBytes c.fmt
  if own ≠ c.source then s
  else (packetRuns (packetElems s c) 0 c.count).foldl (fun t r =>
      let (l, t1) := readElems t c (c.send + w * r.1) r.2
      let t2 := placeElems t1 k step (c.recv + w * r.1) l
      let back := reversed c 0 r.1
      if 1 < n then moveData t2 c (ringNext n own back) r.1 back l else t2) s

/-- The own part of ALL_TO_ALL: block j to slot j, the own block written here. -/
def startAllToAll (s : State) (k : CollKey) (step : Nat) : State :=
  let c := collAt s k step
  let (g, own) := collGroup s k
  let w := fmtBytes c.fmt
  (List.range g.members.length).foldl (fun t j =>
    (packetRuns (packetElems s c) 0 c.count).foldl (fun t r =>
      let (l, t1) := readElems t c (c.send + w * (j * c.count + r.1)) r.2
      if j = own then placeElems t1 k step (c.recv + w * (own * c.count + r.1)) l else moveData t1 c j r.1 false l) t) s

/-- DATA of a collective without arithmetic reaches a member: written, and on the ring sent on. -/
def moveReceived (s : State) (k : CollKey) (step : Nat) (p : Packet) : State :=
  let c := collAt s k step
  let (g, own) := collGroup s k
  let n := g.members.length
  let w := fmtBytes c.fmt
  let l := (elemsOfBytes w (p.payload.length / w) p.payload).zipIdx.map (fun x => (x.1, p.poison.contains (x.2 * w / 8)))
  if c.kind = 4 then placeElems s k step (c.recv + w * (p.srcSlot * c.count + p.elemOffset)) l
  else
    let s1 := placeElems s k step (c.recv + w * p.elemOffset) l
    let hs := heneloSlots g
    let origin := if c.kind = 3 then hs.getD (chunkOf c.count hs.length p.elemOffset) 0 else c.source
    let next := ringNext n own p.reverse
    if next = origin then s1 else moveData s1 c next p.elemOffset p.reverse l

/-! ## READY and GO (R241, R243, R244) -/

/-- The 32 bytes of a step summary (Table 5.3). -/
def summaryBytes (x : Summary) : List Byte :=
  bytesOfNat 8 (natOfBool x.nonfinite + 2 * natOfBool x.overBound + 4 * natOfBool x.fault + 8 * natOfBool x.agree)
    ++ bytesOfNat 8 x.gnorm.toNat ++ bytesOfNat 16 x.digest.toNat

/-- The step summary that bytes hold. -/
def summaryOf (l : List Byte) : Summary :=
  let v := natOfBytes (l.take 32)
  ⟨bitAt v 0, bitAt v 1, bitAt v 2, bitAt v 3, BitVec.ofNat 64 (bitsAt v 64 64), BitVec.ofNat 128 (bitsAt v 128 128)⟩

/-- Send READY to the root; the carrier's holds the step summary. -/
def sendReady (s : State) (k : CollKey) (step : Nat) (summary : Option Summary) : State :=
  let c := collAt s k step
  let s1 := onColl s k step (fun c => { c with readySent := !s.train.withheld })
  let body := match summary with
    | some x => summaryBytes x
    | none => []
  sendStep s1 { collPacket s1 c 2 (collGroup s k).1.root with payload := body }

/-- The entry of a slot among the deferred contributions to a collective's group (R244). -/
def deferKey (k : CollKey) (slot : Nat) : Nat := (k.comm * 8192 + k.group) * 4096 + slot

/-- The decision on a slot and its reason (Table 9.13): 0 included, 1 deferred, 2 dropped, 3 older. -/
def decideSlot (s : State) (c : Coll) (g : CommGroup) (slot : Nat) : Nat :=
  match memberAt g slot with
  | none => 3
  | some m =>
    if m.generation ≠ 2 then 3
    else if c.readyFrom.contains slot then 0
    else if cfg s 0x500301 = 1 ∧ s.fabric.lastDeferred.contains (deferKey c.key slot) = false then 1
    else 2

/-- Two bits per slot, then one bit per slot from the next byte on (R241). -/
def goBytes (decisions : List Nat) (deferredIn : NatSet) : List Byte :=
  let n := decisions.length
  bytesOfNat ((2 * n + 7) / 8) (decisions.zipIdx.foldl (fun a d => a + d.1 * 4 ^ d.2) 0)
    ++ bytesOfNat ((n + 7) / 8) (deferredIn.foldl (fun a x => a + 2 ^ x) 0)

/-- The decisions and deferred-in slots that a GO payload for `n` slots holds. -/
def goOf (n : Nat) (l : List Byte) : List Nat × NatSet :=
  let a := natOfBytes (l.take ((2 * n + 7) / 8))
  let b := natOfBytes (l.drop ((2 * n + 7) / 8))
  ((List.range n).map (fun i => bitsAt a (2 * i) 2), (List.range n).filter (fun i => bitAt b i))

/-- GO and RESULT of the step are withheld: a hold notice of the step or of an earlier one has reached this root (R294), or it
holds a member as unreachable (R288). -/
def rootHolds (s : State) (comm step : Nat) : Bool :=
  s.resil.holdNotices.any (fun n => decide (n.1 ≤ step)) || decide (comm = jobGroup s ∧ s.resil.unreachable ≠ [])

/-- The root sends GO once every Henelo slot is on time or its timer has expired (R244). -/
def maybeGo (s : State) (k : CollKey) (step : Nat) : State :=
  let c := collAt s k step
  let (g, _) := collGroup s k
  let all := (heneloSlots g).all (fun x => c.readyFrom.contains x)
  if c.goSent ∨ rootHolds s k.comm step ∨ ¬ (all ∨ c.expired) then s
  else
    let decisions := (List.range g.members.length).map (decideSlot s c g)
    let deferredIn := (List.range g.members.length).filter (fun x => s.fabric.lastDeferred.contains (deferKey k x))
    let s1 := onColl s k step (fun c => { c with goSent := true, timer := false })
    (heneloSlots g).foldl (fun t slot => sendPacket t { collPacket t c 3 slot with payload := goBytes decisions deferredIn }) s1

/-- A READY reaches the root (R244): on time before expiry; its summary is kept. -/
def readyAtRoot (s : State) (p : Packet) : State :=
  let k : CollKey := ⟨p.comm, p.group, p.collId⟩
  let c := collAt s k p.step
  let late := c.expired || c.goSent
  let timed := decide (k.group ≠ noGroup ∧ cfg s 0x500301 ≠ 0)
  let s1 := onColl s k p.step (fun c => { c with
    readyFrom := if late then c.readyFrom else setAdd c.readyFrom p.srcSlot
    timer := if late then c.timer else timed || c.timer
    summaries := if p.payload = [] then c.summaries else c.summaries ++ [(p.srcSlot, summaryOf p.payload)] })
  maybeGo s1 k p.step

/-! ## Deferral (R242, R245) -/

/-- The stored contribution of a group of the step before. -/
def storedDeferred (s : State) (group step : Nat) : Option Deferred :=
  s.fabric.deferred.find? (fun d => decide (d.group = group ∧ d.step + 1 = step))

/-- Send a dense group's stored contribution: each chunk to its owner, the own chunk kept here (R245). -/
def sendDeferred (s : State) (k : CollKey) (step : Nat) (d : Deferred) : State :=
  let c := collAt s k step
  let (g, own) := collGroup s k
  let hs := heneloSlots g
  let s1 := hs.zipIdx.foldl (fun t oc =>
    (packetRuns (packetElems s c) (chunkStart c.count hs.length oc.2) (chunkStart c.count hs.length (oc.2 + 1))).foldl (fun t r =>
      let l := (d.values.zipIdx.drop r.1).take r.2
      let m := l.map (fun x => (x.1.toNat, d.marks.contains x.2))
      if oc.1 = own then
        onColl (noteMarks t k step r.1 m) k step (fun c => { c with deferredSeen := c.deferredSeen ++ [(own, r.1, l.map (fun x => x.1))] })
      else sendData t c oc.1 r.1 false true m) t) s
  finishChunk s1 k step

/-- The reduced data held for a late member are written once they may be (R242). -/
def writeHeld (s : State) (k : CollKey) (step : Nat) : State :=
  let c := collAt s k step
  let w := fmtBytes c.fmt
  let s1 := onColl s k step (fun c => { c with holdData := [] })
  c.holdData.foldl (fun t x => fabricWrite t (c.recv + w * x.1) (elemData w [(x.2.1.toNat, x.2.2)])) s1

/-- The own contribution is final and the GO has left it out: a deferred one goes into the deferral store, and held data are
written. -/
def settleOwn (s : State) (k : CollKey) (step : Nat) : State :=
  let c := collAt s k step
  let own := (collGroup s k).2
  let d := c.decisions.getD own 0
  let known := copied s k.group step
  if c.decisions = [] ∨ c.readySent = false ∨ c.kind = 6 ∨ (d ≠ 1 ∧ d ≠ 2) then s
  else
    let s1 := if d = 1 ∧ known = false then
        let (l, t) := ownValues s c 0 c.count
        (placeIn t .hazel 0x500305 (Config.areaPlace 0 [k.group, step]) (elemData (fmtBytes c.fmt) l)).onFabric (fun f => { f with
          deferred := f.deferred ++ [⟨k.group, k.comm, step, l.map (fun x => BitVec.ofNat 64 x.1), markedAt (l.map (fun x => x.2))⟩] })
      else s
    writeHeld s1 k step

/-- A GO reaches a member: decisions recorded, a contribution of the step before sent, a late own one settled. A contribution
deferred from the step before that the GO does not list was lost in a recovery (R294). -/
def goAtMember (s : State) (p : Packet) : State :=
  let k : CollKey := ⟨p.comm, p.group, p.collId⟩
  let (g, own) := collGroup s k
  let (decisions, deferredIn) := goOf g.members.length p.payload
  let policy := cfg s 0x500301
  let s1 := onColl s k p.step (fun c => { c with decisions := decisions, deferredIn := deferredIn })
  let late := decisions.zipIdx.filter (fun d => decide (d.1 = 1 ∨ d.1 = 2))
  let lost := (List.range g.members.length).filter (fun x => s.fabric.lastDeferred.contains (deferKey k x) && !deferredIn.contains x)
  let s2 := s1.onFabric (fun f => { f with
    decisions := f.decisions ++ late.map (fun d => (k.group, d.2, k.comm, d.1 - 1, if d.1 = 2 ∧ policy = 1 then 1 else 0))
      ++ lost.map (fun x => (k.group, x, k.comm, 1, 2))
    newDeferred := late.foldl (fun l d => if d.1 = 1 then setAdd l (deferKey k d.2) else l) f.newDeferred })
  let s3 := match storedDeferred s2 k.group p.step with
    | some d => if deferredIn.contains own ∧ k.group < 4096 then sendDeferred s2 k p.step d else s2
    | none => s2
  finishChunk (settleOwn s3 k p.step) k p.step

/-! ## Taking packets (R231) -/

/-- Send an ACK of the highest packet accepted in a stream. An ACK is of class 0 (Table 9.8) and its arg holds the number in its
low 32 bits; where the class of the acknowledged stream stands is not said, and it is taken to stand above them (DESIGN
CHOICE, assumption 67). -/
def sendAck (s : State) (k : StreamKey) : State :=
  let r := rxOf s k
  let s1 := setRx s { r with unackedCount := 0 }
  sendPacket s1 { blankPacket 5 k.src with
    comm := k.comm
    step := currentStep s
    arg := BitVec.ofNat 64 ((r.expect + 2 ^ 32 - 1) % 2 ^ 32 + k.cls * 2 ^ 32) }

/-- Take a packet of a type that reached this node: none where it is not for here, is not of the type, is of an earlier epoch
(R292), or is not the next of its stream (R231). -/
def takePacket (s : State) (ptype : Nat) (p : Packet) : Option State :=
  let s1 := removeDelivered s p
  if p.ptype ≠ ptype ∨ p.dst ≠ ownNode s ∨ p.epoch < s.fabric.epoch then none
  else if p.src = ownNode s ∨ nodeAttach p.src ≠ 7 ∨ unsequenced ptype then some s1
  else
    let k := streamKeyOf p
    let r := rxOf s1 k
    if p.epoch ≠ s.fabric.epoch ∨ p.streamSeq.toNat ≠ r.expect then none
    else
      let s2 := setRx s1 { r with expect := (r.expect + 1) % 2 ^ 32, unackedCount := r.unackedCount + 1 }
      some (if 16 ≤ r.unackedCount + 1 then sendAck s2 k else s2)

/-- What is left of a packet that is not taken: it is discarded. -/
def dropPacket (s : State) (p : Packet) : State := removeDelivered s p

/-- Do something with a packet if it is taken. -/
def withPacket (s : State) (ptype : Nat) (p : Packet) (f : State → State) : Host.Outcome State Fault Refusal :=
  if huskStopped s then .next s
  else match takePacket s ptype p with
  | some s1 => done s (f s1)
  | none => done s (dropPacket s p)

/-- The step of a collective that its member works on: that of the oldest free-standing one not complete, else the current step. -/
def openStep (s : State) (k : CollKey) : Nat :=
  match s.fabric.colls.find? (fun c => decide (c.key = k ∧ k.group = noGroup ∧ c.done = false)) with
  | some c => c.step
  | none => currentStep s

/-- The step of a packet is over: its collective is gone. -/
def stalePacket (s : State) (p : Packet) : Bool :=
  decide (p.step < currentStep s) &&
    s.fabric.colls.all (fun c => !decide (c.key = ⟨p.comm, p.group, p.collId⟩ ∧ c.step = p.step ∧ c.done = false))

/-- DATA or INBOUND that this member cannot take yet: it holds no GO for the collective, so it may send nothing on (R241), or the
step has not begun here (R41). An older member needs no GO and a faster one may be a step ahead. -/
def packetEarly (s : State) (p : Packet) : Bool :=
  let c := collAt s ⟨p.comm, p.group, p.collId⟩ p.step
  !stalePacket s p && (decide (c.decisions = [] ∨ currentStep s < p.step)) && (takePacket s p.ptype p).isSome

/-- The hold area has no room for the reduced data that a DATA packet brings (R242). -/
def holdFull (s : State) (p : Packet) : Bool :=
  let c := collAt s ⟨p.comm, p.group, p.collId⟩ p.step
  !stalePacket s p && decide (c.kind = 1 ∨ c.kind = 2) && !p.deferred && !roomFor s c (p.payload.length / fmtBytes (linkFmt s c))

/-- DATA: combined, forwarded or written (R240). It waits in the input buffer until the GO is held and the hold area has room. -/
def execData (p : Packet) (s : State) : Host.Outcome State Fault Refusal :=
  if packetEarly s p || holdFull s p then .next s
  else
    withPacket s 1 p (fun t =>
      let k : CollKey := ⟨p.comm, p.group, p.collId⟩
      if stalePacket t p then t
      else if (collAt t k p.step).kind = 1 ∨ (collAt t k p.step).kind = 2 then reductionData t k p.step p
      else if fmtBytes (collAt t k p.step).fmt = 0 then t
      else moveReceived t k p.step p)

/-- A READY of a collective is granted while the expiry of its timer waits too (R244, Table 2.5). -/
def countTie (s : State) (p : Packet) : State :=
  if s.pending.contains (.reductionDeadline ⟨p.comm, p.group, p.collId⟩) ∧ (collAt s ⟨p.comm, p.group, p.collId⟩ p.step).timer then
    s.onFabric (fun f => { f with ties := f.ties + 1 })
  else s

/-- READY: reaches the root (R244). A carrier summary that comes after its step's boundary stays with the deferred contribution
(R135). -/
def execReady (p : Packet) (s : State) : Host.Outcome State Fault Refusal :=
  withPacket s 2 p (fun t =>
    if isRoot t ⟨p.comm, p.group, p.collId⟩ = false then t
    else if stalePacket t p then
      if p.payload = [] ∨ p.step + 1 ≠ currentStep t then t
      else t.onFabric (fun f => { f with carrierDeferred := f.carrierDeferred ++ [(p.srcSlot, summaryOf p.payload)] })
    else readyAtRoot (countTie t p) p)

/-- GO: releases the member's DATA and INBOUND (R241). -/
def execGo (p : Packet) (s : State) : Host.Outcome State Fault Refusal :=
  withPacket s 3 p (fun t => if stalePacket t p then t else goAtMember t p)

/-- ACK: frees acknowledged packets from the retransmit store (R231). -/
def execAck (p : Packet) (s : State) : Host.Outcome State Fault Refusal :=
  withPacket s 5 p (fun t =>
    let k : StreamKey := ⟨ownNode t, p.src, p.arg.toNat / 2 ^ 32 % 4, p.comm⟩
    let x := txOf t k
    let upTo := p.arg.toNat % 2 ^ 32
    let rest := match x.unacked.findIdx? (fun q => decide (q.streamSeq.toNat = upTo)) with
      | some i => x.unacked.drop (i + 1)
      | none => x.unacked
    drainSend t.fabric.toSend.length (setTx t { x with unacked := rest }))

/-- Send again the unacknowledged packets of a stream (R231). -/
def resendStream (s : State) (x : TxStream) : State :=
  x.unacked.foldl (fun t q => forward (t.onFabric (fun f => { f with resends := f.resends + 1 })) q none) s

/-- PATH_NOTICE: every unacknowledged packet of the streams to that destination is sent again (R231). -/
def execPathNotice (p : Packet) (s : State) : Host.Outcome State Fault Refusal :=
  withPacket s 6 p (fun t =>
    (t.fabric.tx.filter (fun x => decide (x.key.dst.toNat = p.elemOffset % 2 ^ 24))).foldl resendStream t)

/-- ACK_TIMER: an ACK within 1 µs of accepting a packet not yet acknowledged (R231). -/
def execAckTimer (k : StreamKey) (s : State) : Host.Outcome State Fault Refusal :=
  if (rxOf s k).unackedCount = 0 then .next s else done s (sendAck s k)

/-- RESEND_TIMEOUT: 20 µs without an advancing ACK (R231). -/
def execResendTimeout (k : StreamKey) (s : State) : Host.Outcome State Fault Refusal :=
  let x := txOf s k
  if x.unacked = [] then .next s else done s (resendStream (raise s 0x030A0907 (nodePosition k.dst)) x)

/-! ## The collectives' own parts (Table 9.12) -/

/-- Run the own part of a collective of a kind once its GO is held (R241). -/
def ownPart (s : State) (k : CollKey) (kind : Nat) (f : State → CollKey → Nat → State) : Host.Outcome State Fault Refusal :=
  let step := openStep s k
  let c := collAt s k step
  if huskStopped s ∨ c.kind ≠ kind ∨ c.readySent = false ∨ c.decisions = [] ∨ c.ran then .next s
  else done s (f (onColl s k step (fun c => { c with ran := true })) k step)

/-- ALL_REDUCE: the member's part of every chunk's reduction (R239). -/
def execAllReduce (k : CollKey) (s : State) : Host.Outcome State Fault Refusal := ownPart s k 1 startReduction

/-- REDUCE_SCATTER: the same, its result kept by the owner (R239). -/
def execReduceScatter (k : CollKey) (s : State) : Host.Outcome State Fault Refusal := ownPart s k 2 startReduction

/-- ALL_GATHER: the owner's chunk travels the ring (R239). -/
def execAllGather (k : CollKey) (s : State) : Host.Outcome State Fault Refusal := ownPart s k 3 startGather

/-- ALL_TO_ALL: block j to slot j (R237). -/
def execAllToAll (k : CollKey) (s : State) : Host.Outcome State Fault Refusal := ownPart s k 4 startAllToAll

/-- BROADCAST: the source's elements travel the ring (R237). -/
def execBroadcast (k : CollKey) (s : State) : Host.Outcome State Fault Refusal := ownPart s k 5 startBroadcast

/-- REDUCTION_DEADLINE: the root's timer expires (R244); a READY of the collective that has arrived and waits is a tie (Table
2.5). -/
def execReductionDeadline (k : CollKey) (s : State) : Host.Outcome State Fault Refusal :=
  let step := openStep s k
  let c := collAt s k step
  if c.timer = false ∨ c.goSent ∨ isRoot s k = false then .next s
  else
    let tie := s.fabric.delivered.any (fun p => decide (p.ptype = 2 ∧ p.comm = k.comm ∧ p.group = k.group ∧ p.collId = k.collId ∧ p.step = step))
    let s1 := if tie then s.onFabric (fun f => { f with ties := f.ties + 1 }) else s
    done s (maybeGo (onColl s1 k step (fun c => { c with expired := true, timer := false })) k step)

end Sys2Proof.Machine
end

