-- ==== Sys2Proof/Machine/Egress.lean ====
section
/-! DEFINITION. Egress: targets (R270), the events of an export (R271), restarts after a connection error (R272), and Acorn's ring in
the snapshot target's buffer (R284). -/

namespace Sys2Proof.Machine

open Sys2Proof

/-- Bytes rounded up to a multiple of 64. -/
def ceil64 (n : Nat) : Nat := (n + 63) / 64 * 64

/-- An egress target record (Table 10.15): connection, valid, address, key, size. -/
structure Target where
  conn : Nat
  valid : Bool
  va : Nat
  rkey : Nat
  size : Nat
  deriving DecidableEq, Repr

/-- Egress target `t` in force. -/
def targetNow (s : State) (t : Nat) : Target :=
  let v := cfgElem s 0x580401 t
  ⟨bitsAt v 0 10, bitAt v 10, bitsAt v 64 64, bitsAt v 128 32, bitsAt v 160 40⟩

/-- The front-end port of a connection (Table 10.3). -/
def connPort (s : State) (c : Nat) : Nat := natOfBool (bitAt (cfgElem s 0x580201 c) 1)

/-- Give a port what the module sends on a connection; while the connection's priority is paused it waits (R252). -/
def sendOn (s : State) (c : Nat) (o : Output) : State :=
  let p := connPort s c
  if s.front.paused.contains p ∧ bitsAt (cfgElem s 0x580201 c) 16 3 = cfgElem s 0x580006 p % 8 then
    s.onFront (fun f => { f with heldOut := f.heldOut ++ [(p, o)] })
  else emit s o

/-- Bytes of the largest egress write. -/
def egressPiece : Nat := 1048576

/-- Send bytes as RDMA WRITEs of up to 1 MiB in ascending order, `n` of them. -/
def egressWrites (conn rkey : Nat) : Nat → State → Nat → List Byte → State
  | 0, s, _, _ => s
  | n + 1, s, va, l =>
    if l = [] then s
    else egressWrites conn rkey n (sendOn s conn (.egressWrite conn va rkey (l.take egressPiece))) (va + egressPiece) (l.drop egressPiece)

/-- Send bytes of an export to its target at an offset of the buffer, counted in egress_bytes. -/
def egressSend (s : State) (x : Export) (off : Nat) (l : List Byte) : State :=
  let t := targetNow s x.target
  let s1 := egressWrites t.conn t.rkey (l.length / egressPiece + 1) s (t.va + off) l
  s1.onFront (fun f => { f with egressBytes := tabCount f.egressBytes (connPort s t.conn) l.length })

/-- The trailer's offset in the buffer. -/
def Export.trailerAt (x : Export) : Nat := x.dstOffset + ceil64 x.length

/-- The 32 bytes of an export's trailer (Table 10.16). -/
def trailerBytes (x : Export) (state : Nat) : List Byte :=
  let (q, seq) := x.entry.getD (0, 0)
  bytesOfNat 32 (x.exportSeq + state * 2 ^ 32 + x.length * 2 ^ 64 + x.step * 2 ^ 128 + seq * 2 ^ 192 + q * 2 ^ 224)

/-- Put an export in the place of an equal one. -/
def replaceExport (s : State) (x y : Export) : State :=
  s.onFront (fun f => { f with exports := f.exports.map (fun z => if z = x then y else z) })

/-- Begin an export: its open trailer is written (R271). -/
def beginExport (s : State) (x : Export) : State :=
  egressSend (replaceExport s x { x with conn := (targetNow s x.target).conn, event := 0, acked := 0 }) x x.trailerAt (trailerBytes x 1)

/-- The export of a connection that is under way. -/
def activeExport (s : State) (conn : Nat) : Option Export :=
  s.front.exports.find? (fun x => decide (x.conn = conn ∧ x.event < 4))

/-- Start the next export that waits for a connection, when the connection is ready and none is under way on it: a new one, or a
stopped one whose own connection has become ready again (R272). -/
def startNext (s : State) (conn : Nat) : State :=
  if (connOf s conn).state ≠ 1 ∨ (activeExport s conn).isSome then s
  else
    match s.front.exports.find? (fun x => decide ((targetNow s x.target).conn = conn ∧
        (x.event = 5 ∨ (x.event = 4 ∧ (connOf s x.conn).state = 1)))) with
    | none => s
    | some x =>
      let s1 := if x.event = 4 then s.onFront (fun f => { f with restarts := f.restarts + 1 }) else s
      beginExport s1 x

/-- A connection has become ready: the exports that it stopped, and those that wait for it, go on, each on the connection that its
target record now names (R272). -/
def restartExports (s : State) (conn : Nat) : State :=
  ((s.front.exports.filter (fun x => decide (x.conn = conn))).map (fun x => (targetNow s x.target).conn)).foldl startNext (startNext s conn)

/-- Hand an export to its connection (R271: in dispatch order, one at a time). -/
def addExport (s : State) (x : Export) : State :=
  let conn := (targetNow s x.target).conn
  startNext (s.onFront (fun f => { f with exports := f.exports ++ [{ x with conn := conn, event := 5 }] })) conn

/-- The connection on which an output is sent. -/
def outputConn : Output → Option Nat
  | .rdmaAck c => some c
  | .rdmaNak c _ => some c
  | .rdmaData c _ => some c
  | .egressWrite c _ _ _ => some c
  | .egressRead c _ _ => some c
  | .cnp c => some c
  | _ => none

/-- What a connection was still to send is discarded: it left the ready state (R254). -/
def dropOutputs (s : State) (conn : Nat) : State :=
  s.onFront (fun f => { f with heldOut := f.heldOut.filter (fun x => decide (outputConn x.2 ≠ some conn)) })

/-- Stop the exports of a connection that leaves the ready state: the bytes not yet delivered are counted (R272). -/
def stopExports (s : State) (conn : Nat) (error : Bool) : State :=
  match activeExport s conn with
  | none => s
  | some x =>
    let s1 := replaceExport s x { x with event := 4, acked := 0 }
    if error then
      raise (s1.onFront (fun f => { f with undelivered := f.undelivered + (x.length - x.acked) })) 0x030C0A09 conn
    else s1

/-- A ready connection enters error (R254). -/
def connError (s : State) (conn : Nat) : State :=
  if (connOf s conn).state ≠ 1 then s
  else stopExports (onConn (dropOutputs s conn) conn (fun c => { c with state := 2, held := [], retriesUsed := 0 })) conn true

/-! ## Acorn's exports (R284) -/

/-- snapshot_target, if it names a valid egress target. -/
def snapshotTarget (s : State) : Option Nat :=
  let n := cfg s 0x600004
  if n < 64 ∧ (targetNow s n).valid = true then some n else none

/-- The 64-byte header and the payload of a saved record (R283). -/
def Saved.bytes (r : Saved) : List Byte :=
  recordHeader r.kind r.slot r.epoch r.step r.fromStep r.group (shake256 r.payload 32) ++ r.payload

/-- The place of a record of `n` bytes in the target's ring, if the part below snapshot_consumed leaves room there. -/
def ringPlace (s : State) (size n : Nat) : Option Nat :=
  let len := ceil64 n + 64
  let off := if s.resil.ringNext + len ≤ size then s.resil.ringNext else 0
  let live := s.resil.ring.filter (fun r => decide (cfg s 0x600007 < r.1))
  if len ≤ size ∧ live.all (fun r => decide (r.2.2 ≤ off ∨ off + len ≤ r.2.1)) then some off else none

/-- Acorn hands its oldest record that is due to the snapshot target, one at a time (R284). -/
def exportDue (s : State) : State :=
  match s.resil.exportsDue, snapshotTarget s with
  | r :: _, some t =>
    if s.front.exports.any (fun x => x.entry.isNone) then s
    else
      let l := r.bytes
      match ringPlace s (targetNow s t).size l.length with
      | none => s
      | some off =>
        let seq := s.resil.exportSeq + 1
        let s1 := s.onResil (fun x => { x with
          exportSeq := seq
          ringNext := off + ceil64 l.length + 64
          ring := x.ring.filter (fun y => decide (cfg s 0x600007 < y.1)) ++ [(seq, off, off + ceil64 l.length + 64)] })
        addExport s1 ⟨none, 0, t, 0, l.length, seq, off, r.step, 5, 0, l⟩
  | _, _ => s

/-- An export of Acorn's has completed: counted, and its record is no longer due. -/
def acornExported (s : State) (x : Export) : State :=
  exportDue (s.onResil (fun r => { r with exportsDue := r.exportsDue.drop 1, snapshotBytes := r.snapshotBytes + x.length }))

end Sys2Proof.Machine
end

