-- ==== Sys2Proof/Machine/Saving.lean ====
section
/-! DEFINITION. Saved copies (R279 to R286): what a record holds, sending records to the buddy, the save gate's records, and the
records of contributions and results. Layouts that the spec leaves open are those of assumption 12. -/

namespace Sys2Proof.Machine

open Sys2Proof

/-! ## Sweep bindings -/

/-- The sweep binding `b` in force (Table 7.4). -/
structure Binding where
  group : Nat
  valid : Bool
  region : Nat
  partialBase : Nat
  partialRows : Nat
  inboundRows : Nat
  inboundBase : Nat
  listBase : Nat
  deriving DecidableEq, Repr

/-- The binding that 64 bytes hold. -/
def bindingRecord (v : Nat) : Binding :=
  ⟨bitsAt v 0 13, bitAt v 13, bitsAt v 14 6, bitsAt v 64 48, bitsAt v 128 32, bitsAt v 160 32, bitsAt v 192 48, bitsAt v 256 48⟩

/-- Sweep binding `b` in force. -/
def bindingNow (s : State) (b : Nat) : Binding := bindingRecord (cfgElem s 0x380102 b)

/-- The valid binding of a sweep group. -/
def bindingOfGroup (s : State) (g : Nat) : Option Nat :=
  (List.range 32).find? (fun b => (bindingNow s b).valid && decide ((bindingNow s b).group = g))

/-- The place of partial slot `n` of a binding. -/
def partialAt (b : Binding) (rowLen n : Nat) : Nat := b.partialBase + 4 * rowLen * n

/-- The own partial rows of a binding in ascending global row order: row, values, poison. -/
def partialRowsOf (s : State) (bn : Nat) : List (Nat × List Nat × Bool) × State :=
  let b := bindingNow s bn
  let rowLen := (groupNow s b.group).rowLen
  let dir := (bindingOf s bn).directory
  let sorted := dir.foldl setAddSorted []
  sorted.foldl (fun x row =>
    let n := (dir.findIdx? (fun y => y == row)).getD 0
    let (v, t) := readThrough x.2 .hazel (partialAt b rowLen n) (4 * rowLen)
    let t1 := if v.error then recordFault t 0x02090801 (partialAt b rowLen n) else t
    (x.1 ++ [(row, elemsOfBytes 4 rowLen v.bytes, v.poisoned)], t1)) ([], s)

/-- Row `j` of a binding's row list. -/
def listedRow (s : State) (b : Binding) (j : Nat) : Nat :=
  natOfBytes ((List.range 4).map (fun i => heldByte s.mem s.free (b.listBase + 4 * j + i)))

/-! ## Methods and the buddy (R280, R282) -/

/-- The method with which a group is saved, automatic resolved: 0 peer, 1 mirror, 2 snapshot (R280). -/
def saveMethodIn (t : Tab Byte) (g : Group) : Nat :=
  let v := storeNat t 0x600101 g.number 1
  if v ≠ 0xFF then v else if 4096 ≤ g.number then 2 else if g.replicated then 0 else 1

/-- The method of a group in force. -/
def saveMethod (s : State) (g : Nat) : Nat := saveMethodIn s.dict.values (groupNow s g)

/-- A group whose state is member-specific: not saved by peer copies (Table 11.5). -/
def memberSpecific (s : State) (g : Nat) : Bool := decide (g ≠ noGroup) && decide (saveMethod s g ≠ 0)

/-- A buddy is named. -/
def hasBuddy (s : State) : Bool := decide (cfg s 0x600001 ≠ 0xFFFFFFFF)

/-- The node of the buddy. -/
def buddyNode (s : State) : BitVec 24 := BitVec.ofNat 24 (cfg s 0x600001)

/-- The module's own slot in the job group. -/
def jobSlot (s : State) : Nat :=
  match commGroup s (jobGroup s) with
  | some g => (ownSlot s g).getD 0
  | none => 0

/-- The epoch in force at a step (Table 11.6): that of the commit record for the step it commits. -/
def epochAt (s : State) (step : Nat) : Nat := if s.train.started ∧ s.train.record.step = step then s.train.record.epoch else s.fabric.epoch

/-- A record of a kind, of this module's slot, about one step, with the poison of its payload's bytes (R202). -/
def markedRecord (s : State) (kind step group : Nat) (payload : List (Byte × Bool)) : Saved :=
  ⟨kind, ownNode s, jobSlot s, epochAt s step, step, step, group, payload.map (fun x => x.1), markedAt (payload.map (fun x => x.2))⟩

/-- A record without poison. -/
def savedRecord (s : State) (kind step group : Nat) (payload : List Byte) : Saved :=
  markedRecord s kind step group (payload.map (fun b => (b, false)))

/-- The payload of a record with its poison. -/
def Saved.marked (r : Saved) : List (Byte × Bool) := r.payload.zipIdx.map (fun x => (x.1, r.poison.contains x.2))

/-- Mark a row of a sweep group as touched since the previous DELTA (R285). -/
def touchRow (s : State) (group row : Nat) : State :=
  s.onResil (fun x => { x with touched := if x.touched.contains (group, row) then x.touched else x.touched ++ [(group, row)] })

/-! ## Sending records -/

/-- MIRROR packets of the marked bytes of a record from offset `off` up, `n` of them at most; the one with fewer than 4,096 bytes
is the last (assumption 11). -/
def mirrorPackets (s : State) (dst : BitVec 24) (step group : Nat) : Nat → Nat → List (Byte × Bool) → List Packet
  | 0, _, _ => []
  | n + 1, off, l =>
    { blankPacket 0xA dst with
      comm := jobGroup s
      step := step
      group := group
      elemOffset := off
      payload := (l.take 4096).map (fun x => x.1)
      poison := poisonWords 1 ((l.take 4096).map (fun x => (x.1.toNat, x.2))) } ::
      (if l.length < 4096 then [] else mirrorPackets s dst step group n (off + 4096) (l.drop 4096))

/-- Send a record to a node. -/
def sendRecord (s : State) (dst : BitVec 24) (r : Saved) : State :=
  let l := (r.bytes.take 64).map (fun b => (b, false)) ++ r.marked
  let s1 := (mirrorPackets s dst r.step r.group (l.length / 4096 + 1) 0 l).foldl sendPacket s
  if hasBuddy s = true ∧ dst = buddyNode s then s1.onResil (fun x => { x with mirrorBytes := x.mirrorBytes + l.length }) else s1

/-- The buddy's part of saving a record: sent, and, of the kinds that the save gate waits for, kept until it is acknowledged. A
REDO record waits for a buddy where there is none. -/
def saveToBuddy (s : State) (r : Saved) : State :=
  let gated := decide (r.kind = 3 ∨ r.kind = 4) || (hasBuddy s && decide (r.kind = 5 ∨ r.kind = 6))
  let s1 := if gated then s.onResil (fun x => { x with gate := x.gate ++ [r] }) else s
  if hasBuddy s then sendRecord s1 (buddyNode s) r else s1

/-- This module exports the snapshot tier: of a twin pair, role 1, or role 2 from the step after role 1 was lost (R301). -/
def exportsHere (s : State) : Bool := decide (cfg s 0x600601 ≠ 2) || s.resil.twinExports

/-- Save a record: kinds 3 to 7 on the buddy, kinds 1 to 5 in the snapshot tier (Table 11.7, R284). -/
def saveRecord (s : State) (r : Saved) : State :=
  let s1 := if 3 ≤ r.kind then saveToBuddy s r else s
  if r.kind ≤ 5 ∧ (snapshotTarget s).isSome ∧ exportsHere s = true then
    exportDue (s1.onResil (fun x => { x with exportsDue := x.exportsDue ++ [r] }))
  else s1

/-! ## Payloads (Table 11.7) -/

/-- Rows as bytes: each row's global number, then its values, with its poison. -/
def rowBytes (l : List (Nat × List Nat × Bool)) : List (Byte × Bool) :=
  l.flatMap (fun x => (bytesOfNat 8 x.1).map (fun b => (b, false)) ++ elemData 4 (x.2.1.map (fun v => (v, x.2.2))))

/-- The REDO_CONTRIB of the own contribution to a group's collective, and the state after the reads. -/
def contribRecord (s : State) (k : CollKey) (step : Nat) : Saved × State :=
  let c := collAt s k step
  if k.group < 4096 then
    let (l, s1) := ownValues s c 0 c.count
    (markedRecord s 3 step k.group (elemData 4 l), s1)
  else
    match bindingOfGroup s k.group with
    | some b =>
      let (l, s1) := partialRowsOf s b
      (markedRecord s 3 step k.group (rowBytes l), s1)
    | none => (savedRecord s 3 step k.group [], s)

/-- The REDO_RESULT of a group: its reduced values, or the merged rows in list order. -/
def resultRecord (s : State) (step g : Nat) : Saved × State :=
  let r := groupNow s g
  if g < 4096 then
    let (b, s1) := readThrough s .acorn r.rbuf (4 * r.elements)
    (markedRecord s 4 step g b.data, if b.error then recordFault s1 0x020E0801 r.rbuf else s1)
  else
    match bindingOfGroup s g with
    | some bn =>
      let (rows, s1) := (List.range (bindingOf s bn).mergedRows).foldl (fun (a : List (Nat × List Nat × Bool) × State) j =>
        let (v, t) := readThrough a.2 .acorn (r.rbuf + 4 * r.rowLen * j) (4 * r.rowLen)
        (a.1 ++ [(listedRow s (bindingNow s bn) j, elemsOfBytes 4 r.rowLen v.bytes, v.poisoned)],
          if v.error then recordFault t 0x020E0801 (r.rbuf + 4 * r.rowLen * j) else t)) ([], s)
      (markedRecord s 4 step g (rowBytes rows), s1)
    | none => (savedRecord s 4 step g [], s)

/-- Save the result with which a member-specific group will be updated (before the cut, Table 11.7). -/
def saveResult (s : State) (g : Nat) : State :=
  if memberSpecific s g then
    let (r, s1) := resultRecord s (currentStep s) g
    saveRecord s1 r
  else s

/-! ## The gate before READY (R286) -/

/-- The REDO_CONTRIB of a group's contribution of the step is not acknowledged. -/
def contribHeld (s : State) (g step : Nat) : Bool :=
  s.resil.gate.any (fun r => decide (r.kind = 3 ∧ r.group = g ∧ r.step = step))

/-- Send the READYs that the gate held: collectives of member-specific groups issued in the step whose record is acknowledged; the
carrier's, `carrier`, with the step summary (R133). -/
def releaseReadys (s : State) (carrier : Option Nat) : State :=
  (s.fabric.colls.filter (fun c => decide (c.step = currentStep s ∧ c.kind ≠ 0 ∧ c.readySent = false) && memberSpecific s c.key.group &&
      (workOf s c.key.group).issued && !contribHeld s c.key.group c.step)).foldl (fun t c =>
    settleOwn (sendReady t c.key c.step (if carrier = some c.key.group then s.train.ownSummary else none)) c.key c.step) s

/-- Issue a contribution to the root: at once, or, of a member-specific group, once its REDO_CONTRIB is acknowledged. -/
def issueReady (s : State) (k : CollKey) (summary : Option Summary) : State :=
  let step := currentStep s
  if memberSpecific s k.group then
    let (r, s1) := contribRecord s k step
    releaseReadys (saveRecord s1 r) (if summary.isSome then some k.group else none)
  else settleOwn (sendReady s k step summary) k step

/-! ## The gate before the cut -/

/-- Nothing that the staging cut waits for is unacknowledged: REDO_RESULTs, LEDGER and GENERATIONs, the full transfer (R286). -/
def cutGateOpen (s : State) : Bool :=
  s.resil.gate.all (fun r => decide (r.kind = 3)) && decide (s.resil.transfer = [])

end Sys2Proof.Machine
end

