-- ==== Sys2Proof/Machine/Queues.lean ====
section
/-! DEFINITION. The queue handler (R261 to R268): queue records, pending entries, acceptance and steps, dispatch, completion and its
records; local faults of a step (R142); the end of a trap (R115). -/

namespace Sys2Proof.Machine

open Sys2Proof

/-! ## Queue and entry records -/

/-- A queue record (Table 10.6). -/
structure QueueRecord where
  ring : Nat
  cq : Nat
  log2 : Nat
  startSeq : Nat
  zero : Bool
  deriving DecidableEq, Repr

/-- The record of queue `q` in force. -/
def queueRecord (s : State) (q : Nat) : QueueRecord :=
  let v := cfgElem s 0x581001 q
  ⟨bitsAt v 0 48, bitsAt v 64 48, bitsAt v 128 5, bitsAt v 160 32, decide (v = 0)⟩

/-- Entries of a queue's ring. -/
def QueueRecord.size (r : QueueRecord) : Nat := 2 ^ r.log2

/-- (x − y) mod 2^32. -/
def seqDistance (x y : Nat) : Nat := (x + 2 ^ 32 - y % 2 ^ 32) % 2 ^ 32

/-- The 128 bytes of an entry as a number. -/
def Entry.nat (e : Entry) : Nat := natOfBytes (e.words.flatMap (fun w => bytesOfNat 8 w.toNat))

/-- A field of an entry's body or header. -/
def Entry.field (e : Entry) (lo len : Nat) : Nat := bitsAt e.nat lo len

/-- The kind of an entry (Table 10.9). -/
def Entry.kind (e : Entry) : Nat := e.field 16 8

/-- The bits of an entry's body that its kind uses, as first bit and length (Tables 10.9 and 10.15). -/
def bodyFields (kind : Nat) : List (Nat × Nat) :=
  match kind with
  | 1 => [(256, 48), (320, 9), (329, 9)]
  | 2 => [(256, 48), (304, 4)]
  | 3 => [(256, 48)]
  | 4 => [(256, 48)]
  | 5 => [(256, 48), (320, 40), (384, 6), (416, 32), (448, 40)]
  | _ => []

/-- The value with the fields of a list cleared. -/
def clearFields (v : Nat) (l : List (Nat × Nat)) : Nat := l.foldl (fun a f => clearField a f.1 f.2) v

/-- A header or body bit that is unused or reserved is set (R265). -/
def entryReserved (e : Entry) : Bool :=
  let v := e.nat
  decide (bitsAt v 27 5 ≠ 0 ∨ bitsAt v 71 25 ≠ 0 ∨ bitsAt v 135 25 ≠ 0 ∨ bitsAt v 252 4 ≠ 0 ∨
    clearFields (v / 2 ^ 256 * 2 ^ 256) (bodyFields e.kind) ≠ 0)

/-- A range lies wholly in the HBM range or wholly in the pinned window. -/
def inHbmOrPinned (a len : Nat) : Bool :=
  decide (a + len ≤ hbmEnd) || decide (pinnedBase ≤ a ∧ a + len ≤ 0x010280000000)

/-- An entry breaks Table 10.8 or 10.9, or Table 10.15 for an export. -/
def entryMalformed (s : State) (e : Entry) : Bool :=
  entryReserved e || decide (e.kind = 0 ∨ 6 < e.kind ∨ e.field 24 2 = 3 ∨ (e.field 240 12 ≠ 0 ∧ e.field 192 48 % 16 ≠ 0)) ||
    (match e.kind with
     | 1 => decide (e.field 256 48 % 128 ≠ 0 ∨ e.field 329 9 = 0 ∨ 384 < e.field 329 9 ∨
         logicalTiles s < e.field 320 9 + e.field 329 9)
     | 2 => decide (11 < e.field 304 4)
     | 5 =>
       let t := targetNow s (e.field 384 6)
       decide (t.valid = false ∨ e.field 320 40 = 0 ∨ e.field 256 48 % 64 ≠ 0 ∨ e.field 448 40 % 64 ≠ 0 ∨
         t.size < e.field 448 40 + ceil64 (e.field 320 40) + 64) || !inHbmOrPinned (e.field 256 48) (e.field 320 40)
     | _ => false)

/-! ## Reading for the queue handler -/

/-- Read a record of `len` bytes: its number, or the code with which its entry faults; it waits where a word of it is held for
repair (R200). -/
def readRecord (s : State) (a len : Nat) : Got Nat × State :=
  match accessDetail s .hazel false a len with
  | some d => (.fault (codeOf 2 0x0D d), s)
  | none =>
    let (b, s1) := readThrough s .hazel a len
    if b.held then (.wait, s1)
    else if b.error then (.fault 0x020D0801, s1)
    else if b.poisoned then (.fault 0x020D0802, s1)
    else (.ok b.nat, s1)

/-- The Cracker command kind and region that an entry names, where its command can be read. -/
def crackerCommandOf (s : State) (e : Entry) : Option (Nat × Nat) :=
  match readRecord s (e.field 256 48) 64 with
  | (.ok v, _) => some (bitsAt v 0 8, bitsAt v 24 6)
  | _ => none

/-- An item of a reduce list keeps the layout of Table 10.11, and names a group of the kind that its entry may name (R266). -/
def itemForm (e : Entry) (v : Nat) : Bool :=
  let g := bitsAt v 0 13
  decide (bitsAt v 13 51 = 0 ∧ bitsAt v 112 16 = 0 ∧ bitsAt v 64 48 % 64 = 0 ∧ g < 4128 ∧ e.kind = if g < 4096 then 1 else 2)

/-- A named group is one that the entry may name under the configuration in force for its step: valid, a sweep group by a GRAD on
its binding (R264, R266). -/
def itemOk (s : State) (e : Entry) (g : Nat) : Bool :=
  (groupNow s g).valid && (decide (g < 4096) || (match crackerCommandOf s e, bindingOfGroup s g with
    | some (k, r), some b => decide (k = 3 ∧ r = (bindingNow s b).region)
    | _, _ => false))

/-- What the reading of a reduce list gives: group and collective command of every item that could be read, whether one of them
breaks Table 10.11 or R266, whether one could not be read, and whether one is held for repair. -/
structure ItemsRead where
  items : List (Nat × Nat)
  bad : Bool
  unread : Bool
  held : Bool
  deriving DecidableEq, Repr

/-- Read the items of an entry's reduce list. -/
def readItems (s : State) (e : Entry) : ItemsRead × State :=
  (List.range (e.field 240 12)).foldl (fun (x : ItemsRead × State) i =>
    match readRecord x.2 (e.field 192 48 + 16 * i) 16 with
    | (.ok v, t) => ({ x.1 with items := x.1.items ++ [(bitsAt v 0 13, bitsAt v 64 48)], bad := x.1.bad || !itemForm e v }, t)
    | (.fault c, t) => ({ x.1 with unread := true }, raise t c 0)
    | (.wait, t) => ({ x.1 with held := true }, t)) (⟨[], false, false, false⟩, s)

/-! ## Groups and their collectives (R123, R142) -/

/-- The carrier group of a configuration (R121). -/
def carrierIn (t : Tab Byte) : Option Nat :=
  let named := storeNat t 0x481001 0 2
  if named ≠ 0xFFFF then some named
  else
    let l := (validGroups t).filter (fun g => decide (g.number < 4096) && g.replicated)
    (l.foldl (fun (a : Option Group) g => match a with
      | none => some g
      | some b => if g.layer < b.layer then some g else some b) none).map (fun g => g.number)

/-- The carrier group in force. -/
def carrierNow (s : State) : Option Nat := carrierIn s.dict.values

/-- The communication group of a table region. -/
def regionComm (s : State) (r : Nat) : Nat := bitsAt (cfgElem s 0x380101 r) 144 8

/-- The command used in place of one that halted or could not be read (R142). -/
def replacementCmd (s : State) (g : Nat) : CollCmd :=
  let r := groupNow s g
  if g < 4096 then ⟨1, false, none, jobGroup s, 7, g, 0, false, r.rbuf, r.rbuf, r.elements⟩
  else
    let region := match bindingOfGroup s g with
      | some b => (bindingNow s b).region
      | none => 0
    ⟨6, false, none, regionComm s region, 7, g, 0, false, 0, 0, 0⟩

/-- The command of a group's reduction: the one its item names, or, with a fault recorded, the replacement. -/
def groupCommand (s : State) (g coll : Nat) : CollCmd × State :=
  match readRecord s coll 64 with
  | (.ok v, s1) =>
    let c := collCmdOf v
    match collFault s1 c g with
    | none => (c, s1)
    | some code => (replacementCmd s1 g, recordFault s1 code g)
  | (.fault code, s1) => (replacementCmd s1 g, recordFault s1 code g)
  | (.wait, s1) => (replacementCmd s1 g, recordFault s1 0x020D0801 g)

/-- The collective commands that an entry's completion reads are all readable now; the state is that after the reads, which a line
held for repair delays (R200). -/
def commandsReady (s : State) (items : List (Nat × Nat)) : Bool × State :=
  items.foldl (fun (x : Bool × State) y => match readRecord x.2 y.2 64 with
    | (.wait, t) => (false, t)
    | _ => x) (true, s)

/-- The collective of a command in the current step, known from now on by its fields. -/
def openColl (s : State) (k : CollKey) (c : CollCmd) (entry : Option (Nat × Nat)) : State :=
  onColl s k (currentStep s) (fun x => { x with
    kind := c.kind
    dirBoth := c.dirBoth
    signal := c.signal
    fmt := c.fmt
    source := c.source
    send := c.send
    recv := c.recv
    count := c.count
    entry := entry })

/-- Issue a group's contribution: READY goes to the root, the carrier's with the step summary (R123, R133, R241). -/
def issueContribution (s : State) (g coll : Nat) (summary : Option Summary) : State :=
  let (c, s1) := if coll = 0 then (replacementCmd s g, s) else groupCommand s g coll
  let k : CollKey := ⟨c.comm, g, 0⟩
  let s2 := openColl (onWork s1 g (fun w => { w with issued := true })) k c none
  issueReady s2 k summary

/-- Issue the carrier's contribution after the cut, by the command checked before it; the step was closed without one where none
is known (R142, R143). -/
def issueCarrier (s : State) (g : Nat) (summary : Summary) : State :=
  match s.fabric.colls.find? (fun c => decide (c.key.group = g ∧ c.step = currentStep s ∧ c.kind ≠ 0)) with
  | some c => issueReady (onWork s g (fun w => { w with issued := true })) c.key (some summary)
  | none => issueContribution s g 0 (some summary)

/-- The valid groups that a completed entry names become final, and their contributions are issued; the carrier's command is only
checked. -/
def finishGroups (s : State) (items : List (Nat × Nat)) : State :=
  items.foldl (fun t x =>
    if (workOf t x.1).final ∨ (workOf t x.1).issued ∨ (groupNow t x.1).valid = false then t
    else
      let t0 := if x.1 < 4096 then t.onCache (fun c => { c with updating := setAdd c.updating x.1 }) else t
      let t1 := onWork t0 x.1 (fun w => { w with final := decide (x.1 < 4096), coll := x.2 })
      if carrierNow t1 = some x.1 then
        let (c, t2) := groupCommand t1 x.1 x.2
        openColl t2 ⟨c.comm, x.1, 0⟩ c none
      else issueContribution t1 x.1 x.2 none) s

/-! ## Completion -/

/-- Change an entry of a queue. -/
def onEntry (s : State) (q seq : Nat) (f : Entry → Entry) : State :=
  onQueue s q (fun x => { x with entries := x.entries.map (fun e => if e.seq = seq then f e else e) })

/-- The entry of a sequence number that a queue holds. -/
def entryAt (s : State) (q seq : Nat) : Option Entry := (queueOf s q).entries.find? (fun e => e.seq == seq)

/-- An entry completes with an outcome; its groups become final unless it was not run. -/
def endEntry (s : State) (q : Nat) (e : Entry) (outcome : Nat) (code : Code) : State :=
  let s1 := onEntry s q e.seq (fun e => { e with status := 2, outcome := outcome, code := code })
  if outcome = 2 then s1 else finishGroups s1 e.reduce

/-- The entries of the current step that satisfy a test, with their queues. -/
def stepEntries (s : State) (f : Entry → Bool) : List (Nat × Entry) :=
  s.front.queues.flatMap (fun q => (q.2.entries.filter (fun e => decide (e.step = currentStep s) && f e)).map (fun e => (q.1, e)))

/-- An item that could not be read names one of the groups that no other item names; those groups take the replacement command
(R142; which groups an unreadable item names the spec does not say: DESIGN CHOICE, assumption 82). -/
def replaceUnread (s : State) : State :=
  if s.front.carrierAt.isNone ∨ (stepEntries s (fun e => e.unread)).isEmpty then s
  else (validGroups s.dict.values).foldl (fun t g =>
    let w := workOf t g.number
    if w.named ∨ w.issued ∨ carrierNow t = some g.number then t
    else issueContribution (onWork t g.number (fun w => { w with final := decide (g.number < 4096) })) g.number 0 none) s

/-- Every accepted entry of the current step that is not dispatched completes with fault status, without running, and the groups
that entries disabled with their queue name are contributed as well (R142). -/
def failWaiting (s : State) : State :=
  let s1 := (stepEntries s (fun e => e.status == 0)).foldl (fun t x => endEntry t x.1 x.2 1 t.train.localFault) s
  replaceUnread ((stepEntries s (fun e => e.status == 2 && e.outcome == 2)).foldl (fun t x => finishGroups t x.2.reduce) s1)

/-- What a fault of the step brings with it. -/
def settleFault (s : State) : State := if s.train.faulted ∧ s.train.cut = false then failWaiting s else s

/-- A local fault of the step is recorded (R142). -/
def localFault (s : State) (code : Code) (arg : Nat) : State := settleFault (recordFault s code arg)

/-- The 32 bytes of a completion record (Table 10.12). -/
def completionBytes (q : Nat) (e : Entry) : List Byte :=
  let lowest := e.trapped.foldl min 0xFFFF
  bytesOfNat 32 (e.seq + e.kind * 2 ^ 32 + e.outcome * 2 ^ 40 + q * 2 ^ 42 + e.code.toNat * 2 ^ 64 + e.field 32 32 * 2 ^ 96
    + e.step * 2 ^ 128 + (if e.trapped = [] then 0 else lowest) * 2 ^ 192 + e.trapped.length * 2 ^ 208)

/-- Write the record of a completed entry and let the entry go. -/
def releaseEntry (s : State) (q : Nat) (e : Entry) : State :=
  let r := queueRecord s q
  let s1 := putThrough s .hazel (r.cq + 32 * (e.seq % r.size)) (completionBytes q e)
  onQueue s1 q (fun x => { x with
    released := if x.kept = [] then (x.released + 1) % 2 ^ 32 else x.released
    entries := x.entries.erase e
    kept := x.kept.drop 1 })

/-- Write the records of a queue that may be released, in sequence order: those of entries complete whose step's boundary is
`upTo` or earlier (R268), first of those that an enable found still to be completed (R261). -/
def releaseQueue : Nat → Nat → State → Nat → State
  | 0, _, s, _ => s
  | n + 1, q, s, upTo =>
    let x := queueOf s q
    match x.entries.find? (fun e => e.seq == x.kept.headD x.released) with
    | none => s
    | some e => if e.status = 2 ∧ e.step ≠ 0 ∧ e.step ≤ upTo then releaseQueue n q (releaseEntry s q e) upTo else s

/-- Release what every queue may release. -/
def releaseAll (s : State) (upTo : Nat) : State :=
  (s.front.queues.map (fun q => q.1)).foldl (fun t q => releaseQueue (queueOf t q).entries.length q t upTo) s

/-- The release of records after an entry has completed: those of steps whose boundaries have passed. -/
def releaseLate (s : State) (q : Nat) : State := releaseQueue (queueOf s q).entries.length q s s.train.committed

/-! ## Steps of entries (R264) -/

/-- No pending entry has an ordinal below this one: every entry of a lower ordinal was accepted or removed. -/
def ordinalSettled (s : State) (ordinal : Nat) : Bool :=
  s.front.queues.all (fun q => q.2.pending.all (fun p => decide (ordinal ≤ p.ordinal)))

/-- The accepted entry of the lowest ordinal (then sequence order) whose step is unknown. -/
def nextUnknown (s : State) : Option (Nat × Entry) :=
  s.front.queues.foldl (fun (a : Option (Nat × Entry)) q =>
    match q.2.entries.find? (fun e => decide (e.step = 0)) with
    | none => a
    | some e => match a with
      | none => some (q.1, e)
      | some b => if e.ordinal < b.2.ordinal then some (q.1, e) else a) none

/-- The lowest valid group that no entry of the step names (R264). -/
def unnamedGroup (s : State) : Option Nat :=
  ((validGroups s.dict.values).find? (fun g => !(workOf s g.number).named)).map (fun g => g.number)

/-- A group is named in the step, or twice in the list itself. -/
def namedTwice (s : State) (l : List (Nat × Nat)) : Bool :=
  l.any (fun x => (workOf s x.1).named) || decide ((l.map (fun x => x.1)).eraseDups.length ≠ l.length)

/-- Give an entry the current step: its groups are named, a broken one completes without running, the carrier entry closes the
step. An entry that its queue's disable left out keeps its outcome. -/
def joinStep (s : State) (q : Nat) (e : Entry) : State :=
  let step := currentStep s
  let twice := namedTwice s e.reduce
  let s1 := onEntry s q e.seq (fun e => { e with step := step })
  let s2 := e.reduce.foldl (fun t x => onWork t x.1 (fun w => if w.named then w else { w with named := true, coll := x.2 })) s1
  let carrier := match carrierNow s with
    | some c => e.reduce.any (fun x => decide (x.1 = c))
    | none => false
  let s3 := if carrier then
      let s3 := s2.onFront (fun f => { f with carrierAt := some (e.ordinal, q) })
      match (if (stepEntries s3 (fun e => e.unread)).isEmpty then unnamedGroup s3 else none) with
      | some g => raise s3 0x040D0A07 g
      | none => s3
    else s2
  let badItem := e.bad || e.unread || e.reduce.any (fun x => !itemOk s e x.1)
  let code : Option Code :=
    if e.status = 2 then none else if entryMalformed s e then some 0x040D0A04 else if badItem then some 0x040D0A05 else if twice then some 0x040D0A06 else none
  match code with
  | some c =>
    let s4 := recordFault s3 c q
    settleFault (endEntry s4 q { e with step := step } 1 c)
  | none => settleFault s3

/-- Settle the steps of accepted entries in ordinal order, up to the carrier entry of the step (R264). -/
def settleSteps : Nat → State → State
  | 0, s => s
  | n + 1, s =>
    if s.front.carrierAt.isSome ∨ s.train.closed then s
    else
      match nextUnknown s with
      | none => s
      | some (q, e) => if ordinalSettled s e.ordinal then settleSteps n (joinStep s q e) else s

/-- Settle every step that can be settled now. -/
def settleAll (s : State) : State := settleSteps (s.front.queues.foldl (fun a q => a + q.2.entries.length) 0) s

/-! ## Queue faults, doorbells, reading entries (R262, R263) -/

/-- A queue faults: pending entries removed, the code raised with the queue as argument (R263). -/
def faultQueue (s : State) (q : Nat) (code : Code) (seq : Nat) : State :=
  settleAll (raise (onQueue s q (fun x => { x with state := 2, code := code, faultSeq := seq, pending := [] })) code q)

/-- A post_count doorbell (R262): the value, with the ordinal it has taken. -/
def postCount (s : State) (q p ordinal : Nat) : State :=
  let x := queueOf s q
  let d := seqDistance p x.posted
  if x.state ≠ 1 ∨ d = 0 ∨ 2 ^ 31 ≤ d then s
  else if (queueRecord s q).size < seqDistance p x.consumed then faultQueue s q 0x040D0A02 p
  else onQueue s q (fun x => { x with
    posted := p
    pending := x.pending ++ (List.range d).map (fun i => ⟨(x.posted + i) % 2 ^ 32, ordinal, 0, false⟩) })

/-- A cq_consumed doorbell (R262). -/
def consumeCount (s : State) (q c : Nat) : State :=
  let x := queueOf s q
  if x.state ≠ 1 then s
  else if seqDistance x.released x.consumed < seqDistance c x.consumed then faultQueue s q 0x040D0A03 c
  else onQueue s q (fun x => { x with consumed := c })

/-- The expected tag of an entry: its lap (R263). -/
def expectedTag (r : QueueRecord) (seq : Nat) : Nat := seq / r.size % 2 ^ 16

/-- The accepted count after an entry, past those that a recovery boundary kept (R292). -/
def passKept (l : List Entry) : Nat → Nat → Nat
  | 0, seq => seq
  | n + 1, seq => if l.any (fun e => decide (e.seq = seq)) then passKept l n ((seq + 1) % 2 ^ 32) else seq

/-- Accept an entry that was read with its tag; it is read again later where its reduce list waits for a repair (R200). -/
def acceptEntry (s : State) (q : Nat) (p : Pending) (v : Nat) : State :=
  let e : Entry := ⟨p.seq, p.ordinal, 0, (List.range 16).map (fun i => BitVec.ofNat 64 (bitsAt v (64 * i) 64)), [], 0, 0, 0, [], [], false, false⟩
  let (l, s1) := readItems s e
  if l.held then s1
  else settleAll (onQueue s1 q (fun x => { x with
    accepted := if x.kept.contains p.seq then x.accepted else passKept x.entries x.entries.length ((p.seq + 1) % 2 ^ 32)
    pending := x.pending.drop 1
    entries := x.entries ++ [{ e with reduce := l.items, bad := l.bad, unread := l.unread }] }))

/-- Read the first pending entry of a queue: accepted on its tag; otherwise read again later, up to 64 reads, or, in a second
reading of the slot, once only (R263, R266). -/
def readEntry (s : State) (q : Nat) (p : Pending) : State :=
  let r := queueRecord s q
  match readRecord s (r.ring + 128 * (p.seq % r.size)) 128 with
  | (.ok v, s1) =>
    if bitsAt v 0 16 = expectedTag r p.seq then acceptEntry s1 q p v else mismatch s1
  | (.fault c, s1) => mismatch (raise s1 c 0)
  | (.wait, s1) => s1
where
  mismatch (t : State) : State :=
    if p.second then faultQueue t q 0x040D0A08 p.seq
    else if 64 ≤ p.reads + 1 then faultQueue t q 0x040D0A01 p.seq
    else onQueue t q (fun x => { x with pending := { p with reads := p.reads + 1 } :: x.pending.drop 1 })

/-- ENTRY_READ: the queue handler reads the next pending entry (R263). The spec does not say what becomes of an entry whose
sequence number an earlier entry, still running when its queue was enabled again, holds: it waits for that one (DESIGN CHOICE,
assumption 71). -/
def execEntryRead (queue : Nat) (s : State) : Host.Outcome State Fault Refusal :=
  match (queueOf s queue).pending with
  | p :: _ => if p.reads ≠ 0 ∨ (p.second = false ∧ (queueOf s queue).kept.contains p.seq = true) then .next s else done s (readEntry s queue p)
  | [] => .next s

/-- ENTRY_REREAD: the next read after a mismatch (R263). -/
def execEntryReread (queue : Nat) (s : State) : Host.Outcome State Fault Refusal :=
  match (queueOf s queue).pending with
  | p :: _ =>
    if p.reads = 0 then .next s
    else done s (readEntry (s.onFront (fun f => { f with rereads := tabCount f.rereads queue 1 })) queue p)
  | [] => .next s

/-! ## Queue control (R261) -/

/-- Enable a queue, or the code of refusal. Entries dispatched, or given outcome 2, before the queue was disabled are still to be
completed and their records to be written. -/
def enableQueue (s : State) (q : Nat) : Except Code State :=
  let r := queueRecord s q
  if (queueOf s q).state ≠ 0 then .error 0x01100A06
  else if r.zero then .error 0x01100A04
  else .ok (onQueue s q (fun x =>
    ⟨1, 0, r.startSeq, r.startSeq, r.startSeq, r.startSeq, 0, [], x.entries, x.entries.map (fun e => e.seq)⟩))

/-- Disable a queue: accepted entries not dispatched are not run, pending ones are dropped. -/
def disableQueue (s : State) (q : Nat) : State :=
  let s1 := onQueue s q (fun x => { x with
    state := 0
    pending := []
    entries := x.entries.map (fun e => if e.status = 0 then { e with status := 2, outcome := 2 } else e) })
  settleAll (releaseLate s1 q)

/-! ## Dispatch (R265) -/

/-- A dependency of an entry is complete. -/
def dependencyMet (s : State) (q seq : Nat) : Bool :=
  let x := queueOf s q
  match x.entries.find? (fun e => e.seq == seq) with
  | some e => decide (e.status = 2)
  | none => decide (2 ^ 31 ≤ seqDistance seq x.released)

/-- An accepted entry may be dispatched: its step is current, and goes on while the module runs or holds (Table 11.9), its fence
and dependencies are met. -/
def dispatchable (s : State) (q : Nat) (e : Entry) : Bool :=
  decide (e.status = 0 ∧ e.step = currentStep s ∧ s.resil.state ≤ 1) && !huskStopped s &&
    (!bitAt e.nat 26 || (queueOf s q).entries.all (fun f => decide (f.status = 2) || decide (seqDistance e.seq f.seq = 0 ∨ 2 ^ 31 ≤ seqDistance e.seq f.seq))) &&
    (!bitAt e.nat 70 || dependencyMet s (e.field 64 6) (e.field 96 32)) &&
    (!bitAt e.nat 134 || dependencyMet s (e.field 128 6) (e.field 160 32))

/-- An entry faults at its dispatch: completed with outcome 1 without running, a local fault of the step (R266). -/
def faultEntry (s : State) (q : Nat) (e : Entry) (code : Code) : State := settleFault (endEntry (recordFault s code q) q e 1 code)

/-- Hand a tile program to its tiles (R84). -/
def dispatchTiles (s : State) (q : Nat) (e : Entry) (v : Nat) : State :=
  let first := e.field 320 9
  let tiles := (List.range (e.field 329 9)).map (first + ·)
  let p : Program := ⟨q, e.seq, e.step, bitsAt v 0 48, (List.range 12).map (fun i => BitVec.ofNat 64 (bitsAt v (64 + 64 * i) 64))⟩
  tiles.foldl (fun t n => onTile t n (fun x => { x with waiting := x.waiting ++ [p] }))
    (onEntry s q e.seq (fun e => { e with status := 1, tilesLeft := tiles }))

/-- Free-standing collectives of a communication group issued in a step: the next ordinal (R237). -/
def nextCollId (s : State) (comm : Nat) : Nat :=
  (s.fabric.colls.filter (fun c => decide (c.key.comm = comm ∧ c.key.group = noGroup ∧ c.step = currentStep s) && c.entry.isSome)).length

/-- DISPATCH: an entry whose step, fence and dependencies allow goes to its tiles, its Cracker channel or the fabric (R265). -/
def execDispatch (queue seq : Nat) (s : State) : Host.Outcome State Fault Refusal :=
  match entryAt s queue seq with
  | none => .next s
  | some e =>
    if dispatchable s queue e = false then .next s
    else
      match e.kind with
      | 1 =>
        match readRecord s (e.field 256 48) 128 with
        | (.wait, s1) => done s s1
        | (.fault c, s1) => done s (faultEntry s1 queue e c)
        | (.ok v, s1) =>
          if bitsAt v 48 16 ≠ 0 ∨ bitsAt v 832 192 ≠ 0 ∨ bitsAt v 0 48 % 64 ≠ 0 then done s (faultEntry s1 queue e 0x040D0A04)
          else done s (dispatchTiles s1 queue e v)
      | 2 =>
        let s1 := onEntry s queue seq (fun e => { e with status := 1 })
        done s (onChannel s1 (e.field 304 4) (fun c => { c with cmds := c.cmds ++ [⟨e.field 256 48, queue, seq, e.step⟩] }))
      | 3 =>
        match readRecord s (e.field 256 48) 64 with
        | (.wait, s1) => done s s1
        | (.fault c, s1) => done s (faultEntry s1 queue e c)
        | (.ok v, s1) =>
          let c := collCmdOf v
          match collFault s1 c noGroup with
          | some code => done s (faultEntry s1 queue e code)
          | none =>
            let k : CollKey := ⟨c.comm, noGroup, nextCollId s1 c.comm⟩
            let s2 := openColl (onEntry s1 queue seq (fun e => { e with status := 1 })) k c (some (queue, seq))
            done s (sendReady s2 k (currentStep s2) none)
      | _ => .next s

/-- NOP_ENTRY: a NOP entry completes on dispatch (R265). -/
def execNopEntry (queue seq : Nat) (s : State) : Host.Outcome State Fault Refusal :=
  match entryAt s queue seq with
  | none => .next s
  | some e => if e.kind = 6 ∧ dispatchable s queue e then done s (settleFault (endEntry s queue e 0 0)) else .next s

/-- Write a pattern to `n` lines from an address up, through their home slices (R207). -/
def fillLines : Nat → State → Nat → Word64 → State
  | 0, s, _, _ => s
  | n + 1, s, a, d =>
    let s1 := (List.range 8).foldl (fun t i => writeWhole t (a / 8 + i) d false) (accessSlices s .hazel a 64 true)
    fillLines n s1 (a + 64) d

/-- A fill record breaks Table 8.6. -/
def fillMalformed (v : Nat) : Bool :=
  decide (bitsAt v 48 16 ≠ 0 ∨ bitsAt v 112 16 ≠ 0 ∨ bitsAt v 192 64 ≠ 0 ∨ bitsAt v 0 48 % 64 ≠ 0 ∨ bitsAt v 64 48 % 64 ≠ 0 ∨ bitsAt v 64 48 = 0)
    || !inHbmOrPinned (bitsAt v 0 48) (bitsAt v 64 48)

/-- FILL_COMMAND: a fill entry writes its pattern (R207). -/
def execFillCommand (queue seq : Nat) (s : State) : Host.Outcome State Fault Refusal :=
  match entryAt s queue seq with
  | none => .next s
  | some e =>
    if e.kind ≠ 4 ∨ dispatchable s queue e = false then .next s
    else
      match readRecord s (e.field 256 48) 32 with
      | (.wait, s1) => done s s1
      | (.fault c, s1) => done s (faultEntry s1 queue e c)
      | (.ok v, s1) =>
        if fillMalformed v then done s (faultEntry s1 queue e 0x020D0803)
        else
          match accessDetail s1 .hazel true (bitsAt v 0 48) (bitsAt v 64 48) with
          | some d => done s (faultEntry s1 queue e (codeOf 2 0x0D d))
          | none =>
            let s2 := onEntry s1 queue seq (fun e => { e with status := 1 })
            done s (fillLines (bitsAt v 64 48 / 64) s2 (bitsAt v 0 48) (BitVec.ofNat 64 (bitsAt v 128 64)))

/-- What a dispatched entry waits for has ended (Table 10.9). -/
def entryEnded (s : State) (q : Nat) (e : Entry) : Bool :=
  match e.kind with
  | 1 => decide (e.tilesLeft = [])
  | 2 => s.cracker.channels.all (fun c => c.2.cmds.all (fun x => !decide (x.queue = q ∧ x.seq = e.seq)))
  | 3 => s.fabric.colls.all (fun c => !decide (c.entry = some (q, e.seq)) || c.done)
  | 5 => s.front.exports.all (fun x => !decide (x.entry = some (q, e.seq)))
  | _ => true

/-- Hazel releases the tiles of a trapped program to idle (R142). -/
def releaseTrapped (s : State) (e : Entry) : State :=
  e.trapped.foldl (fun t n => onTile t n (fun x => if x.state = 3 then { x with state := 0 } else x)) s

/-- ENTRY_COMPLETE: a dispatched entry completes; its groups become final and their collectives start, except the carrier's
(R123). -/
def execEntryComplete (queue seq : Nat) (s : State) : Host.Outcome State Fault Refusal :=
  match entryAt s queue seq with
  | none => .next s
  | some e =>
    if e.status ≠ 1 ∨ entryEnded s queue e = false then .next s
    else if (commandsReady s e.reduce).1 = false then done s (commandsReady s e.reduce).2
    else
      let s1 := releaseTrapped s e
      let s2 := settleFault (endEntry s1 queue e (if e.code = 0 then 0 else 1) e.code)
      done s (releaseLate s2 queue)

/-! ## Traps (R115, R142) -/

/-- TRAP: every issued descriptor has ended; the record is written, tile_state is 3, and the queue handler is told, which makes it
a local fault of the step (R115, R142). -/
def execTrap (tile : Nat) (s : State) : Host.Outcome State Fault Refusal :=
  let t := tileOf s tile
  match t.trap with
  | none => .next s
  | some i =>
    if t.issued ≠ [] then .next s
    else
      let s1 := onTile s tile (fun t => { t with
        state := 3
        record := some (i, (t.program.map (fun p => p.step)).getD (currentStep s))
        trap := none
        program := none
        loops := [] })
      let s2 := match t.program with
        | some p => onEntry s1 p.queue p.seq (fun e =>
            let first := e.trapped.all (fun n => decide (tile < n))
            { e with
              trapped := setAddSorted e.trapped tile
              tilesLeft := setRemove e.tilesLeft tile
              code := if first then i.code else e.code })
        | none => s1
      done s (localFault s2 i.code tile)

/-! ## Completion of collectives (R242) -/

/-- Elements that a collective writes on this member; an EXCHANGE has no count of its own. -/
def neededElems (s : State) (c : Coll) : Nat :=
  let (g, own) := collGroup s c.key
  let hs := heneloSlots g
  match c.kind with
  | 2 =>
    match hs.findIdx? (fun x => x == own) with
    | some i => chunkStart c.count hs.length (i + 1) - chunkStart c.count hs.length i
    | none => 0
  | 4 => g.members.length * c.count
  | 6 => 0
  | _ => c.count

/-- The rows of a slot that an EXCHANGE of a step brings to this member have all arrived. How many they are the sender alone
knows: a free value (assumption 68). -/
def rowsArrived (s : State) (k : CollKey) (bn step slot : Nat) (deferred : Bool) : Bool :=
  let rowLen := (groupNow s k.group).rowLen
  decide (Config.exchangeRows k.group step slot deferred * rowLen ≤
    tabGet 0 (bindingOf s bn).inboundFrom (2 * slot + natOfBool deferred))

/-- Every other member whose contribution an EXCHANGE takes has sent its rows, deferred ones as well (R188, R242). -/
def exchangeArrived (s : State) (c : Coll) : Bool :=
  let (g, own) := collGroup s c.key
  match bindingOfGroup s c.key.group with
  | none => true
  | some bn => (List.range g.members.length).all (fun slot => decide (slot = own) ||
      ((!contributes c slot || rowsArrived s c.key bn c.step slot false) &&
        (!c.deferredIn.contains slot || rowsArrived s c.key bn c.step slot true)))

/-- Every packet of the collective that this member sent has been acknowledged: READY, GO, DATA and INBOUND. -/
def allAcked (s : State) (c : Coll) : Bool :=
  let mine := fun (p : Packet) => decide (p.comm = c.key.comm ∧ p.group = c.key.group ∧ p.collId = c.key.collId ∧ p.step = c.step ∧
    (p.ptype = 1 ∨ p.ptype = 2 ∨ p.ptype = 3 ∨ p.ptype = 7))
  s.fabric.tx.all (fun x => x.unacked.all (fun p => !mine p)) && s.fabric.toSend.all (fun p => !mine p)

/-- A collective is complete on this member, but for the carrier's RESULT. -/
def collFinished (s : State) (c : Coll) : Bool :=
  c.readySent && c.ran && decide (c.decisions ≠ [] ∧ c.holdData = [] ∧ neededElems s c ≤ c.received) &&
    (decide (c.kind ≠ 6) || exchangeArrived s c) && allAcked s c

/-- COLLECTIVE_COMPLETE: a collective completes on this member and signals (R242). -/
def execCollectiveComplete (k : CollKey) (s : State) : Host.Outcome State Fault Refusal :=
  let c := collAt s k (openStep s k)
  let carrier := decide (k.group ≠ noGroup ∧ carrierNow s = some k.group)
  if c.done ∨ collFinished s c = false ∨ (carrier = true ∧ s.train.reducedSummary = none) then .next s
  else
    let s1 := setColl s { c with done := true }
    let s2 := if k.group = noGroup then s1
      else if k.group < 4096 then saveResult (onWork s1 k.group (fun w => { w with reduced := true })) k.group
      else match bindingOfGroup s1 k.group with
        | some b => onBinding s1 b (fun w => { w with exchanged := true })
        | none => s1
    done s (signalCounter s2 c.signal)

end Sys2Proof.Machine
end

