-- ==== Sys2Proof/Machine/Cracker.lean ====
section
/-! DEFINITION. The Cracker (chapter 7): commands and halts, the tracker, sparse gradients, exchange and merge, the feed of the sweep,
and the serving of tables to peers. -/

namespace Sys2Proof.Machine

open Sys2Proof

/-! ## Regions and commands (Tables 7.2 and 7.3) -/

/-- A table region record. -/
structure TableRegion where
  base : Nat
  rowBytes : Nat
  rows : Nat
  valid : Bool
  writable : Bool
  served : Bool
  bound : Bool
  binding : Nat
  comm : Nat
  shards : Nat
  shard : Nat
  deriving DecidableEq, Repr

/-- The region that 32 bytes hold. -/
def tableRegionOf (v : Nat) : TableRegion :=
  ⟨bitsAt v 0 48, bitsAt v 64 14, bitsAt v 96 32, bitAt v 128, bitAt v 129, bitAt v 130, bitAt v 131, bitsAt v 132 5, bitsAt v 144 8,
    bitsAt v 152 8, bitsAt v 160 8⟩

/-- Table region `r` in force. -/
def tableRegion (s : State) (r : Nat) : TableRegion := tableRegionOf (cfgElem s 0x380101 r)

/-- A global row lies in this module's shard; without shards every row does. -/
def ownsRow (r : TableRegion) (row : Nat) : Bool := decide (r.shards ≤ 1) || decide (row % r.shards = r.shard)

/-- The local row of a global row (R176). -/
def localRow (r : TableRegion) (row : Nat) : Nat := if r.shards ≤ 1 then row else row / r.shards

/-- A Cracker command (Table 7.2). -/
structure CrackerCommand where
  kind : Nat
  wide : Bool
  signal : Option (Nat × Nat)
  signalTile : Nat
  region : Nat
  microbatch : Nat
  reserved : Bool
  index : Nat
  count : Nat
  ahead : Nat
  data : Nat
  stride : Int
  deriving DecidableEq, Repr

/-- The command that 64 bytes hold. -/
def crackerCommand (v : Nat) : CrackerCommand where
  kind := bitsAt v 0 8
  wide := bitAt v 8
  signal := if bitAt v 9 then some (bitsAt v 14 10, bitsAt v 10 4) else none
  signalTile := bitsAt v 14 10
  region := bitsAt v 24 6
  microbatch := bitsAt v 30 12
  reserved := decide (bitsAt v 42 22 ≠ 0 ∨ bitsAt v 112 16 ≠ 0 ∨ bitsAt v 176 16 ≠ 0 ∨ bitsAt v 240 16 ≠ 0 ∨ bitsAt v 288 224 ≠ 0 ∨
    (bitsAt v 0 8 ≠ 3 ∧ bitsAt v 30 12 ≠ 0))
  index := bitsAt v 64 48
  count := bitsAt v 128 32
  ahead := bitsAt v 160 16
  data := bitsAt v 192 48
  stride := signed 32 (bitsAt v 256 32)

/-- Bytes of an entry of a command's index array. -/
def CrackerCommand.entryBytes (c : CrackerCommand) : Nat := if c.kind = 4 ∨ c.wide then 8 else 4

/-- The near address of occurrence `i`; one below 0 is beyond the 48-bit space as one above it is (R26). -/
def CrackerCommand.near (c : CrackerCommand) (i : Nat) : Nat :=
  if c.kind = 4 then c.data + 32 * i else (((c.data : Int) + c.stride * (i : Int)) % 2 ^ 64).toNat

/-- The faults of a command that do not depend on its indices (Table 7.10), in the table's order. -/
def commandFault (s : State) (c : CrackerCommand) : Option Code :=
  let r := tableRegion s c.region
  if c.kind = 0 ∨ 4 < c.kind then some 0x04090701
  else if c.reserved then some 0x04090702
  else if c.count = 0 ∨ c.index % c.entryBytes ≠ 0 ∨ logicalTiles s ≤ c.signalTile then some 0x04090703
  else if c.kind ≠ 4 ∧ (r.valid = false ∨ (c.kind = 2 ∧ (r.writable = false ∨ r.shards ≠ 1)) ∨ (c.kind = 3 ∧ r.bound = false)) then
    some 0x04090705
  else none

/-! ## Halts and completion (R174, R180) -/

/-- A near row that a channel may write becomes undefined (R180); what it may not write it leaves alone (R26). -/
def forgetRow (s : State) (c a len : Nat) : State :=
  if accessDetail s (.cracker c) true a len = none then { s with mem := forget s.mem a (a + len) } else s

/-- A channel halts: its commands are discarded, the remote rows that it awaits are undefined, their entries fault, and the fault
is a local one of the step. -/
def haltChannel (s : State) (c : Nat) (code : Code) : State :=
  let cmds := (channelOf s c).cmds
  let s0 := (channelOf s c).remote.foldl (fun t x => x.rows.foldl (fun t y => forgetRow t c y.1 x.rowBytes) t) s
  let s1 := onChannel s0 c (fun x => { x with
    halt := if x.halt = 0 then code else x.halt
    cmds := []
    batches := []
    remote := []
    ran := false
    signal := none })
  let s2 := cmds.foldl (fun t x => onEntry t x.queue x.seq (fun e => if e.code = 0 then { e with code := code } else e)) s1
  localFault s2 code c

/-- The head command of a channel has ended: every request is back and every remote row delivered; it signals and the next
follows. -/
def finishCommand (s : State) (c : Nat) : State :=
  let x := channelOf s c
  if x.ran ∧ x.batches = [] ∧ x.inflight = [] ∧ x.remote = [] then
    signalCounter (onChannel s c (fun x => { x with cmds := x.cmds.drop 1, ran := false, signal := none })) x.signal
  else s

/-! ## Sectors, windows and batches (R181, R182) -/

/-- Indices of one sort window. -/
def windowSize : Nat := 65536

/-- The page key of a sector: its bank and row, in the order of R181. -/
def pageKey (s : State) (sector : Nat) : Nat := bankKey s (32 * sector) * 32768 + rowNumber s (32 * sector)

/-- The window of a batch. -/
def batchWindow (b : Nat × List Nat) : Nat := b.1 / 2 ^ 41

/-- A batch writes its sectors. -/
def sectorsWritten (b : Nat × List Nat) : Bool := bitAt b.1 40

/-- Page batches of a window, ascending, from its requests; and how many requests share another's entry. -/
def windowBatches (s : State) (window : Nat) (write : Bool) (requests : List Nat) : List (Nat × List Nat) × Nat :=
  let distinct := requests.foldl setAdd []
  let table := distinct.foldl (fun (t : Tab (List Nat)) x =>
    let k := pageKey s x
    tabInsert t k (((tabFind t k).getD []) ++ [x])) []
  (table.map (fun e => (window * 2 ^ 41 + natOfBool write * 2 ^ 40 + e.1, e.2)), requests.length - distinct.length)

/-- The batches of a command whose occurrence `i` asks for the sectors that entry `i` of a list holds. -/
def commandBatches (s : State) (write : Bool) (l : List (List Nat)) : List (Nat × List Nat) × Nat :=
  (List.range ((l.length + windowSize - 1) / windowSize)).foldl (fun a w =>
    let (b, n) := windowBatches s w write (((l.drop (w * windowSize)).take windowSize).flatten)
    (a.1 ++ b, a.2 + n)) ([], 0)

/-- Requests of a channel of Hazel's, 12 to 15, wait for the tracker as one more window (R172, R183). -/
def hazelRequests (s : State) (c : Nat) (write : Bool) (sectors : List Nat) : State :=
  onChannel s c (fun x =>
    let window := match x.batches.getLast? with
      | some b => batchWindow b + 1
      | none => 0
    { x with batches := x.batches ++ (windowBatches s window write sectors).1 })

/-- A run-ahead sector is asked of its home slice where it lies in the HBM range, and dropped where it is in no valid region
(R184). -/
def aheadSector (c : Nat) (s : State) (sector : Nat) : State := runAheadFill s (.cracker c) (sector / 2) (sectorMask sector)

/-- The entries within the run-ahead of a command's last demand point: all those after the first, up to `ahead` beyond it (R184). -/
def aheadOf (cmd : CrackerCommand) (demand : Nat) (idx : List Nat) : List Nat :=
  if cmd.ahead = 0 then [] else (idx.take (demand + 1 + cmd.ahead)).drop 1

/-- The run-ahead of a command through a region: the sectors of the rows it names that are held here (R184). -/
def rowsAhead (c : Nat) (cmd : CrackerCommand) (r : TableRegion) (idx : List Nat) (s : State) : State :=
  let bad := fun i => decide (i ≠ 256 ^ cmd.entryBytes - 1) && ownsRow r i && decide (r.rows ≤ localRow r i)
  let demand := (idx.findIdx? bad).getD idx.length
  ((aheadOf cmd demand idx).filter (fun i => ownsRow r i && decide (localRow r i < r.rows))).foldl (fun t i =>
    (sectorsOf (r.base + r.rowBytes * localRow r i) r.rowBytes).foldl (aheadSector c) t) s

/-- The head command has done its reads and writes: its requests wait for the tracker. -/
def commandRan (s : State) (c : Nat) (cmd : CrackerCommand) (requests : List (List Nat)) (remote : List RemoteRows) : State :=
  let (batches, shared) := commandBatches s (decide (cmd.kind = 2 ∨ cmd.kind = 3)) requests
  let s1 := onChannel s c (fun x => { x with ran := true, signal := cmd.signal, batches := batches, remote := remote })
  finishCommand (s1.onCracker (fun k => { k with shared := k.shared + shared })) c

/-! ## Running a command -/

/-- A read of a channel: the bytes, and its sectors' home slices (R173). -/
def readSectors (c a len : Nat) (s : State) : Got Bytes × State :=
  Got.andThen (readFor (.cracker c) 9 a len s) (fun b t => (.ok b, accessSectors t c a len false))

/-- The near rows of a GATHER or a FLAT_GATHER that have not been delivered become undefined (R180). -/
def forgetNear (c : Nat) (cmd : CrackerCommand) (s : State) : State :=
  let len := if cmd.kind = 1 then (tableRegion s cmd.region).rowBytes else 32
  if cmd.kind = 1 ∨ cmd.kind = 4 then (List.range cmd.count).foldl (fun t i => forgetRow t c (cmd.near i) len) s else s

/-- Run the head command of a channel if it is of a row's kind (R174). A reserved kind and a command that cannot be read halt the
channel whatever the row; a command handed to a halted channel is discarded. -/
def runCommand (c kind : Nat) (f : CrackerCommand → State → Got State × State) (s : State) : State :=
  let x := channelOf s c
  match x.cmds with
  | [] => s
  | h :: _ =>
    if x.ran ∨ 12 ≤ c ∨ h.step ≠ currentStep s ∨ huskStopped s then s
    else if x.halt ≠ 0 then haltChannel s c x.halt
    else
      match readSectors c h.addr 64 s with
      | (.wait, s1) => s1
      | (.fault code, s1) => haltChannel s1 c code
      | (.ok b, s1) =>
        if b.poisoned then haltChannel s1 c 0x02090802
        else
          let cmd := crackerCommand b.nat
          if cmd.kind ≠ kind ∧ 1 ≤ cmd.kind ∧ cmd.kind ≤ 4 then s
          else
            match commandFault s1 cmd with
            | some code => haltChannel s1 c code
            | none =>
              match f cmd s1 with
              | (.wait, s2) => s2
              | (.fault code, s2) => haltChannel (forgetNear c cmd s2) c code
              | (.ok t, _) => t

/-- The entries of a command's index array in order. -/
def readIndices (c : Nat) (cmd : CrackerCommand) (s : State) : Got (List Nat) × State :=
  Got.each (fun i t =>
    Got.andThen (readSectors c (cmd.index + cmd.entryBytes * i) cmd.entryBytes t) (fun b u =>
      if b.poisoned then (.fault 0x02090802, u) else (.ok b.nat, u))) (List.range cmd.count) s

/-- An index is a pad: every bit set (R177). -/
def isPad (cmd : CrackerCommand) (i : Nat) : Bool := decide (i = 256 ^ cmd.entryBytes - 1)

/-- Write a near row that the Cracker delivers. -/
def writeNear (c : Nat) (a : Nat) (l : List (Byte × Bool)) (s : State) : Got Unit × State :=
  match accessDetail s (.cracker c) true a l.length with
  | some d => (.fault (codeOf 2 9 d), s)
  | none =>
    match writeMarked (lookupTags s a l.length) a l with
    | (s1, e, h) =>
      if h then (.wait, s1) else if e then (.fault 0x02090801, s1)
      else (.ok (), accessSectors (disturb s1 [⟨a, l.length⟩]) c a l.length true)

/-- Deliver near rows in order. -/
def deliverRows (c : Nat) (cmd : CrackerCommand) (rows : List (Nat × List (Byte × Bool))) (s : State) : Got Unit × State :=
  Got.andThen (Got.each (fun (r : Nat × List (Byte × Bool)) t => writeNear c (cmd.near r.1) r.2 t) rows s) (fun _ t => (.ok (), t))

/-- Write a table row or a partial row; its sectors are those of the command's batches. -/
def writeRow (c : Nat) (a : Nat) (l : List (Byte × Bool)) (s : State) : Got Unit × State :=
  match accessDetail s (.cracker c) true a l.length with
  | some d => (.fault (codeOf 2 9 d), s)
  | none =>
    match writeMarked (lookupTags s a l.length) a l with
    | (s1, e, h) => if h then (.wait, s1) else if e then (.fault 0x02090801, s1) else (.ok (), disturb s1 [⟨a, l.length⟩])

/-- A table row of a region read for a channel; its sectors are those of the command's batches. -/
def readRow (c : Nat) (r : TableRegion) (row : Nat) (s : State) : Got Bytes × State :=
  readFor (.cracker c) 9 (r.base + r.rowBytes * row) r.rowBytes s

/-- Zero bytes without poison. -/
def zeroMarked (n : Nat) : List (Byte × Bool) := List.replicate n (0, false)

/-- The node that holds a shard of a region: the member at its position of the membership table (R176). -/
def shardSlot (s : State) (r : TableRegion) (k : Nat) : Option Member :=
  match commGroup s r.comm with
  | some g => memberAt g k
  | none => none

/-- Runs of at most `n` elements of a list. -/
def listRuns {α : Type} (n : Nat) (l : List α) : List (List α) :=
  (packetRuns n 0 l.length).map (fun r => (l.drop r.1).take r.2)

/-- Most rows in one of this module's table requests: those that fit a packet with the header. -/
def requestRows : Nat := 504

/-- The payload of a table request (Table 7.7). -/
def requestBytes (step slot region seq : Nat) (rows : List Nat) : List Byte :=
  bytesOfNat 64 (step + slot * 2 ^ 64 + region * 2 ^ 80 + seq * 2 ^ 96 + rows.length * 2 ^ 128) ++ rows.flatMap (bytesOfNat 8)

/-- Ask the owner of a shard for rows, given by near address and row (R177). A shard whose owner the membership in force does not
name has none to ask: `gatherBody` halts on it. -/
def askOwner (s : State) (c regionNo : Nat) (r : TableRegion) (shard : Nat) (rows : List (Nat × Nat)) : List RemoteRows × State :=
  match shardSlot s r shard, commGroup s r.comm with
  | some m, some g =>
    (listRuns requestRows rows).foldl (fun x part =>
      let t := x.2
      let seq := t.cracker.nextSeq
      let own := (ownSlot t g).getD 0
      let p := { blankPacket 8 m.node with
        comm := r.comm
        step := currentStep t
        srcSlot := own
        dstSlot := shard
        payload := requestBytes (currentStep t) own regionNo seq (part.map (fun y => y.2)) }
      let t1 := t.onCracker (fun k => { k with nextSeq := (k.nextSeq + 1) % 2 ^ 32 })
      (x.1 ++ [⟨seq, c, shard, part, r.rowBytes⟩], sendPacket t1 p)) ([], s)
  | _, _ => ([], s)

/-- A global row of a region whose owner no member in force is. -/
def ownerless (s : State) (r : TableRegion) (row : Nat) : Bool := !ownsRow r row && (shardSlot s r (row % r.shards)).isNone

/-- The body of GATHER (R177). A remote row that no member owns is one that its server refuses (DESIGN CHOICE, assumption 66). -/
def gatherBody (c : Nat) (cmd : CrackerCommand) (s : State) : Got State × State :=
  let r := tableRegion s cmd.region
  Got.andThen (readIndices c cmd s) (fun idx s0 =>
    let known := idx.filter (fun i => !isPad cmd i && ownsRow r i)
    let s1 := rowsAhead c cmd r idx s0
    if known.any (fun i => decide (r.rows ≤ localRow r i)) then (.fault 0x04090704, s1)
    else if idx.any (fun i => !isPad cmd i && ownerless s1 r i) then (.fault 0x04090708, s1)
    else
      let items := idx.zipIdx
      let here := items.filter (fun x => isPad cmd x.1 || ownsRow r x.1)
      Got.andThen (Got.each (fun (x : Nat × Nat) t =>
          if isPad cmd x.1 then (.ok (x.2, zeroMarked r.rowBytes), t)
          else Got.andThen (readRow c r (localRow r x.1) t) (fun b u => (.ok (x.2, b.data), u))) here s1) (fun rows s2 =>
        Got.andThen (deliverRows c cmd rows s2) (fun _ s3 =>
          let shards := (List.range r.shards).filter (fun k => decide (k ≠ r.shard) && decide (1 < r.shards))
          let (remote, s4) := shards.foldl (fun (x : List RemoteRows × State) k =>
            let rows := (items.filter (fun y => !isPad cmd y.1 && decide (y.1 % r.shards = k))).map (fun y => (cmd.near y.2, y.1))
            let (l, t) := if rows = [] then ([], x.2) else askOwner x.2 c cmd.region r k rows
            (x.1 ++ l, t)) ([], s3)
          let requests := idx.map (fun i =>
            if isPad cmd i || !ownsRow r i then [] else sectorsOf (r.base + r.rowBytes * localRow r i) r.rowBytes)
          (.ok (commandRan s4 c cmd requests remote), s4))))

/-- GATHER: table rows to near rows (R177). -/
def execCrackerGather (channel : Nat) (s : State) : Host.Outcome State Fault Refusal :=
  done s (runCommand channel 1 (gatherBody channel) s)

/-- The occurrences taken in before the first index that is out of range. -/
def beforeFault (r : TableRegion) (cmd : CrackerCommand) (idx : List Nat) : List Nat :=
  idx.takeWhile (fun i => isPad cmd i || decide (i < r.rows))

/-- The body of SCATTER: rows in index order, so the last occurrence of a row survives (R178). -/
def scatterBody (c : Nat) (cmd : CrackerCommand) (s : State) : Got State × State :=
  let r := tableRegion s cmd.region
  Got.andThen (readIndices c cmd s) (fun idx s0 =>
    let s1 := rowsAhead c cmd r idx s0
    let good := beforeFault r cmd idx
    Got.andThen (Got.each (fun (x : Nat × Nat) t =>
        if isPad cmd x.1 then (.ok (x.1, []), t)
        else Got.andThen (readSectors c (cmd.near x.2) r.rowBytes t) (fun b u => (.ok (x.1, b.data), u))) good.zipIdx s1) (fun rows s2 =>
      Got.andThen (Got.each (fun (x : Nat × List (Byte × Bool)) t =>
          if x.2 = [] then (.ok (), t) else writeRow c (r.base + r.rowBytes * x.1) x.2 t) rows s2) (fun _ s3 =>
        if good.length < idx.length then (.fault 0x04090704, s3)
        else
          let requests := idx.map (fun i => if isPad cmd i then [] else sectorsOf (r.base + r.rowBytes * i) r.rowBytes)
          (.ok (commandRan s3 c cmd requests []), s3))))

/-- SCATTER: near rows to table rows (R178). -/
def execCrackerScatter (channel : Nat) (s : State) : Host.Outcome State Fault Refusal :=
  done s (runCommand channel 2 (scatterBody channel) s)

/-- The valid regions in force. -/
def validRegions (s : State) : List TableRegion :=
  ((listedElems s.dict.values 0x380101).map (tableRegion s)).filter (fun r => r.valid)

/-- A 32 B sector lies in a valid region. -/
def sectorInRegion (s : State) (a : Nat) : Bool :=
  (validRegions s).any (fun r => decide (r.base ≤ a ∧ a + 32 ≤ r.base + r.rowBytes * r.rows))

/-- An entry of a FLAT_GATHER list is one that may be served (R179). -/
def flatOk (s : State) (e : Nat) : Bool := bitAt e 63 || (decide (bitsAt e 0 48 % 32 = 0) && sectorInRegion s (bitsAt e 0 48))

/-- The run-ahead of a FLAT_GATHER: sectors of a valid region are filled, the others dropped and counted (R184). -/
def flatAhead (c : Nat) (cmd : CrackerCommand) (idx : List Nat) (s : State) : State :=
  let demand := (idx.findIdx? (fun e => !flatOk s e)).getD idx.length
  ((aheadOf cmd demand idx).filter (fun e => !bitAt e 63)).foldl (fun t e =>
    if sectorInRegion s (bitsAt e 0 48) then (sectorsOf (bitsAt e 0 48) 32).foldl (aheadSector c) t
    else t.onCracker (fun k => { k with runaheadDropped := k.runaheadDropped + 1 })) s

/-- The body of FLAT_GATHER (R179). -/
def flatBody (c : Nat) (cmd : CrackerCommand) (s : State) : Got State × State :=
  Got.andThen (readIndices c cmd s) (fun idx s0 =>
    let s1 := flatAhead c cmd idx s0
    if idx.any (fun e => !flatOk s1 e) then (.fault 0x04090707, s1)
    else if idx.any (fun e => decide (bitsAt e 48 15 ≠ 0)) then (.fault 0x04090702, s1)
    else
      Got.andThen (Got.each (fun (x : Nat × Nat) t =>
          if bitAt x.1 63 then (.ok (x.2, zeroMarked 32), t)
          else Got.andThen (readFor (.cracker c) 9 (bitsAt x.1 0 48) 32 t) (fun b u => (.ok (x.2, b.data), u))) idx.zipIdx s1) (fun rows s2 =>
        Got.andThen (deliverRows c cmd rows s2) (fun _ s3 =>
          let requests := idx.map (fun e => if bitAt e 63 then [] else sectorsOf (bitsAt e 0 48) 32)
          (.ok (commandRan s3 c cmd requests []), s3))))

/-- FLAT_GATHER: the sectors of a Speli entry list (R179). -/
def execFlatGather (channel : Nat) (s : State) : Host.Outcome State Fault Refusal :=
  done s (runCommand channel 4 (flatBody channel) s)

/-! ## Sparse gradients (R186, R187) -/

/-- The gradient rows of a GRAD: global row, values, poison. -/
def gradRows (c : Nat) (cmd : CrackerCommand) (rowLen : Nat) (idx : List Nat) (s : State) : Got (List (Nat × List Nat × Bool)) × State :=
  Got.each (fun (x : Nat × Nat) t =>
    Got.andThen (readSectors c (cmd.near x.2) (4 * rowLen) t) (fun b u =>
      (.ok (x.1, elemsOfBytes 4 rowLen b.bytes, b.poisoned), u))) (idx.zipIdx.filter (fun x => !isPad cmd x.1)) s

/-- The exact sum, rounded once, of a row's occurrences (R186), and whether one was poisoned. -/
def mergedRow (rowLen row : Nat) (l : List (Nat × List Nat × Bool)) : List Nat × Bool :=
  let mine := l.filter (fun x => decide (x.1 = row))
  ((List.range rowLen).map (fun j => encodeNum 7 (exactSum (mine.map (fun x => decodeNum 7 (x.2.1.getD j 0))))), mine.any (fun x => x.2.2))

/-- The rounding of a microbatch's sum into a partial row: site 0x1, ordinal m (R186). -/
def partialRounding (s : State) (group m : Nat) : Rounding :=
  ⟨decide (profileNow s = 2 ∧ cfg s 0x480005 = 0), BitVec.ofNat 64 (cfg s 0x480004), BitVec.ofNat 64 (currentStep s),
    BitVec.ofNat 32 (groupNow s group).tensorId, siteWord 1 m⟩

/-- Accumulate one merged row into its partial slot, assigning one at its first touch (R186); the flags say that no slot is left,
and that the row read as uncorrectable. -/
def accumulateRow (s : State) (bn : Nat) (b : Binding) (rowLen m row : Nat) (values : List Nat) (poison : Bool) : State × Bool × Bool :=
  let mark := fun (l : List Nat) (p : Bool) => l.flatMap (fun v => (bytesOfNat 4 v).map (fun x => (x, p)))
  match (bindingOf s bn).directory.findIdx? (fun x => x == row) with
  | some n =>
    let (old, s1) := readBytes (lookupTags s (partialAt b rowLen n) (4 * rowLen)) (partialAt b rowLen n) (4 * rowLen)
    let sums := (elemsOfBytes 4 rowLen old.bytes).zip values |>.zipIdx.map (fun x =>
      roundAt (partialRounding s b.group m) (BitVec.ofNat 64 (row * rowLen + x.2)) ((decodeNum 7 x.1.1).add (decodeNum 7 x.1.2)))
    if old.error then (s1, false, true)
    else (disturb (writeMarked s1 (partialAt b rowLen n) (mark sums (poison || old.poisoned))).1 [⟨partialAt b rowLen n, 4 * rowLen⟩], false, false)
  | none =>
    let n := (bindingOf s bn).directory.length
    if b.partialRows ≤ n then (s, true, false)
    else
      let s1 := onBinding s bn (fun w => { w with directory := w.directory ++ [row] })
      (disturb (writeMarked s1 (partialAt b rowLen n) (mark values poison)).1 [⟨partialAt b rowLen n, 4 * rowLen⟩], false, false)

/-- The body of GRAD (R186). -/
def gradBody (c : Nat) (cmd : CrackerCommand) (s : State) : Got State × State :=
  let r := tableRegion s cmd.region
  let b := bindingNow s r.binding
  let rowLen := (groupNow s b.group).rowLen
  let w := bindingOf s r.binding
  let order := decide (w.channel.getD c = c) && (match w.lastMicrobatch with | some m => decide (m < cmd.microbatch) | none => true)
  if order = false then (.fault 0x04090706, s)
  else
    Got.andThen (readIndices c cmd s) (fun idx s0 =>
      let s1 := rowsAhead c cmd r idx s0
      if idx.any (fun i => !isPad cmd i && ownsRow r i && decide (r.rows ≤ localRow r i)) then (.fault 0x04090704, s1)
      else Got.andThen (gradRows c cmd rowLen idx s1) (fun rows s2 =>
        let s3 := onBinding s2 r.binding (fun w => { w with channel := some c, lastMicrobatch := some cmd.microbatch })
        let distinct := rows.foldl (fun l x => setAdd l x.1) []
        let (s4, full, bad) := distinct.foldl (fun (a : State × Bool × Bool) row =>
          let (values, poison) := mergedRow rowLen row rows
          let (t, f, e) := accumulateRow a.1 r.binding b rowLen cmd.microbatch row values poison
          (t, a.2.1 || f, a.2.2 || e)) (s3, false, false)
        let s5 := if full then localFault s4 0x05000701 r.binding else s4
        let dir := (bindingOf s5 r.binding).directory
        let requests := idx.map (fun i =>
          match dir.findIdx? (fun x => x == i) with
          | some n => if isPad cmd i then [] else sectorsOf (partialAt b rowLen n) (4 * rowLen)
          | none => [])
        if bad then (.fault 0x02090801, s5) else (.ok (commandRan s5 c cmd requests []), s5)))

/-- GRAD: one microbatch's occurrence rows, merged exactly and accumulated (R186). -/
def execGrad (channel : Nat) (s : State) : Host.Outcome State Fault Refusal :=
  done s (runCommand channel 3 (gradBody channel) s)

/-! ## The tracker (R183) -/

/-- Sectors in flight on all channels. -/
def allInflight (s : State) : List Nat := s.cracker.channels.flatMap (fun c => c.2.inflight)

/-- Sectors in flight on the queue channels. -/
def queueInflight (s : State) : List Nat := (s.cracker.channels.filter (fun c => decide (c.1 < 12))).flatMap (fun c => c.2.inflight)

/-- The bank of a batch's page. -/
def batchBank (s : State) (sectors : List Nat) : Nat := bankKey s (32 * sectors.headD 0)

/-- A batch finds a tracker entry for each of its requests and keeps the limits of R183: that of its bank, and, on a queue
channel, those of the channel and of all queue channels. -/
def batchFits (s : State) (c : Nat) (sectors : List Nat) : Bool :=
  let all := allInflight s
  decide (((all.filter (fun x => decide (bankKey s (32 * x) = batchBank s sectors))).length) + sectors.length ≤ 16384 ∧
    all.length + sectors.length ≤ 1048576 ∧
    (c < 12 → (channelOf s c).inflight.length + sectors.length ≤ 262144 ∧ (queueInflight s).length + sectors.length ≤ 983040))

/-- The batches of the window being released. -/
def firstWindow (l : List (Nat × List Nat)) : List (Nat × List Nat) :=
  match l with
  | [] => []
  | b :: _ => l.filter (fun x => decide (batchWindow x = batchWindow b))

/-- The first batch of a list that keeps the limits; a held one is passed only by batches to other banks (R183). -/
def freeBatch (s : State) (c : Nat) : NatSet → List (Nat × List Nat) → Option (Nat × List Nat)
  | _, [] => none
  | held, b :: l =>
    if held.contains (batchBank s b.2) then freeBatch s c held l
    else if batchFits s c b.2 then some b
    else freeBatch s c (setAdd held (batchBank s b.2)) l

/-- The next batch of a channel's window that may be released. -/
def nextBatch (s : State) (c : Nat) : Option (Nat × List Nat) := freeBatch s c [] (firstWindow (channelOf s c).batches)

/-- BATCH_RELEASE: a page batch enters the tracker, and its requests go to their home slices (R181, R183). -/
def execBatchRelease (channel : Nat) (s : State) : Host.Outcome State Fault Refusal :=
  match (if huskStopped s then none else nextBatch s channel) with
  | none => .next s
  | some b =>
    let head := (channelOf s channel).cmds.head?
    let s1 := onChannel s channel (fun x => { x with
      batches := x.batches.filter (fun y => decide (y.1 ≠ b.1))
      inflight := x.inflight ++ b.2 })
    let n := (allInflight s1).length
    let s2 := s1.onCracker (fun k => { k with
      sectorRequests := k.sectorRequests + b.2.length
      batches := k.batches + 1
      peak := max k.peak n
      queueLoad := match head with
        | some h => tabCount k.queueLoad h.queue b.2.length
        | none => k.queueLoad })
    done s (b.2.foldl (fun t x => accessSector t channel x (sectorsWritten b)) s2)

/-- SECTOR_DONE: a request gives its tracker entry back (R183). -/
def execSectorDone (channel sector : Nat) (s : State) : Host.Outcome State Fault Refusal :=
  if (channelOf s channel).inflight.contains sector ∧ huskStopped s = false then
    done s (finishCommand (onChannel s channel (fun x => { x with inflight := x.inflight.erase sector })) channel)
  else .next s

/-! ## Exchange and merge (R188) -/

/-- Bytes of an inbound record. -/
def inboundBytes (rowLen : Nat) : Nat := ceil64 (64 + 4 * rowLen)

/-- The header of an inbound record (Table 7.6). -/
def inboundHeader (row slot : Nat) (deferred : Bool) (step : Nat) : List Byte :=
  bytesOfNat 64 (row + slot * 2 ^ 64 + natOfBool deferred * 2 ^ 80 + step * 2 ^ 96)

/-- Elements of a row that one INBOUND packet carries after the header. -/
def inboundElems : Nat := 1008

/-- Send a row to a slot as INBOUND packets. Under profile F the row travels in the binary32 of Table 7.6, unrounded; Table 3.7
could be read otherwise (DESIGN CHOICE, assumption 80). -/
def sendInbound (s : State) (c : Coll) (slot row : Nat) (deferred : Bool) (step : Nat) (values : List Nat) (poison : Bool) : State :=
  let own := (collGroup s c.key).2
  (packetRuns inboundElems 0 values.length).foldl (fun t r =>
    sendStep t { collPacket t c 7 slot with
      fmt := 7
      deferred := deferred
      elemOffset := r.1
      payload := inboundHeader row own deferred step ++ ((values.drop r.1).take r.2).flatMap (bytesOfNat 4)
      poison := if poison then (List.range ((r.2 + 1) / 2)).map (8 + ·) else [] }) s

/-- The header of an inbound record of a binding. -/
def inboundHead (s : State) (b : Binding) (rowLen i : Nat) : Nat :=
  natOfBytes ((List.range 64).map (fun j => heldByte s.mem s.free (b.inboundBase + inboundBytes rowLen * i + j)))

/-- An inbound record, or a later part of one, reaches the inbound area (R188). -/
def placeInbound (s : State) (bn : Nat) (offset : Nat) (l : List (Byte × Bool)) : State :=
  let b := bindingNow s bn
  let rowLen := (groupNow s b.group).rowLen
  let w := bindingOf s bn
  let at_ := fun i => b.inboundBase + inboundBytes rowLen * i
  if offset = 0 then
    if b.inboundRows ≤ w.inbound then localFault s 0x05000702 bn
    else onBinding (fabricWrite s (at_ w.inbound) l) bn (fun w => { w with inbound := w.inbound + 1 })
  else
    let head := natOfBytes ((l.take 64).map (fun x => x.1))
    match (List.range w.inbound).find? (fun i => decide (inboundHead s b rowLen i = head)) with
    | some i => fabricWrite s (at_ i + 64 + 4 * offset) (l.drop 64)
    | none => s

/-- The values of an INBOUND packet are counted for their sender, a deferred contribution apart. -/
def countInbound (s : State) (bn : Nat) (p : Packet) : State :=
  onBinding s bn (fun w => { w with inboundFrom := tabCount w.inboundFrom (2 * p.srcSlot + natOfBool p.deferred) ((p.payload.length - 64) / 4) })

/-- INBOUND: an inbound record is written to the owner's inbound area (R188). One of a later step, or one that an older member
sends before this member's GO, waits in the input buffer: the exchange of its step has not begun here (R41, R241). -/
def execInbound (p : Packet) (s : State) : Host.Outcome State Fault Refusal :=
  if packetEarly s p then .next s
  else
    withPacket s 7 p (fun t =>
      if stalePacket t p then t
      else match bindingOfGroup t p.group with
        | some b => placeInbound (countInbound t b p) b p.elemOffset (p.payload.zipIdx.map (fun x => (x.1, p.poison.contains (x.2 / 8))))
        | none => t)

/-- The slots that a row goes to: its owner, or, without shards, every other Henelo member. -/
def rowTargets (s : State) (r : TableRegion) (row : Nat) : List Nat :=
  match commGroup s r.comm with
  | none => []
  | some g =>
    let own := (ownSlot s g).getD 0
    if 1 < r.shards then (if row % r.shards = r.shard then [] else [row % r.shards])
    else (heneloSlots g).filter (fun x => decide (x ≠ own))

/-- A contribution of rows as it is held in the deferral store: each row's number before its values. -/
def packRows (l : List (Nat × List Nat × Bool)) : List (BitVec 64) :=
  l.flatMap (fun x => BitVec.ofNat 64 x.1 :: x.2.1.map (BitVec.ofNat 64))

/-- The poison of a contribution of rows, value by value as `packRows` places them. -/
def packMarks (l : List (Nat × List Nat × Bool)) : NatSet := markedAt (l.flatMap (fun x => x.2.2 :: x.2.1.map (fun _ => x.2.2)))

/-- The rows of a stored contribution, each with its poison. -/
def unpackRows (rowLen : Nat) : Nat → List (BitVec 64 × Bool) → List (Nat × List Nat × Bool)
  | 0, _ => []
  | _ + 1, [] => []
  | n + 1, r :: l => (r.1.toNat, (l.take rowLen).map (fun x => x.1.toNat), r.2) :: unpackRows rowLen n (l.drop rowLen)

/-- Send rows deferred from the step before: to their owners with deferred = 1, owned ones into the own inbound area (R188, R245). -/
def sendDeferredRows (s : State) (k : CollKey) (bn : Nat) (d : Deferred) : State :=
  let b := bindingNow s bn
  let r := tableRegion s b.region
  let rowLen := (groupNow s b.group).rowLen
  let own := (collGroup s k).2
  (unpackRows rowLen d.values.length (d.values.zipIdx.map (fun y => (y.1, d.marks.contains y.2)))).foldl (fun t x =>
    let c := collAt t k (currentStep t)
    let t1 := (rowTargets t r x.1).foldl (fun t slot => sendInbound t c slot x.1 true d.step x.2.1 x.2.2) t
    if ownsRow r x.1 then
      let head := inboundHeader x.1 own true d.step
      placeInbound t1 bn 0 (head.map (fun y => (y, false)) ++ elemData 4 (x.2.1.map (fun v => (v, x.2.2))))
    else t1) s

/-- The sectors of a binding's partial rows. -/
def partialSectors (s : State) (bn : Nat) : List Nat :=
  let b := bindingNow s bn
  sectorsOf b.partialBase (4 * (groupNow s b.group).rowLen * (bindingOf s bn).directory.length)

/-- The own part of an EXCHANGE: partial rows to their owners, or, left out by the GO, into the deferral store (R188, R245). -/
def exchangeRows (s : State) (k : CollKey) (step : Nat) : State :=
  match bindingOfGroup s k.group with
  | none => s
  | some bn =>
    let c := collAt s k step
    let own := (collGroup s k).2
    let r := tableRegion s (bindingNow s bn).region
    let (rows, s0) := partialRowsOf s bn
    let s1 := hazelRequests s0 13 false (partialSectors s bn)
    let s2 := match storedDeferred s1 k.group step with
      | some d => if c.deferredIn.contains own then sendDeferredRows s1 k bn d else s1
      | none => s1
    if contributes c own then
      rows.foldl (fun t x =>
        let t0 := if x.2.2 ∧ rowTargets t r x.1 ≠ [] then poisonEscape t else t
        (rowTargets t r x.1).foldl (fun t slot => sendInbound t c slot x.1 false step x.2.1 x.2.2) t0) s2
    else if c.decisions.getD own 0 = 1 then
      (if rows.any (fun x => x.2.2) then poisonEscape s2 else s2).onFabric (fun f => { f with
        deferred := f.deferred ++ [⟨k.group, k.comm, step, packRows rows, packMarks rows⟩] })
    else s2

/-- EXCHANGE: every unowned partial row to its owner, in ascending row order (R188). -/
def execExchange (k : CollKey) (s : State) : Host.Outcome State Fault Refusal := ownPart s k 6 exchangeRows

/-- A contribution to the merge: local row, deferred, slot, values, poison. -/
structure RowPart where
  row : Nat
  deferred : Bool
  slot : Nat
  values : List Nat
  poison : Bool
  deriving DecidableEq, Repr

/-- The contributions of the inbound area. -/
def inboundParts (s : State) (bn : Nat) : List RowPart × State :=
  let b := bindingNow s bn
  let rowLen := (groupNow s b.group).rowLen
  (List.range (bindingOf s bn).inbound).foldl (fun x i =>
    let a := b.inboundBase + inboundBytes rowLen * i
    let (v, t) := readBytes (lookupTags x.2 a (64 + 4 * rowLen)) a (64 + 4 * rowLen)
    let h := natOfBytes (v.bytes.take 64)
    let t1 := if v.error then recordFault t 0x02090801 (b.inboundBase + inboundBytes rowLen * i) else t
    (x.1 ++ [⟨bitsAt h 0 64, bitAt h 80, bitsAt h 64 16, elemsOfBytes 4 rowLen (v.bytes.drop 64), v.poisoned⟩], t1)) ([], s)

/-- The order of a row's contributions: those of this step by slot, then the deferred ones by slot. -/
def partBefore (x y : RowPart) : Bool :=
  if x.deferred = y.deferred then decide (x.slot ≤ y.slot) else !x.deferred

/-- Insert a contribution at its place. -/
def insertPart (x : RowPart) : List RowPart → List RowPart
  | [] => [x]
  | y :: l => if partBefore x y then x :: y :: l else y :: insertPart x l

/-- Combine the contributions of a global row (R188). -/
def combineParts (s : State) (c : Coll) (rowLen row : Nat) (l : List RowPart) : List Nat :=
  match l.foldr insertPart [] with
  | [] => List.replicate rowLen 0
  | x :: rest => rest.foldl (fun acc y =>
      (acc.zip y.values).zipIdx.map (fun e =>
        combine s c (if y.deferred then 3 else 2) y.slot (row * rowLen + e.2) e.1.1 e.1.2)) x.values

/-- Bytes made up to whole 32 B sectors with what memory holds after them (R205). -/
def wholeSectors (s : State) (a : Nat) (l : List Byte) : List Byte :=
  l ++ (List.range ((32 - l.length % 32) % 32)).map (fun i => heldByte s.mem s.free (a + l.length + i))

/-- MERGE_PASS: channel 12 combines each local row's contributions into the reduction buffer and the row list (R188, R140). -/
def execMergePass (binding : Nat) (s : State) : Host.Outcome State Fault Refusal :=
  let w := bindingOf s binding
  if w.exchanged = false ∨ w.merged ∨ huskStopped s then .next s
  else
    let b := bindingNow s binding
    let g := groupNow s b.group
    let r := tableRegion s b.region
    let k : CollKey := ⟨r.comm, b.group, 0⟩
    let c := { collAt s k (currentStep s) with fmt := 7 }
    let own := (collGroup s k).2
    let (rows, s1) := partialRowsOf s binding
    let (inb, s2) := inboundParts s1 binding
    let mine := if contributes c own then (rows.filter (fun x => ownsRow r x.1)).map (fun x => ⟨x.1, false, own, x.2.1, x.2.2⟩) else []
    let all := inb ++ mine
    let order := all.foldl (fun l x => setAddSorted l x.row) []
    let s3 := if all.any (fun x => x.poison) then poisonEscape s2 else s2
    let fits := order.take g.stageRows
    let sums := fits.flatMap (fun x => (combineParts s3 c g.rowLen x (all.filter (fun y => decide (y.row = x)))).flatMap (bytesOfNat 4))
    let list := wholeSectors s3 b.listBase (fits.flatMap (fun x => bytesOfNat 4 (localRow r x)))
    let s4 := putMem (putMem s3 g.rbuf sums) b.listBase list
    let s5 := disturb s4 [⟨g.rbuf, sums.length⟩, ⟨b.listBase, list.length⟩]
    let s6 := hazelRequests (hazelRequests s5 12 false (partialSectors s binding ++ sectorsOf b.inboundBase (inboundBytes g.rowLen * w.inbound)))
      12 true (sectorsOf g.rbuf sums.length ++ sectorsOf b.listBase list.length)
    let s7 := if g.stageRows < order.length then localFault s6 0x05000502 b.group else s6
    let s8 := (onBinding s7 binding (fun w => { w with merged := true, mergedRows := fits.length })).onCracker (fun k => { k with
      mergedRows := tabSet 0 k.mergedRows binding fits.length })
    done s (saveResult (onWork s8 b.group (fun x => { x with final := true, reduced := true })) b.group)

/-! ## Rows for the sweep (R189) -/

/-- The lines of a row's six planes. -/
def rowLines (g : Group) (row : Nat) : List Nat :=
  (List.range 6).flatMap (fun p => linesTouched (g.slot0 + p * g.stride + 2 * row * g.rowLen) (2 * g.rowLen))

/-- Every line of a row's planes is present in its home slice. -/
def rowPresent (s : State) (g : Group) (row : Nat) : Bool := (rowLines g row).all (fun l => (findLine s l).isSome)

/-- The row was fed already in this step: delivered, updated or set aside. -/
def rowFed (s : State) (bn group row : Nat) : Bool :=
  let w := bindingOf s bn
  w.ready.contains row || w.staging.contains row || s.train.sweep.any (fun x => decide (x.group = group ∧ x.row = row))

/-- Rows that channel 14 holds aside for all bindings (R189). -/
def stagedAside (s : State) : Nat := s.cracker.bindings.foldl (fun n b => n + b.2.staging.length) 0

/-- The sectors of a row's six planes. -/
def rowSectors (g : Group) (row : Nat) : List Nat :=
  (List.range 6).flatMap (fun p => sectorsOf (g.slot0 + p * g.stride + 2 * row * g.rowLen) (2 * g.rowLen))

/-- The place of a local row in a binding's row list. -/
def rankOf (s : State) (bn row : Nat) : Nat :=
  (((List.range (bindingOf s bn).mergedRows).map (listedRow s (bindingNow s bn))).findIdx? (fun x => x == row)).getD 0

/-- Channel 14 reads a row's planes and its gradient and delivers them to its update tile (R189). -/
def feedRow (s : State) (bn row : Nat) : State :=
  let g := groupNow s (bindingNow s bn).group
  hazelRequests (onBinding s bn (fun w => { w with staging := w.staging.erase row, ready := setAdd w.ready row, fed := w.fed + 1 })) 14 false
    (rowSectors g row ++ sectorsOf (g.rbuf + 4 * g.rowLen * rankOf s bn row) (4 * g.rowLen))

/-- SWEEP_FEED: channel 14 feeds the next merged row, or sets it aside while its lines are filled (R189). -/
def execSweepFeed (binding : Nat) (s : State) : Host.Outcome State Fault Refusal :=
  let b := bindingNow s binding
  let w := bindingOf s binding
  let g := groupNow s b.group
  let room := decide (stagedAside s < 16384)
  if s.train.sweepBegun = false ∨ w.merged = false ∨ huskStopped s then .next s
  else
    match ((List.range w.mergedRows).map (listedRow s b)).find? (fun row => !rowFed s binding b.group row && (rowPresent s g row || room)) with
    | none => .next s
    | some row =>
      if rowPresent s g row then done s (feedRow s binding row)
      else
        let s1 := (rowLines g row).foldl (fun t l =>
          if (findLine t l).isSome then t else accessLine t ⟨.cracker 14, l, 0xFF, 0, 0, 0xFF⟩) s
        done s ((onBinding s1 binding (fun w => { w with staging := w.staging ++ [row] })).onCracker (fun k => { k with
          stagedRows := k.stagedRows + 1 }))

/-- STAGED_ROW_READY: the fills of a set-aside row have returned; it is read and delivered (R189). -/
def execStagedRowReady (binding row : Nat) (s : State) : Host.Outcome State Fault Refusal :=
  let g := groupNow s (bindingNow s binding).group
  let filling := (rowLines g row).any (fun l => s.cache.fills.any (fun f => f.line == l) || s.cache.waiting.any (fun x => x.2.1 == l) ||
    s.cache.blocked.any (fun x => x.line == l))
  if (bindingOf s binding).staging.contains row = false ∨ filling ∨ huskStopped s then .next s
  else done s (feedRow s binding row)

/-! ## Serving tables (R190, R191) -/

/-- A table request: its header (Table 7.7) and rows. -/
structure TableRequest where
  step : Nat
  slot : Nat
  region : Nat
  seq : Nat
  rows : List Nat
  deriving DecidableEq, Repr

/-- The request that a payload holds. -/
def tableRequestOf (l : List Byte) : TableRequest :=
  let h := natOfBytes (l.take 64)
  ⟨bitsAt h 0 64, bitsAt h 64 16, bitsAt h 80 6, bitsAt h 96 32, elemsOfBytes 8 (bitsAt h 128 13) (l.drop 64)⟩

/-- The header of a response (Table 7.8). -/
def responseHeader (q : TableRequest) (status count : Nat) : List Byte :=
  bytesOfNat 64 (q.step + q.seq * 2 ^ 64 + status * 2 ^ 96 + count * 2 ^ 100)

/-- The status of a request under the region's terms and the server's boundaries (Table 7.8, R191). -/
def requestStatus (s : State) (p : Packet) (q : TableRequest) : Nat :=
  let r := tableRegion s q.region
  let member := match commGroup s r.comm with
    | some g => match memberAt g q.slot with
      | some m => decide (m.node = p.src)
      | none => false
    | none => false
  let pad := 2 ^ 64 - 1
  if r.valid = false ∨ r.served = false ∨ member = false then 1
  else if q.rows.any (fun x => decide (x ≠ pad) && (!ownsRow r x || decide (r.rows ≤ localRow r x))) then 2
  else if q.step = currentStep s ∧ s.train.sweepBegun = false then 0
  else 3

/-- The bytes of the requested rows, with poison marks; the flag says that a line of them is held for repair. -/
def servedBytes (r : TableRegion) : List Nat → State → List (Byte × Bool) × Bool × State
  | [], s => ([], false, s)
  | x :: l, s =>
    if x = 2 ^ 64 - 1 then
      let (rest, h, t) := servedBytes r l s
      (zeroMarked r.rowBytes ++ rest, h, t)
    else
      let a := r.base + r.rowBytes * localRow r x
      let (b, s1) := readBytes (lookupTags s a r.rowBytes) a r.rowBytes
      let (rest, h, t) := servedBytes r l s1
      (b.data ++ rest, b.held || h, t)

/-- Answer a table request (R190); one that meets a held line of saved state waits for its repair (R200). -/
def serveRequest (s : State) (p : Packet) (q : TableRequest) : State :=
  let status := requestStatus s p q
  let s0 := s.onCracker (fun k => { k with served := tabCount k.served status 1 })
  let reply := { blankPacket 9 p.src with comm := p.comm, step := q.step, srcSlot := p.dstSlot, dstSlot := p.srcSlot }
  if status ≠ 0 then sendPacket s0 { reply with payload := responseHeader q status 0 }
  else
    let (l, held, s1) := servedBytes (tableRegion s q.region) q.rows s0
    if held then (servedBytes (tableRegion s q.region) q.rows s).2.2.onCracker (fun k => { k with heldRequests := k.heldRequests ++ [p] })
    else
      let r := tableRegion s q.region
      let s2 := hazelRequests s1 15 false ((q.rows.filter (fun x => decide (x ≠ 2 ^ 64 - 1))).flatMap (fun x =>
        sectorsOf (r.base + r.rowBytes * localRow r x) r.rowBytes))
      (packetRuns 4032 0 l.length).foldl (fun t x =>
      let part := (l.drop x.1).take x.2
      sendPacket t { reply with
        elemOffset := x.1
        payload := responseHeader q 0 q.rows.length ++ part.map (fun y => y.1)
        poison := part.zipIdx.foldl (fun a y => if y.1.2 then setAddSorted a (8 + y.2 / 8) else a) [] }) s2

/-- The rows of a request have all arrived. -/
def requestWhole (p : Packet) : Bool := decide (64 + 8 * bitsAt (natOfBytes (p.payload.take 64)) 128 13 ≤ p.payload.length)

/-- A table request reaches the server: joined to its first part where its rows come in several packets, held until its boundary,
or answered (R191). -/
def takeRequest (s : State) (p : Packet) : State :=
  let first := s.cracker.heldRequests.find? (fun q => decide (q.src = p.src ∧ q.comm = p.comm) && !requestWhole q)
  match (if p.elemOffset = 0 then none else first) with
  | some q =>
    let joined := { q with payload := q.payload ++ p.payload }
    settle (s.onCracker (fun k => { k with heldRequests := k.heldRequests.erase q })) joined
  | none => settle s p
where
  settle (s : State) (p : Packet) : State :=
    let q := tableRequestOf p.payload
    if requestWhole p = false ∨ currentStep s < q.step then
      s.onCracker (fun k => { k with heldRequests := k.heldRequests ++ [p] })
    else serveRequest s p q

/-- The server holds 64 requests of a member slot (R190). -/
def slotFull (s : State) (p : Packet) : Bool :=
  decide (64 ≤ (s.cracker.heldRequests.filter (fun q => decide (q.comm = p.comm ∧ q.srcSlot = p.srcSlot) && requestWhole q)).length)

/-- TABLE_REQ: served from committed state, held until its boundary, or refused by status (R191). While the server holds 64
requests of its slot, a further one waits on the link (R190). -/
def execTableReq (p : Packet) (s : State) : Host.Outcome State Fault Refusal :=
  if slotFull s p then .next s else withPacket s 8 p (fun t => takeRequest t p)

/-- Serve the held requests that a boundary has made due. -/
def serveHeld (s : State) : State :=
  let l := s.cracker.heldRequests
  l.foldl takeRequest (s.onCracker (fun k => { k with heldRequests := [] }))

/-- Write response bytes from a byte offset of the requested rows to their near rows. -/
def deliverRemote (c : Nat) (x : RemoteRows) (offset : Nat) (l : List (Byte × Bool)) (s : State) : Got Unit × State :=
  let first := offset / x.rowBytes
  let last := (offset + l.length + x.rowBytes - 1) / x.rowBytes
  match Got.each (fun j t =>
      let lo := max offset (j * x.rowBytes)
      let hi := min (offset + l.length) ((j + 1) * x.rowBytes)
      let near := (x.rows.getD j (0, 0)).1
      writeNear c (near + (lo - j * x.rowBytes)) ((l.drop (lo - offset)).take (hi - lo)) t)
    ((List.range (last - first)).map (first + ·)) s with
  | (.ok _, s1) => (.ok (), s1)
  | (.wait, s1) => (.wait, s1)
  | (.fault code, s1) => (.fault code, s1)

/-- TABLE_RSP: the requested rows go to their near rows, or a refusal halts the channel; after status 3 the module commits no
further step (R177, R191). -/
def execTableRsp (p : Packet) (s : State) : Host.Outcome State Fault Refusal :=
  withPacket s 9 p (fun t =>
    let h := natOfBytes (p.payload.take 64)
    let seq := bitsAt h 64 32
    let status := bitsAt h 96 4
    match t.cracker.channels.find? (fun c => c.2.remote.any (fun x => x.seq == seq)) with
    | none => t
    | some (c, ch) =>
      match ch.remote.find? (fun x => x.seq == seq) with
      | none => t
      | some x =>
        if status ≠ 0 then
          let t2 := haltChannel t c 0x04090708
          if status = 3 then stopModule t2 else t2
        else
          let l := (p.payload.drop 64).zipIdx.map (fun y => (y.1, p.poison.contains (8 + y.2 / 8)))
          match deliverRemote c x p.elemOffset l t with
          | (.fault code, t1) => haltChannel t1 c code
          | (_, t1) =>
            if x.rows.length * x.rowBytes ≤ p.elemOffset + l.length then
              finishCommand (onChannel t1 c (fun y => { y with remote := y.remote.filter (fun z => decide (z.seq ≠ seq)) })) c
            else t1)

/-- cracker_counters_clear (Table 7.9). -/
def clearCrackerCounters (s : State) : State :=
  s.onCracker (fun k => { k with
    sectorRequests := 0
    shared := 0
    batches := 0
    channels := k.channels.foldl (fun t e => tabSet Channel.idle t e.1 { e.2 with quotaHeld := 0 }) k.channels
    peak := 0
    runaheadDropped := 0
    stagedRows := 0
    served := [] })

end Sys2Proof.Machine
end

