-- ==== Sys2Proof/Machine/Startup.lean ====
section
/-! DEFINITION. Starts and stops of the module (R307, R308, R342 to R344, R367, R369), the phases of start-up up to HBM training
(R347 to R355), retirements and spare mapping (R15, R212, R214). -/

namespace Sys2Proof.Machine

open Sys2Proof

/-! ## Resets -/

/-- The state at phase 0 of a start-up: flash survives, everything else takes its reset value; the reset record that flash holds
is presented (R342, R344). -/
def startState (s : State) (inputMv : Nat) : State :=
  let last := match s.flash.reset with
    | some r => r
    | none => { ResetRecord.none with resets := s.flash.resets }
  { State.reset with
    power := { Power.atPowerOn with inputMv := inputMv }
    flash := { s.flash with reset := none }
    boot := { Boot.phase0 with lastReset := last }
    stack := Stack.mapped s.flash.activeCount
    out := s.out
    free := s.free
    pending := s.pending }

/-- The state of a module whose converters have stopped: nothing runs and nothing but flash is kept (R307, R343). -/
def stoppedState (s : State) (v36 present low : Bool) (inputMv : Nat) : State :=
  let t := startState s inputMv
  { t with
    power := { t.power with v36 := v36, modPresent := present, shutdownLow := low, convertersOn := false }
    flash := s.flash }

/-- The input is in the range in which the converters run (Table 12.1). -/
def inputRuns (mv : Nat) : Bool := decide (28000 ≤ mv ∧ mv ≤ 44000)

/-- Start from phase 0 when 36 V is present, J1 is mated, SHUTDOWN_N is high and the input is in range; else stay stopped. -/
def startOrStay (s : State) (v36 present low : Bool) (inputMv : Nat) : State :=
  if v36 && present && !low && inputRuns inputMv then
    let t := startState s inputMv
    if inputMv < 32000 then raise (t.onPower (fun p => { p with lowInput := true })) 0x06110C03 0 else t
  else stoppedState s v36 present low inputMv

/-- A stack reset with a cause (R343, R344): the reset record, then start-up from phase 0; the loss of memory is raised and kept
in mind (R289). An input stop (cause 0) writes no record. The front-end converters keep running (Table 14.1). -/
def stackResetWith (s : State) (cause : Nat) (code : Code) : State :=
  let s1 :=
    if cause = 0 then s
    else s.onFlash (fun f => { f with
      reset := some ⟨cause, if cause = 6 then code else 0, s.train.committed, f.resets + 1⟩
      resets := f.resets + 1 })
  let t := (startState s1 s.power.inputMv).onPower (fun p => { p with converterFailed := s.power.converterFailed, lowInput := s.power.lowInput })
  raise (t.onResil (fun r => { r with memoryLost := true })) 0x08000B07 0

/-- POWER_ON: 36 V is applied (R342). -/
def execPowerOn (inputMv : Nat) (s : State) : Host.Outcome State Fault Refusal :=
  restarted s (startOrStay s true s.power.modPresent s.power.shutdownLow inputMv)

/-- INPUT_STOP: the input leaves the range in which the converters run (R307). -/
def execInputStop (inputMv : Nat) (s : State) : Host.Outcome State Fault Refusal :=
  if inputRuns inputMv then .next s
  else restarted s (stoppedState s false s.power.modPresent s.power.shutdownLow inputMv)

/-- CONVERTER_FAIL: a front-end converter fails (R308). -/
def execConverterFail (converter : Nat) (s : State) : Host.Outcome State Fault Refusal :=
  if s.power.converterFailed.contains converter ∨ 4 ≤ converter then .next s
  else
    let s1 := s.onPower (fun p => { p with converterFailed := setAddSorted p.converterFailed converter })
    match s1.power.converterFailed.length with
    | 1 => done s (raise s1 0x06110C01 0)
    | 2 => done s (raise s1 0x06110C02 0)
    | _ => restarted s (stoppedState s s.power.v36 s.power.modPresent s.power.shutdownLow s.power.inputMv)

/-- SHUTDOWN_ASSERT: SHUTDOWN_N is held low; the converters stop as under an input stop (R367). -/
def execShutdownAssert (s : State) : Host.Outcome State Fault Refusal :=
  restarted s (stoppedState s s.power.v36 s.power.modPresent true s.power.inputMv)

/-- SHUTDOWN_RELEASE: SHUTDOWN_N rises; with 36 V present the module starts from phase 0 (R367). -/
def execShutdownRelease (s : State) : Host.Outcome State Fault Refusal :=
  if s.power.shutdownLow then restarted s (startOrStay s s.power.v36 s.power.modPresent false s.power.inputMv)
  else .next s

/-- MODULE_INSERT: MOD_PRESENT_N mates; the converters are enabled (R369). -/
def execModuleInsert (s : State) : Host.Outcome State Fault Refusal :=
  if s.power.modPresent then .next s
  else restarted s (startOrStay s s.power.v36 true s.power.shutdownLow s.power.inputMv)

/-- MODULE_REMOVE: MOD_PRESENT_N breaks; the converters stop as under an input stop (R369). -/
def execModuleRemove (s : State) : Host.Outcome State Fault Refusal :=
  if s.power.modPresent then restarted s (stoppedState s s.power.v36 false s.power.shutdownLow s.power.inputMv)
  else .next s

/-- A stack reset that an event of the running module brings; stopped converters leave no stack to reset (R307, R343). -/
def resetStack (s : State) (cause : Nat) (code : Code) : Host.Outcome State Fault Refusal :=
  if s.power.convertersOn then restarted s (stackResetWith s cause code) else .next s

/-- STACK_RESET: a stack reset of a given cause (R343). -/
def execStackReset (cause : Nat) (code : Code) (s : State) : Host.Outcome State Fault Refusal :=
  resetStack s cause code

/-- WATCHDOG_EXPIRY: a Hazel core made no progress for 100 ms (R344). -/
def execWatchdogExpiry (_hazelCore : Nat) (s : State) : Host.Outcome State Fault Refusal :=
  resetStack s 4 0

/-- MGMT_LINK_LOSS: the management port's PHY and MAC are reset; only datagrams in flight are lost (R342). -/
def execMgmtLinkLoss (s : State) : Host.Outcome State Fault Refusal := done s s

/-! ## Retirements (R12, R15, R212, R214) -/

/-- The proxy of a retired slice i = 4p + layer − 1 (R214). -/
def chooseProxy (k : Stack) (i : Nat) : Option Nat :=
  let p := i / 4
  let l := i % 4
  ((List.range 383).map (fun n => (p + 1 + n) % 384)).find? (fun q =>
    decide (tabGet 0 k.slices (4 * q + l) = 0) && decide (sliceKiB i ≤ sliceKiB (4 * q)) &&
      k.proxies.all (fun e => !(decide (e.1 % 4 = l) && decide (e.2 = q))))

/-- The stack with a slice retired and its proxy chosen; whether a proxy was found. -/
def retireSlice (k : Stack) (i : Nat) : Stack × Bool :=
  if tabGet 0 k.slices i = 1 then (k, true)
  else
    let k1 := { k with slices := tabSet 0 k.slices i 1 }
    match chooseProxy k1 i with
    | some q => ({ k1 with proxies := tabSet 0xFFFF k1.proxies i q }, true)
    | none => (k1, false)

/-- The slices that interface 5p + i takes with it when it is lost (Table 8.8). -/
def slicesLost (interface : Nat) : List Nat :=
  let p := interface / 5
  match interface % 5 with
  | 0 => []
  | 1 => [4 * p + 3]
  | 2 => [4 * p + 3, 4 * p + 2]
  | 3 => [4 * p + 3, 4 * p + 2, 4 * p + 1]
  | _ => [4 * p + 3, 4 * p + 2, 4 * p + 1, 4 * p]

/-- The loss of an interface retires its column's tile (Table 8.8). -/
def tileLost (interface : Nat) : Bool := decide (interface % 5 < 4)

/-- The retirement of a tile in start-up, before spare mapping. -/
def retireTileAtStart (k : Stack) (p : Nat) : Stack := { k with retired := setAddSorted k.retired p }

/-- A logged retirement applied (R346). -/
def applyRetirement (k : Stack) (r : Retirement) : Stack :=
  match r with
  | .tile p => retireTileAtStart k p
  | .slice i => (retireSlice k i).1
  | .degraded f => { k with interfaces := tabSet 0 k.interfaces f (max 1 (tabGet 0 k.interfaces f)) }
  | .cut f => { k with interfaces := tabSet 0 k.interfaces f 2 }
  | .cluster p => { k with clusters := tabSet 0 k.clusters p 1 }
  | .channel _ => k

/-- The channels that the retirement log spreads. -/
def loggedChannels (f : Flash) : NatSet :=
  f.retirements.foldl (fun l r => match r with
    | .channel c => setAdd l c
    | _ => l) []

/-- Write entries into the retirement log, none twice (R346). -/
def logRetirements (s : State) (l : List Retirement) : State :=
  s.onFlash (fun f => { f with
    retirements := l.foldl (fun a r => if a.contains r then a else a ++ [r]) f.retirements })

/-- Spare mapping (R15): the first A tiles that are not retired are active and numbered in ascending order; the rest are spare. -/
def spareMapping (k : Stack) (activeCount : Nat) : Stack :=
  let good := (List.range 384).filter (fun p => !k.retired.contains p)
  { k with tileMap := good.take activeCount, spare := good.drop activeCount }

/-- End start-up in phase 9 (R355). -/
def unserviceable (s : State) (arg : Nat) : State :=
  let s1 := s.onBoot (fun b => { b with phase := 9 })
  logEvent (s1.boot.held.foldl (fun s e => logEvent s e.1 e.2) (s1.onBoot (fun b => { b with held := [] }))) 0x08000E0F arg

/-! ## Images (R347 to R350) -/

/-- Length of an XMSS signature of a header. -/
def signatureBytes : Nat := 2820

/-- The header of an image copy as a number. -/
def imageHeader (s : State) (copy : Nat) : Nat := natOfBytes (copyBytes s copy 0 256)

/-- A copy's header is well formed and of the copy's kind (Table 14.5, R348). -/
def headerOk (s : State) (copy : Nat) : Bool :=
  let v := imageHeader s copy
  decide (bitsAt v 0 32 = 0x4E4C4849 ∧ bitsAt v 32 8 = (if copy < 2 then 1 else 2) ∧ bitsAt v 40 8 = 1 ∧ bitsAt v 48 16 = 0 ∧
    1 ≤ bitsAt v 128 48 ∧ bitsAt v 128 48 ≤ 267383804 ∧ bitsAt v 176 16 = 0 ∧ bitsAt v 448 1600 = 0)

/-- Length of a copy's payload. -/
def payloadLength (s : State) (copy : Nat) : Nat := bitsAt (imageHeader s copy) 128 48

/-- A copy's payload. -/
def payloadOf (s : State) (copy : Nat) : List Byte := copyBytes s copy 256 (payloadLength s copy)

/-- The key that signs a copy (R347). -/
def imageKey (s : State) (copy : Nat) : List Byte := if copy < 2 then s.flash.bootKey else s.flash.userRoot

/-- The digest and signature of a copy hold (R348). -/
def imageSigned (s : State) (copy : Nat) : Bool :=
  headerOk s copy && decide (shake256 (payloadOf s copy) 32 = copyBytes s copy 24 32) &&
    Config.xmssVerify (imageKey s copy) (copyBytes s copy 0 256)
      (copyBytes s copy (256 + payloadLength s copy) signatureBytes)

/-- A firmware copy is at or above the floor; a user image has a root to be checked with (R348). -/
def imageAllowed (s : State) (copy : Nat) : Bool :=
  if copy < 2 then decide (s.flash.floor ≤ bitsAt (imageHeader s copy) 64 32)
  else s.flash.userRoot.any (fun b => decide (b ≠ 0))

/-- A copy is valid (R348). -/
def imageValid (s : State) (copy : Nat) : Bool := imageSigned s copy && imageAllowed s copy

/-- Set the image_state of a copy. -/
def setCopyState (s : State) (copy st : Nat) : State :=
  s.onFlash (fun f => { f with copies := listSet f.copies copy { f.copies.getD copy ⟨0, []⟩ with state := st } })

/-- A section of a user image: type and contents (Table 14.6a). -/
structure Section where
  kind : Nat
  body : List Byte
  deriving DecidableEq, Repr

/-- The sections of a user image's payload, with `fuel` at least their number; none when a header is malformed. -/
def sectionsOf : Nat → List Byte → Option (List Section)
  | 0, l => if l = [] then some [] else none
  | n + 1, l =>
    if l = [] then some []
    else
      let v := natOfBytes (l.take 16)
      let len := bitsAt v 64 32
      let kind := bitsAt v 0 8
      if l.length < 16 + len ∨ bitsAt v 8 56 ≠ 0 ∨ bitsAt v 96 32 ≠ 0 ∨ kind = 0 ∨ 3 < kind then none
      else (sectionsOf n (l.drop (16 + len))).map (fun r => ⟨kind, (l.drop 16).take len⟩ :: r)

/-- The sections of the user image in a copy. -/
def imageSections (s : State) (copy : Nat) : Option (List Section) :=
  let l := payloadOf s copy
  sectionsOf (l.length + 1) l

/-- One skipped copy: its state and its event (R349). -/
def skipCopy (s : State) (copy : Nat) : State :=
  if (s.flash.copies.getD copy ⟨0, []⟩).state = 0 then s
  else raise (setCopyState s copy 2) 0x07130E08 copy

/-- The first valid copy of a list, the others before it skipped; a user image must also have well-formed sections (R349, R350). -/
def chooseCopy : List Nat → State → Option Nat × State
  | [], s => (none, s)
  | c :: l, s =>
    if imageValid s c then
      if 2 ≤ c ∧ imageSections s c = none then
        chooseCopy l (skipCopy (raise s 0x07130E05 c) c)
      else (some c, setCopyState s c 1)
    else chooseCopy l (skipCopy s c)

/-- ROM_VERIFY: the boot ROM checks the firmware copies in the order of boot_select (R348, R349, Table 14.6). -/
def execRomVerify (s : State) : Host.Outcome State Fault Refusal :=
  if s.boot.phase ≠ 0 ∨ s.power.convertersOn = false then .next s
  else
    let order := if s.flash.bootSelect = 0 then [0, 1] else [1, 0]
    match chooseCopy order s with
    | (some c, s1) => done s (s1.onBoot (fun b => { b with phase := 2, firmwareRunning := c }))
    | (none, s1) => done s (s1.onBoot (fun b => { b with phase := 1 }))

/-- HAZEL_BOOT: the user image is chosen, the signing index resumes at the stored counter, and a trip record is presented
(R322, R349, R358). -/
def execHazelBoot (s : State) : Host.Outcome State Fault Refusal :=
  if s.boot.phase ≠ 2 then .next s
  else
    let order := if s.flash.userSelect = 0 then [2, 3] else [3, 2]
    let (c, s1) := chooseCopy order s
    let s2 := match s1.flash.trip with
      | some r => raise ((s1.onFlash (fun f => { f with trip := none })).onBoot (fun b => { b with lastTrip := r })) 0x06120C07 0
      | none => s1
    done s (s2.onBoot (fun b => { b with
      phase := 3
      userRunning := match c with
        | some k => k - 2
        | none => 0xFF
      sigIndex := sigReserved s }))

/-- RAILS_UP: the rails reach their setpoints (R352). -/
def execRailsUp (s : State) : Host.Outcome State Fault Refusal :=
  if s.boot.phase ≠ 3 then .next s
  else done s ((s.onPower (fun p => { p with railMv := p.railSet })).onBoot (fun b => { b with phase := 4 }))

/-! ## Built-in test (R354) -/

/-- A test's count in bist_report. -/
def setBist (s : State) (row n : Nat) : State := s.onBoot (fun b => { b with bistReport := tabSet 0 b.bistReport row n })

/-- Retire a slice in start-up: logged, with its code when no proxy exists. Returns whether one was found. -/
def bistSlice (s : State) (i : Nat) : State × Bool :=
  let (k, found) := retireSlice s.stack i
  let s1 := logRetirements { s with stack := k } [.slice i]
  if found then (s1, true) else (raise s1 0x08060809 i, false)

/-- Retire slices in start-up. -/
def bistSlices : List Nat → State → State × Bool
  | [], s => (s, true)
  | i :: l, s =>
    let (s1, a) := bistSlice s i
    let (s2, b) := bistSlices l s1
    (s2, a && b)

/-- Retire a tile in start-up with the code of the test that found it. -/
def bistTile (s : State) (p : Nat) (code : Code) : State :=
  if s.stack.retired.contains p then s
  else raise (logRetirements { s with stack := retireTileAtStart s.stack p } [.tile p]) code p

/-- Test 1: the failed TSVs of an interface take spares; without enough the interface is degraded and Table 8.8 applies. -/
def bistInterface (s : State) (f n : Nat) : State × Bool :=
  let left := tsvSpares f - tabGet 0 s.stack.tsvUsed f
  let s1 := s.onStack (fun k => { k with tsvUsed := tabCount k.tsvUsed f (min n left) })
  if n ≤ left then (s1, true)
  else
    let s2 := raise (logRetirements (s1.onStack (fun k => { k with interfaces := tabSet 0 k.interfaces f 1 })) [.degraded f])
      0x08070807 f
    let s3 :=
      if tileLost f ∧ s2.stack.retired.contains (f / 5) = false then
        logRetirements { s2 with stack := retireTileAtStart s2.stack (f / 5) } [.tile (f / 5)]
      else s2
    bistSlices (slicesLost f) s3

/-- Test 1 over a list of interfaces. -/
def bistInterfaces : List (Nat × Nat) → State → State × Bool
  | [], s => (s, true)
  | (f, n) :: l, s =>
    let (s1, a) := bistInterface s f n
    let (s2, b) := bistInterfaces l s1
    (s2, a && b)

/-- Test 5: march of the slices in service. -/
def bistMarch : List Nat → State → State × Bool
  | [], s => (s, true)
  | i :: l, s =>
    if tabGet 0 s.stack.slices i = 1 then bistMarch l s
    else
      let (s1, a) := bistSlice s i
      let (s2, b) := bistMarch l (raise s1 0x08060E14 i)
      (s2, a && b)

/-- Tests 1 to 5 of Table 14.8; the flag says whether every retired slice found a proxy. -/
def bistTests (s : State) (found : BistFinding) : State × Bool :=
  let (s1, a) := bistInterfaces found.tsvFails (setBist s 1 (found.tsvFails.foldl (fun n x => n + x.2) 0))
  let s2 := found.clusterFails.foldl (fun s p =>
    bistTile (logRetirements (s.onStack (fun k => { k with clusters := tabSet 0 k.clusters p 1 })) [.cluster p]) p 0x0811080B)
    (setBist s1 2 found.clusterFails.length)
  let s3 := found.logicFails.foldl (fun s p => bistTile s p 0x08010E12) (setBist s2 3 found.logicFails.length)
  let s4 := found.marchFails.foldl (fun s p => bistTile s p 0x08050E13) (setBist s3 4 found.marchFails.length)
  let (s5, b) := bistMarch found.sliceFails (setBist s4 5 found.sliceFails.length)
  (s5, a && b)

/-- Spare mapping: the good tiles become active or spare, so that every tile is in one of its three states (R12, R355). -/
def mapTiles (s : State) : State := { s with stack := spareMapping s.stack s.flash.activeCount }

/-- Every slice that has left service has a proxy (R214, R355). -/
def slicesServed (k : Stack) : Bool := k.slices.all (fun e => decide (e.2 ≠ 1 ∨ tabGet 0xFFFF k.proxies e.1 ≠ 0xFFFF))

/-- BUILT_IN_TEST: the retirement log is applied, tests 0 to 5 run, then spare mapping, also on a module that ends unserviceable
(R346, R354, R355). -/
def execBuiltInTest (found : BistFinding) (s : State) : Host.Outcome State Fault Refusal :=
  if s.boot.phase ≠ 4 then .next s
  else
    let logged := s.flash.retirements.foldl applyRetirement { Stack.mapped s.flash.activeCount with spare := [], tileMap := [] }
    let s1 := { s with stack := logged, boot := { s.boot with retired := true, bistReport := [] },
                       prot := { s.prot with spread := loggedChannels s.flash } }
    if found.huskFails then done s (unserviceable (mapTiles (setBist s1 0 1)) 0)
    else
      let (s2, ok) := bistTests s1 found
      if ok && slicesServed s2.stack then
        done s ((mapTiles s2).onBoot (fun b => { b with phase := 5 }))
      else done s (unserviceable (mapTiles s2) 5)

/-- SERVICE_FILL: Hazel writes its reserved range, the doorbell pages and the status mirror (R352). Their words are never read
back before something else is written to them, but by Hazel. -/
def execServiceFill (s : State) : Host.Outcome State Fault Refusal :=
  if s.boot.phase ≠ 5 then .next s else done s (s.onBoot (fun b => { b with phase := 6 }))

/-- A failed channel at start-up: spread, or the second of its stack (R277). -/
def bistChannel (s : State) (c : Nat) : State × Bool :=
  if s.prot.spread.contains c then (s, true)
  else if s.prot.spread.any (fun d => decide (d / 32 = c / 32)) then (raise s 0x08080B04 c, false)
  else (raise (logRetirements (s.onProt (fun p => { p with spread := setAdd p.spread c })) [.channel c]) 0x08080B03 c, true)

/-- Test 6 over the failed channels. -/
def bistChannels : List Nat → State → State × Bool
  | [], s => (s, true)
  | c :: l, s =>
    let (s1, a) := bistChannel s c
    let (s2, b) := bistChannels l s1
    (s2, a && b)

/-- Tests 6 and 7: HBM training and the row pass. -/
def bistHbm (s : State) (found : HbmFinding) : State × Bool :=
  let (s1, ok) := bistChannels found.channelFails (setBist s 6 found.channelFails.length)
  (found.rowFails.foldl (fun s r => s.onProt (fun p => repairRow p r.1 r.2)) (setBist s1 7 found.rowFails.length), ok)

/-- The default entries of the user image in a copy, in order; none when an entry is malformed. -/
def imageDefaults (s : State) (copy : Nat) : Option (List (Nat × Nat × List Byte)) :=
  match imageSections s copy with
  | none => none
  | some l => (l.filter (fun x => x.kind == 1)).foldl (fun a x =>
      match a, defaultEntries (x.body.length + 1) x.body with
      | some r, some e => some (r ++ e)
      | _, _ => none) (some [])

/-- HBM_TRAINING: channels are trained and every row gets a write and read pass; hbm_granule takes the chosen image's value
(R149, R353, R354). -/
def execHbmTraining (found : HbmFinding) (s : State) : Host.Outcome State Fault Refusal :=
  if s.boot.phase ≠ 6 then .next s
  else
    let (s1, ok) := bistHbm s found
    let entries := if s.boot.userRunning < 2 then (imageDefaults s (2 + s.boot.userRunning)).getD [] else []
    let s2 := (entries.filter (fun e => e.1 == 0x300005 && e.2.1 == 0 && e.2.2.length == 1 && inRange 0x300005 (natOfBytes e.2.2))).foldl (fun s e =>
      s.onDict (fun d => { d with values := storeWrite d.values e.1 e.2.1 e.2.2 })) s1
    if ok then done s (s2.onBoot (fun b => { b with phase := 7 })) else done s (unserviceable s2 6)

end Sys2Proof.Machine
end

