-- ==== Sys2Proof/Machine/StagedCheck.lean ====
section
/-! DEFINITION. The checks of a staged configuration at the cut (R333): conditions of single objects, resource claims compared pairwise,
and the conditions of R14, R74, R77, R121 and R125. -/

namespace Sys2Proof.Machine

open Sys2Proof

/-- A failed check: its code and the claimants, each a key and an entry (0xFFFF for the whole object); no second claimant is (0,
0). -/
structure Failure where
  code : Code
  aKey : Nat
  aEntry : Nat
  bKey : Nat
  bEntry : Nat
  deriving DecidableEq, Repr

/-- A failure of one claimant. -/
def failOne (code : Code) (key entry : Nat) : Failure := ⟨code, key, entry, 0, 0⟩

/-- The whole object. -/
def wholeObject : Nat := 0xFFFF

/-! ## Records alone -/

/-- A range that starts at `a` lies in the HBM range. -/
def inHbm (a len : Nat) : Bool := decide (a + len ≤ hbmEnd)

/-- A pinned partition record breaks Table 6.6. -/
def pinnedBad (v : Nat) : Bool :=
  decide (bitsAt v 48 16 ≠ 0 ∨ bitsAt v 78 18 ≠ 0 ∨ bitsAt v 99 29 ≠ 0 ∨ 2 ≤ bitsAt v 97 2) ||
    (bitAt v 96 && decide (bitsAt v 0 48 % 2 ^ 20 ≠ 0 ∨ bitsAt v 64 14 = 0 ∨ 8960 < bitsAt v 64 14 ∨
      0x230000000 < bitsAt v 0 48 + bitsAt v 64 14 * 2 ^ 20))

/-- A user hint entry breaks Table 6.7. -/
def hintBad (v : Nat) : Bool :=
  decide (bitsAt v 48 16 ≠ 0 ∨ bitsAt v 105 23 ≠ 0) ||
    (bitAt v 104 && (decide (bitsAt v 0 48 % 64 ≠ 0 ∨ bitsAt v 64 40 % 64 ≠ 0 ∨ bitsAt v 64 40 = 0) || !inHbm (bitsAt v 0 48) (bitsAt v 64 40)))

/-- A detect region record breaks Table 8.3. -/
def detectBad (v : Nat) : Bool :=
  decide (bitsAt v 48 16 ≠ 0 ∨ bitsAt v 105 23 ≠ 0) ||
    (bitAt v 104 && (decide (bitsAt v 0 48 % 4096 ≠ 0 ∨ bitsAt v 64 40 % 4096 ≠ 0 ∨ bitsAt v 64 40 = 0) || !inHbm (bitsAt v 0 48) (bitsAt v 64 40)))

/-- A table region record breaks Table 7.3. -/
def regionBad (v : Nat) : Bool :=
  let r := tableRegionOf v
  decide (bitsAt v 48 16 ≠ 0 ∨ bitsAt v 78 18 ≠ 0 ∨ bitsAt v 137 7 ≠ 0 ∨ bitsAt v 168 88 ≠ 0) ||
    (r.valid && (decide (r.base % 64 ≠ 0 ∨ r.rowBytes % 32 ≠ 0 ∨ r.rowBytes < 32 ∨ 8192 < r.rowBytes ∨ r.rows = 0 ∨ r.shards = 0 ∨ 64 < r.shards ∨
      r.shards ≤ r.shard) || !inHbmOrPinned r.base (r.rows * r.rowBytes)))

/-- The table region `r` of a store of values. -/
def regionIn (t : Tab Byte) (r : Nat) : TableRegion := tableRegionOf (storeNat t 0x380101 (32 * r) 32)

/-- The binding `b` of a store of values. -/
def bindingIn (t : Tab Byte) (b : Nat) : Binding := bindingRecord (storeNat t 0x380102 (64 * b) 64)

/-- A binding record breaks Table 7.4, or its region does not match its group (R185). -/
def bindingBad (t : Tab Byte) (n v : Nat) : Bool :=
  let b := bindingRecord v
  let r := regionIn t b.region
  let g := groupIn t b.group
  decide (bitsAt v 20 44 ≠ 0 ∨ bitsAt v 112 16 ≠ 0 ∨ bitsAt v 240 16 ≠ 0 ∨ bitsAt v 304 208 ≠ 0) ||
    (b.valid && (decide (b.group < 4096 ∨ 4128 ≤ b.group ∨ g.valid = false ∨ r.valid = false ∨ r.bound = false ∨ r.binding ≠ n ∨
        b.partialBase % 64 ≠ 0 ∨ b.inboundBase % 64 ≠ 0 ∨ b.listBase % 64 ≠ 0 ∨ b.partialRows = 0 ∨ 4194304 < b.partialRows ∨
        4194304 < b.inboundRows ∨ r.base ≠ g.slot0 ∨ r.rowBytes ≠ 2 * g.rowLen ∨ r.rows ≠ g.elements)
      || !inHbm b.partialBase (4 * g.rowLen * b.partialRows) || !inHbm b.inboundBase (b.inboundRows * inboundBytes g.rowLen)
      || !inHbm b.listBase (4 * g.stageRows)))

/-- A binary64 value is finite. -/
def finite64 (v : Nat) : Bool := (decodeNum 8 v).finite

/-- x < y for binary64 values. -/
def below64 (x y : Nat) : Bool := (decodeNum 8 y).gt (decodeNum 8 x)

/-- binary64 of 1. -/
def one64 : Nat := 0x3FF0000000000000

/-- A beta lies from 0 to below 1. -/
def betaOk (v : Nat) : Bool := finite64 v && below64 v one64 && !below64 v 0

/-- A reserved field of a group record is set (Table 5.1). -/
def groupReserved (v : Nat) : Bool :=
  [(112, 16), (176, 16), (240, 16), (304, 16), (373, 11), (432, 16), (466, 46), (928, 96)].any (fun f => decide (bitsAt v f.1 f.2 ≠ 0))

/-- A group record breaks a range or condition of Table 5.1 (R120). -/
def groupBad (t : Tab Byte) (n v : Nat) : Bool :=
  let g := groupOf v
  let sweep := decide (4096 ≤ n)
  let coefs := [g.lr, g.beta1, g.beta2, g.eps, g.decay]
  groupReserved v || (g.valid && (
    decide (g.number ≠ n ∨ g.slot0 % 64 ≠ 0 ∨ g.base2 % 64 ≠ 0 ∨ g.rbuf % 64 ≠ 0 ∨ g.coef % 64 ≠ 0 ∨ g.elements = 0 ∨ g.tileCount = 0 ∨
      384 < g.tileCount ∨ storeNat t 0x400004 0 2 < g.tileFirst + g.tileCount) ||
    (if sweep then decide (g.rowLen = 0 ∨ 4096 < g.rowLen ∨ g.stageRows = 0 ∨ 2 ^ 32 ≤ g.elements)
     else decide (g.rowLen ≠ 0 ∨ g.stageRows ≠ 0 ∨ g.globalNorm = true ∨ 0xFFFFFFFF < g.stride) || !inHbm g.base2 g.planeBytes) ||
    !inHbm g.slot0 g.planeBytes || !inHbm g.rbuf g.rbufBytes || !inHbm g.coef 128 ||
    coefs.any (fun c => !finite64 c) || !betaOk g.beta1 || !betaOk g.beta2 || !below64 0 g.eps ||
    (match decodeNum 8 g.bound with
     | .nan => true
     | x => (FNum.fin false 0 0).gt x)))

/-- snapshot_target names a valid egress target. -/
def targetValid (s : State) (t : Tab Byte) : Bool :=
  let n := storeNat t 0x600004 0 1
  decide (n < 64) && (targetNow s n).valid

/-- save_method of a group is not allowed (R280). -/
def saveBad (s : State) (t : Tab Byte) (g : Group) : Bool :=
  match saveMethodIn t g with
  | 0 => !(g.replicated && decide (g.number < 4096))
  | _ => !(targetValid s t && hasBuddy s)

/-- A base and a size in MiB, as fabric areas and stores give them. -/
def areaOf (v : Nat) : Nat × Nat := (bitsAt v 0 48, bitsAt v 64 32 * 2 ^ 20)

/-- A store or area with base and size is misaligned, leaves the HBM range or sets a reserved bit. -/
def areaBad (v : Nat) : Bool :=
  let (a, len) := areaOf v
  decide (bitsAt v 48 16 ≠ 0 ∨ bitsAt v 96 32 ≠ 0 ∨ a % 2 ^ 20 ≠ 0) || !inHbm a len

/-- Bytes that the deferral store must hold under policy 1 (R245). -/
def deferralNeed (t : Tab Byte) : Nat :=
  let dense := ((validGroups t).filter (fun g => decide (g.number < 4096))).foldl (fun a g => a + 4 * g.elements) 0
  (List.range 32).foldl (fun a b =>
    let x := bindingIn t b
    if x.valid then a + x.partialRows * inboundBytes (groupIn t x.group).rowLen else a) dense

/-- Bytes of the value planes of a group (R280, Table 11.8). -/
def Group.planeLen (g : Group) : Nat := 2 * g.elements * (if 4096 ≤ g.number then g.rowLen else 1)

/-- Bytes that a record takes in an Acorn area: header, payload rounded up to 64 bytes (Table 11.6). -/
def recordRoom (payload : Nat) : Nat := 64 + (payload + 63) / 64 * 64

/-- The room that one client needs (R282): two generations of the mirror-method groups that its slot image names, the image, and
the REDO records held for it (assumption 73). -/
def needOf (l : List Saved) : Nat :=
  let redo := (l.filter (fun r => decide (r.kind = 3 ∨ r.kind = 4))).foldl (fun a r => a + recordRoom r.payload.length) 0
  match l.find? (fun r => r.kind == 7) with
  | none => redo
  | some image =>
    let t := imageStore image.payload
    let gens := ((validGroups t).filter (fun g => saveMethodIn t g == 1)).foldl (fun a g => a + 2 * recordRoom (6 * g.planeLen)) 0
    gens + recordRoom image.payload.length + redo

/-- The sum of the clients' needs (R282). -/
def clientNeed (s : State) : Nat :=
  s.resil.clients.foldl (fun a n => a + needOf (s.resil.mirrored.filter (fun r => decide (r.node = n)))) 0

/-- A recipe object names a format that profile F does not allow (R78). -/
def recipeBad (t : Tab Byte) (key : Nat) : Bool :=
  decide (storeNat t 0x480001 0 1 = 0) && !profileAllows 0 (storeNat t key 0 1 % 16)

/-- The slot table is zero, misaligned or outside the HBM range while a dense group is valid (R132). -/
def slotTableBad (t : Tab Byte) : Bool :=
  let a := storeNat t 0x481005 0 8
  (validGroups t).any (fun g => decide (g.number < 4096)) && (decide (a = 0 ∨ a % 64 ≠ 0) || !inHbm a 65536)

/-- Failures of the elements of an object. -/
def elemFailures (t : Tab Byte) (key size : Nat) (code : Code) (bad : Nat → Nat → Bool) : List Failure :=
  ((listedElems t key).filter (fun i => bad i (storeNat t key (i * size) size))).map (failOne code key)

/-- A failure of an object as a whole. -/
def objectFailure (bad : Bool) (code : Code) (key : Nat) : List Failure := if bad then [failOne code key wholeObject] else []

/-- Failed conditions of single objects, ascending by object, then entry (R333, 1). -/
def objectFailures (s : State) (t : Tab Byte) : List Failure :=
  elemFailures t 0x300101 16 0x01100601 (fun _ v => pinnedBad v) ++
  elemFailures t 0x300202 16 0x01100603 (fun _ v => hintBad v) ++
  elemFailures t 0x300501 16 0x01100801 (fun _ v => detectBad v) ++
  elemFailures t 0x380101 32 0x01100701 (fun _ v => regionBad v) ++
  elemFailures t 0x380102 64 0x01100702 (bindingBad t) ++
  objectFailure (decide (4194304 < (List.range 32).foldl (fun a b => if (bindingIn t b).valid then a + (bindingIn t b).partialRows else a) 0))
    0x01100704 0x380102 ++
  ([0x480201, 0x480202, 0x480203].flatMap (fun k =>
    if recipeOk k (storeNat t k 0 1) then objectFailure (recipeBad t k) 0x01100404 k else [failOne 0x01000001 k wholeObject])) ++
  objectFailure (slotTableBad t) 0x01100506 0x481005 ++
  elemFailures t 0x481201 128 0x01100503 (groupBad t) ++
  elemFailures t 0x481202 128 0x01100503 (fun i => groupBad t (4096 + i)) ++
  objectFailure (decide (storeNat t 0x500304 0 8 % 2 ^ 20 ≠ 0) || !inHbm (storeNat t 0x500304 0 8) (512 * 2 ^ 20)) 0x01100905 0x500304 ++
  objectFailure (areaBad (storeNat t 0x500305 0 16)) 0x01100905 0x500305 ++
  objectFailure (decide (storeNat t 0x500301 0 1 = 1 ∧ (areaOf (storeNat t 0x500305 0 16)).2 < deferralNeed t)) 0x01100906 0x500305 ++
  objectFailure (areaBad (storeNat t 0x600002 0 16) || decide ((areaOf (storeNat t 0x600002 0 16)).2 < clientNeed s)) 0x01100B02 0x600002 ++
  objectFailure (decide (storeNat t 0x600004 0 1 ≠ 0xFF) && !targetValid s t) 0x01100B05 0x600004 ++
  ((validGroups t).filter (saveBad s t)).map (fun g => failOne 0x01100B01 0x600101 g.number)

/-! ## Resource claims (R333, 2) -/

/-- What a claim claims. -/
inductive ClaimKind where
  | pinned
  | detect
  | table
  | binding
  | slotTable
  | rbuf
  | footprint
  | stage
  | coef
  | fabric
  | deferral
  | ring
  | acorn
  deriving DecidableEq, Repr

/-- A claim of an entry: address and bytes. -/
structure Claim where
  key : Nat
  entry : Nat
  kind : ClaimKind
  base : Nat
  size : Nat
  deriving DecidableEq, Repr

/-- Two claims share an address. -/
def claimsMeet (x y : Claim) : Bool := decide (0 < x.size ∧ 0 < y.size ∧ x.base < y.base + y.size ∧ y.base < x.base + x.size)

/-- The claims of a group record: reduction buffer, slots or table, stage, coefficient area (R120, R198). -/
def groupClaims (key entry : Nat) (g : Group) : List Claim :=
  [⟨key, entry, .rbuf, g.rbuf, g.rbufBytes⟩, ⟨key, entry, .footprint, g.slot0, g.planeBytes⟩,
   (if 4096 ≤ g.number then ⟨key, entry, .stage, g.base2, g.stageRows * g.slotBytes⟩ else ⟨key, entry, .footprint, g.base2, g.planeBytes⟩),
   ⟨key, entry, .coef, g.coef, 128⟩]

/-- The claims of a configuration with the rings in force, ascending by object and entry. -/
def claimsOf (s : State) (t : Tab Byte) : List Claim :=
  (pinnedIn t).map (fun e => ⟨0x300101, e.1, .pinned, pinnedBase + e.2.start, e.2.bytes⟩) ++
  ((listedElems t 0x300501).filterMap (fun i =>
    let v := storeNat t 0x300501 (16 * i) 16
    if bitAt v 104 then some (⟨0x300501, i, .detect, bitsAt v 0 48, bitsAt v 64 40⟩ : Claim) else none)) ++
  ((listedElems t 0x380101).filterMap (fun i =>
    let r := regionIn t i
    if r.valid then some (⟨0x380101, i, .table, r.base, r.rows * r.rowBytes⟩ : Claim) else none)) ++
  ((listedElems t 0x380102).flatMap (fun i =>
    let b := bindingIn t i
    let g := groupIn t b.group
    if b.valid then
      [(⟨0x380102, i, .binding, b.partialBase, 4 * g.rowLen * b.partialRows⟩ : Claim),
       ⟨0x380102, i, .binding, b.inboundBase, b.inboundRows * inboundBytes g.rowLen⟩, ⟨0x380102, i, .binding, b.listBase, 4 * g.stageRows⟩]
    else [])) ++
  (if (validGroups t).any (fun g => decide (g.number < 4096)) then
    [(⟨0x481005, wholeObject, .slotTable, storeNat t 0x481005 0 8, 65536⟩ : Claim)] else []) ++
  ((listedElems t 0x481201).flatMap (fun i => if (groupIn t i).valid then groupClaims 0x481201 i (groupIn t i) else [])) ++
  ((listedElems t 0x481202).flatMap (fun i => if (groupIn t (4096 + i)).valid then groupClaims 0x481202 i (groupIn t (4096 + i)) else [])) ++
  [(⟨0x500304, wholeObject, .fabric, storeNat t 0x500304 0 8, 512 * 2 ^ 20⟩ : Claim),
   ⟨0x500305, wholeObject, .deferral, (areaOf (storeNat t 0x500305 0 16)).1, (areaOf (storeNat t 0x500305 0 16)).2⟩] ++
  ((listedElems s.dict.values 0x581001).flatMap (fun q =>
    let r := queueRecord s q
    if r.zero then []
    else [(⟨0x581001, q, .ring, r.ring, 128 * r.size⟩ : Claim), ⟨0x581001, q, .ring, r.cq, 32 * r.size⟩])) ++
  [(⟨0x600002, wholeObject, .acorn, (areaOf (storeNat t 0x600002 0 16)).1, (areaOf (storeNat t 0x600002 0 16)).2⟩ : Claim)]

/-- The claims that R233 lists: footprints of R120 and R185, table regions, detect regions, the slot table, the deferral store. -/
def listedClaim (k : ClaimKind) : Bool :=
  match k with
  | .detect => true
  | .table => true
  | .binding => true
  | .slotTable => true
  | .rbuf => true
  | .footprint => true
  | .stage => true
  | .deferral => true
  | _ => false

/-- A footprint of R120. -/
def groupClaim (k : ClaimKind) : Bool := decide (k = .rbuf ∨ k = .footprint ∨ k = .stage)

/-- The code with which two overlapping claims of different entries are refused, if their rule forbids it. -/
def pairCode (x y : ClaimKind) : Option Code :=
  let either := fun (a : ClaimKind) (f : ClaimKind → Bool) => (decide (x = a) && f y) || (decide (y = a) && f x)
  if x = .pinned ∧ y = .pinned then some 0x01100602
  else if either .detect (fun k => groupClaim k || decide (k = .binding ∨ k = .coef ∨ k = .slotTable ∨ k = .table)) then some 0x01100802
  else if x = .rbuf ∧ y = .rbuf then some 0x01100501
  else if groupClaim x && groupClaim y then some 0x01100502
  else if either .binding (fun k => groupClaim k || decide (k = .binding)) then some 0x01100703
  else if either .fabric listedClaim || either .deferral (fun k => listedClaim k || decide (k = .fabric)) then some 0x01100905
  else if either .ring (fun k => groupClaim k || decide (k = .ring ∨ k = .binding ∨ k = .fabric ∨ k = .detect)) then some 0x01100A05
  else if either .acorn (fun k => listedClaim k || decide (k = .fabric)) then some 0x01100B02
  else none

/-- The failure of two claims, if they meet against a rule; areas of one entry are compared only where R120 does. -/
def claimPair (x y : Claim) : Option Failure :=
  let same := decide (x.key = y.key ∧ x.entry = y.entry)
  if claimsMeet x y && (!same || (groupClaim x.kind && groupClaim y.kind) || decide (x.kind = .ring ∧ y.kind = .ring)) then
    (pairCode x.kind y.kind).map (fun c => ⟨c, x.key, x.entry, y.key, y.entry⟩)
  else none

/-- The partition that holds a stage, if it lies wholly in a Correct one (R120). -/
def stagePartition (t : Tab Byte) (c : Claim) : Option Nat :=
  ((pinnedIn t).find? (fun e => decide (e.2.attr = 0 ∧ pinnedBase + e.2.start ≤ c.base ∧
    c.base + c.size ≤ pinnedBase + e.2.start + e.2.bytes))).map (fun e => e.1)

/-- The failures of one claim against those after it; a stage also against partitions and other stages. -/
def claimFailures (t : Tab Byte) (x : Claim) (rest : List Claim) : List Failure :=
  let part := if x.kind = .stage then stagePartition t x else none
  let outside := if x.kind = .stage ∧ part = none then [failOne 0x01100502 x.key x.entry] else []
  outside ++ rest.filterMap (fun y =>
    match claimPair x y with
    | some f => some f
    | none => if x.kind = .stage ∧ y.kind = .stage ∧ part.isSome = true ∧ stagePartition t y = part then
        some ⟨0x01100502, x.key, x.entry, y.key, y.entry⟩ else none)

/-- The failures of a list of claims, in the order of the first claimant, then of the second. -/
def allClaimFailures (t : Tab Byte) : List Claim → List Failure
  | [] => []
  | x :: l => claimFailures t x l ++ allClaimFailures t l

/-! ## The conditions of R333, 3 -/

/-- Regions under class 2 and class 3 hints, each rounded outward to 2 MiB pages, in KiB (R160). -/
def hintedKiB (t : Tab Byte) : Nat :=
  (standingRegions t ++ userHints t).foldl (fun a r =>
    if r.2 = 0 then a else a + ((r.1 + r.2 - 1) / 2097152 - r.1 / 2097152 + 1) * 2048) 0

/-- The residency capacity of a configuration (R160). -/
def residencyIn (s : State) (t : Tab Byte) : Nat := (cacheCapacity s - pinnedKiB t) * storeNat t 0x300201 0 1 * 3 / 64

/-- Put a group block into the list of groups, ascending by number. -/
def insertGroup (g : CommGroup) : List CommGroup → List CommGroup
  | [] => [g]
  | h :: l => if g.number < h.number then g :: h :: l else h :: insertGroup g l

/-- The groups after the blocks of epoch records. -/
def groupsAfter (l : List CommGroup) (blocks : List GroupBlock) : List CommGroup :=
  blocks.foldl (fun l b =>
    let rest := l.filter (fun g => decide (g.number ≠ b.number))
    match b.members with
    | none => rest
    | some m => insertGroup ⟨b.number, b.root, m⟩ rest) l

/-- The lowest generation among the members of a list of groups. -/
def lowestGeneration (l : List CommGroup) : Nat := l.foldl (fun a g => g.members.foldl (fun b m => min b m.generation) a) 2

/-- The carrier of a configuration is a valid, replicated dense group. -/
def carrierOk (t : Tab Byte) : Bool :=
  match carrierIn t with
  | some c => decide (c < 4096) && (groupIn t c).valid && (groupIn t c).replicated
  | none => false

/-- Failures of R14, R74, R77, R121 and R125, with the communication groups that the epoch records of the boundary leave (R334). -/
def finalFailures (s : State) (groups : List CommGroup) (t : Tab Byte) : List Failure :=
  objectFailure (decide (s.stack.tileMap.length < storeNat t 0x400004 0 2 ∨ storeNat t 0x400004 0 2 = 0)) 0x01000001 0x400004 ++
  objectFailure (decide (storeNat t 0x480105 0 1 < storeNat t 0x480104 0 1)) 0x01100403 0x480104 ++
  objectFailure (decide (lowestGeneration groups < storeNat t 0x480001 0 1)) 0x01100401 0x480001 ++
  objectFailure (decide (validGroups t ≠ []) && !carrierOk t) 0x01100504 0x481001 ++
  objectFailure (decide (residencyIn s t < hintedKiB t)) 0x01100505 0x481203

/-- Every failure of a staged configuration, in the order of R333. -/
def stagedFailures (s : State) (groups : List CommGroup) (t : Tab Byte) : List Failure :=
  objectFailures s t ++ allClaimFailures t (claimsOf s t) ++ finalFailures s groups t

/-- A refusal: its code raised, the refusal record written, further failures counted (Table 13.7). -/
def noteRefusal (s : State) (f : Failure) (more : Nat) : State :=
  let s1 := raise s f.code 0
  s1.onDict (fun d => { d with
    refusal := ⟨f.code, currentStep s, f.aKey, f.aEntry, f.bKey, f.bEntry⟩
    refusalCount := d.refusalCount + 1 + more })

end Sys2Proof.Machine
end

