-- ==== Sys2Proof/Machine/Transcend.lean ====
section
/-! DEFINITION. The bound of R59 on the transcendental functions under profile H: the two binary32 values on either side of the exact
value, of which the unit gives one (assumption 4). The exact value is carried to some 2^−120 of itself, in integers scaled by 2^320. -/

namespace Sys2Proof.Machine

open Sys2Proof

/-- Bits after the point of the scaled integers. -/
def pointBits : Nat := 320

/-- ln 2, scaled by 2^320. -/
def scaledLn2 : Int := 0xb17217f7d1cf79abc9e3b39803f2f6af40f343267298b62d8a0d175b8baafa2be7b876206debac98

/-- π/2, scaled by 2^480. -/
def scaledHalfPi : Int :=
  0x1921fb54442d18469898cc51701b839a252049c1114cf98e804177d4c76273644a29410f31c6809bbdf2a33679a748636605614dbe4be286e9fc26ada

/-- m × 2^e scaled by 2^bits, towards −∞. -/
def scaleUp (bits : Nat) (i : Int) (e : Int) : Int :=
  if 0 ≤ e + bits then i * 2 ^ (e + bits).toNat else i / 2 ^ (-(e + bits)).toNat

/-- A scaled integer as a number. -/
def scaledNum (i : Int) : FNum := .fin (decide (i < 0)) i.natAbs (-(pointBits : Int))

/-- The product of two scaled integers. -/
def scaledMul (a b : Int) : Int := a * b / 2 ^ pointBits

/-- 1 + z/c₁ (1 + z/c₂ (1 + …)) for a list of divisors: the series of the functions below. -/
def series (z : Int) (l : List Int) : Int := l.foldr (fun c acc => 2 ^ pointBits + scaledMul z acc / c) (2 ^ pointBits)

/-- e to the power of a scaled number, n ln 2 taken out of it. -/
def expOf (x : Int) : FNum :=
  let n := (2 * x + scaledLn2) / (2 * scaledLn2)
  (scaledNum (series (x - n * scaledLn2) ((List.range 60).map (fun k => (k : Int) + 1)))).scale n

/-- The series of the inverse hyperbolic tangent, divided by its argument: Σ z²ʲ ÷ (2j + 1). -/
def atanhSeries (z : Int) : Int :=
  (List.range 72).foldr (fun j acc => 2 ^ pointBits / (2 * (j : Int) + 1) + scaledMul (scaledMul z z) acc) 0

/-- ln (m × 2^e) of a positive number: u between 3/4 and 3/2 taken out of it. -/
def logOf (m : Nat) (e : Int) : FNum :=
  let b := bitLen m
  let u := scaleUp pointBits m (1 - (b : Int))
  let high := decide (3 * 2 ^ pointBits ≤ 2 * u)
  let v := if high then u / 2 else u
  let k := e + (b : Int) - 1 + (if high then 1 else 0)
  let z := (v - 2 ^ pointBits) * 2 ^ pointBits / (v + 2 ^ pointBits)
  scaledNum (k * scaledLn2 + 2 * scaledMul z (atanhSeries z))

/-- sin and cos of m × 2^e: q quarter turns taken out of it. -/
def sinCosOf (i : Int) (e : Int) : FNum × FNum :=
  let x := scaleUp 480 i e
  let q := (2 * x + scaledHalfPi) / (2 * scaledHalfPi)
  let r := (x - q * scaledHalfPi) / 2 ^ 160
  let z := -(scaledMul r r)
  let s := scaledMul r (series z ((List.range 30).map (fun k => (2 * (k : Int) + 2) * (2 * k + 3))))
  let c := series z ((List.range 30).map (fun k => (2 * (k : Int) + 1) * (2 * k + 2)))
  match (q % 4).toNat with
  | 0 => (scaledNum s, scaledNum c)
  | 1 => (scaledNum c, scaledNum (-s))
  | 2 => (scaledNum (-s), scaledNum (-c))
  | _ => (scaledNum (-c), scaledNum s)

/-- One. -/
def FNum.one : FNum := .fin false 1 0

/-- 1 − 2^(−150): a value that comes as near to 1 as no format tells from it. -/
def FNum.nearOne : FNum := .fin false (2 ^ 150 - 1) (-150)

/-- An argument so small that the first terms of a series give its function (`x` itself, or with the next term, as far as a
direction asks). -/
def smallValue (vop : Nat) (x : FNum) : FNum :=
  let cube := (x.mul x).mul x
  match vop with
  | 0x0A => FNum.one.add x
  | 0x0C => x.sub (cube.div (.fin false 3 0))
  | 0x0D => (FNum.fin false 1 (-1)).add (x.scale (-2))
  | 0x0E => x.sub (cube.div (.fin false 6 0))
  | _ => FNum.one.sub ((x.mul x).scale (-1))

/-- An argument so large that exp, tanh and logistic are at their ends. -/
def largeValue (vop : Nat) (neg : Bool) : FNum :=
  let far := FNum.fin false 1 (if neg then -5000 else 5000)
  match vop with
  | 0x0A => far
  | 0x0C => if neg then FNum.nearOne.neg else FNum.nearOne
  | _ => if neg then far else FNum.nearOne

/-- The exact value of a transcendental function at a finite operand, as nearly as its place between two binary32 values asks;
none where it has no finite value (Table 4.14, R59). -/
def transcendentalValue (vop : Nat) (neg : Bool) (m : Nat) (e : Int) : Option FNum :=
  let i : Int := if neg then -(m : Int) else m
  let x := FNum.fin neg m e
  let top := (bitLen m : Int) + e
  if vop = 0x09 then (if m = 0 ∨ neg = true then none else some (FNum.one.div x.sqrt))
  else if vop = 0x0B then (if m = 0 ∨ neg = true then none else some (logOf m e))
  else if m = 0 ∨ top < -40 then some (smallValue vop x)
  else if vop = 0x0E then some (sinCosOf i e).1
  else if vop = 0x0F then some (sinCosOf i e).2
  else if 12 < top then some (largeValue vop neg)
  else
    let a := scaleUp pointBits i e
    match vop with
    | 0x0A => some (expOf a)
    | 0x0C =>
      let t := expOf (2 * (if neg then -a else a))
      let y := (t.sub FNum.one).div (t.add FNum.one)
      some (if neg then y.neg else y)
    | _ =>
      let t := expOf (if neg then a else -a)
      some ((if neg then t else FNum.one).div (FNum.one.add t))

/-- The binary32 value next above, or next below, a finite one. -/
def nextBits (up : Bool) (v : Nat) : Nat :=
  let neg := decide (2 ^ 31 ≤ v)
  if v % 2 ^ 31 = 0 then (if up then 1 else 2 ^ 31 + 1)
  else if up = neg then v - 1 else v + 1

/-- The two binary32 values on either side of an exact value, the nearer one unless the unit takes the other; both lie within one
unit in the last place of it. A value that rounds to an infinity, and one that is itself binary32, leave no choice. -/
def besideValue (a : FNum) (other : Bool) : Nat :=
  let v := encodeNum 7 a
  let n := decodeNum 7 v
  if other = false ∨ n.finite = false then v
  else if a.gt n then nextBits true v
  else if n.gt a then nextBits false v
  else v

/-- The result bits of a transcendental function in a working format: under profile H in binary32 one of the two values that R59
leaves, of which the unit's choice is free; elsewhere, and where no exact value is finite, free bits (assumption 4). -/
def transcendentalBits (profile vop wf : Nat) (x : FNum) : Nat :=
  let free := Config.transcendental profile vop (wf == 8) (BitVec.ofNat 64 (encodeNum wf x))
  match x with
  | .fin neg m e =>
    if profile = 2 ∧ wf = 7 then
      match transcendentalValue vop neg m e with
      | some a => besideValue a (free.getLsbD 0)
      | none => free.toNat
    else free.toNat
  | _ => free.toNat

end Sys2Proof.Machine
end

