-- ==== Sys2Proof/Machine/Vector.lean ====
section
/-! DEFINITION. The vector engine (R103 to R113): checks of a VECTOR descriptor, operand reads, every operation of Table 4.14, poison,
non-finite checks, and one meaning per vector row. -/

namespace Sys2Proof.Machine

open Sys2Proof

/-! ## The step context and elements -/

/-- The step context of R85. -/
structure Context where
  step : Nat
  k : Nat
  profile : Nat
  mode : Nat
  seed : BitVec 64
  srMode : Nat
  deriving DecidableEq, Repr

/-- The step context in force for a tile's program. -/
def contextOf (s : State) (n : Nat) : Context where
  step := match (tileOf s n).program with
    | some p => p.step
    | none => currentStep s
  k := s.train.history.scaleExp
  profile := cfg s 0x480001
  mode := modeInForce s
  seed := BitVec.ofNat 64 (cfg s 0x480004)
  srMode := cfg s 0x480005

/-- Roundings of the sites of Table 3.4 are stochastic (R65). -/
def Context.stochastic (x : Context) : Bool := x.profile == 2 && x.srMode == 0

/-- Read a 4-byte element of a bank: its bits, and whether its word, row or column is poisoned (R113). -/
def readBankElem (n block bank off : Nat) (s : State) : Got (Nat × Bool) × State :=
  let mask := bitAt (tabGet 0 s.rowMasks (2 * n + bank)) (off / 512) || bitAt (tabGet 0 s.colMasks (2 * n + bank)) (off % 512 / 4)
  let half := fun (d : Word64) => if off % 8 = 0 then d.toNat % 2 ^ 32 else d.toNat / 2 ^ 32
  match readBankWord s (bankAt n bank off / 8) with
  | (.good d, s1) => (.ok (half d, mask), s1)
  | (.poison d, s1) => (.ok (half d, true), s1)
  | (_, s1) => (.fault (codeOf 2 block 0x0801), s1)

/-- Read an element of a tensor: its bits and poison. -/
def readElem (n block : Nat) (x : Tensor) (c : List Nat) (s : State) : Got (Nat × Bool) × State :=
  let i := clipCoord x.ext c
  if x.acc then readBankElem n block x.bank (x.at i) s
  else
    Got.andThen (readFor (.pip n) block (x.at i) (elemBytes x.fmt) s) (fun b s1 =>
      (.ok (if x.fmt = 1 then b.nat / 16 ^ (i.headD 0 % 2) % 16 else b.nat, b.poisoned), s1))

/-- What a descriptor's work writes: bytes of memory, bank elements by place div 4, and whether a checked value was non-finite. -/
structure Outs where
  mem : Bundle
  bank : Tab (Nat × Bool)
  nonfinite : Bool
  deriving DecidableEq, Repr

/-- Nothing to write. -/
def Outs.none : Outs := ⟨[], [], false⟩

/-- Put the bits of an element. -/
def Outs.put (o : Outs) (n : Nat) (x : Tensor) (c : List Nat) (bits : Nat) (poison : Bool) : Outs :=
  if x.acc then { o with bank := tabInsert o.bank (bankAt n x.bank (x.at c) / 4) (bits, poison) }
  else { o with mem := bundlePut o.mem (x.at c) (bytesOfNat (elemBytes x.fmt) bits) poison }

/-- Write what a descriptor's work gives; a non-finite value that was checked sets the tile's flag (R112). -/
def writeOuts (n block : Nat) (o : Outs) (s : State) : Got Unit × State :=
  Got.andThen (writeFor (.pip n) block o.mem s) (fun _ s1 =>
    let (s2, bad) := writeBankElems s1 o.bank
    let s3 := if o.nonfinite then onTile s2 n (fun t => { t with nonfinite := true }) else s2
    if bad then (.fault (codeOf 2 block 0x0801), s3) else (.ok (), s3))

/-- Forget the elements of a tensor that the engine may write: the destination of a descriptor that faulted (R115). -/
def forgetTensor (n : Nat) (x : Tensor) (s : State) : State :=
  (coords x.ext).foldl (fun s c =>
    let a := x.at c
    if x.acc then
      let p := bankAt n x.bank a
      { s with banks := forget s.banks p (p + 4) }
    else if accessDetail s (.pip n) true a (elemBytes x.fmt) = none then { s with mem := forget s.mem a (a + elemBytes x.fmt) }
    else s) s

/-! ## VECTOR descriptors (Table 4.11) -/

/-- A VECTOR with its tensors; an operand that the operation does not take stands as `absentTensor`. -/
structure Vec where
  vop : Nat
  wide : Bool
  nf : Bool
  imm0 : Nat
  imm1 : Nat
  imm2 : Nat
  dst : Tensor
  src0 : Tensor
  src1 : Tensor
  src2 : Tensor
  aux : Tensor
  deriving DecidableEq, Repr

/-- A tensor that is not there. -/
def absentTensor : Tensor := ⟨0, 0, false, 0, [1, 1, 1, 1, 1], [0, 0, 0, 0, 0]⟩

/-- How many of src0 to src2 an operation takes. -/
def vopSources (v : Nat) : Nat :=
  if v = 0x02 then 0
  else if [0x03, 0x04, 0x05, 0x07, 0x10, 0x11, 0x13, 0x18].contains v then 2
  else if [0x06, 0x14, 0x40].contains v then 3
  else 1

/-- An operation takes the auxiliary descriptor. -/
def vopAux (v : Nat) : Bool := [0x18, 0x30, 0x31].contains v

/-- A reduction. -/
def vopReduces (v : Nat) : Bool := decide (0x20 ≤ v ∧ v ≤ 0x23)

/-- Handshake cycles per vector (Table 4.14). -/
def vopCycles (v : Nat) (wideMode : Bool) : Nat :=
  if v = 0x40 then (if wideMode then 44 else 12)
  else if [0x07, 0x08, 0x0E, 0x0F, 0x22].contains v then 4
  else if [0x0C, 0x0D].contains v then 3
  else if [0x09, 0x0A, 0x0B, 0x30].contains v then 2
  else 1

/-- The source tensors that a VECTOR reads as data (UPDATE's src1 is its coefficient block). -/
def Vec.sources (v : Vec) : List Tensor :=
  if v.vop = 0x40 then [v.src0, v.src2] else [v.src0, v.src1, v.src2].take (vopSources v.vop)

/-- The tensor of the scales of an MX operand (R111). -/
def scaleTensor (aux elems : Tensor) : Tensor :=
  { aux with fmt := 4, ext := ((elems.extent 0 + 31) / 32) :: elems.ext.drop 1, stride := 1 :: aux.stride.drop 1 }

/-- Plane `p` of a tensor (R109). -/
def planeOf (x : Tensor) (imm0 p : Nat) : Tensor := { x with addr := (x.addr + p * imm0) % 2 ^ 64 }

/-- Bytes from the first plane to the last (R109). -/
def Vec.planeBytes (v : Vec) : Nat := if v.vop = 0x40 then 5 * v.imm0 else 0

/-- The destination tensors with the bytes beyond their spans. -/
def Vec.dests (v : Vec) : List (Tensor × Nat) :=
  (v.dst, v.planeBytes) :: (if v.vop = 0x30 then [(scaleTensor v.aux v.dst, 0)] else [])

/-- The coefficient block as a tensor of 72 bytes. -/
def coefTensor (x : Tensor) : Tensor := { x with ext := [9, 1, 1, 1, 1], stride := [8, 0, 0, 0, 0] }

/-- The source tensors with the bytes beyond their spans. -/
def Vec.origins (v : Vec) : List (Tensor × Nat) :=
  if v.vop = 0x40 then [(v.src0, 0), (coefTensor v.src1, 0), (v.src2, v.planeBytes)]
  else v.sources.map (fun x => (x, 0)) ++ (if v.vop = 0x31 then [(scaleTensor v.aux v.src0, 0)] else [])

/-- A source's extents equal the destination's or are 1 (R105). -/
def repeatsInto (dst x : Tensor) : Bool := (List.zipWith (fun d e => decide (e = d ∨ e = 1)) dst.ext x.ext).all id

/-- Two operands touch the same bytes somewhere. -/
def touch (a b : Tensor × Nat) : Bool :=
  decide (a.1.acc = b.1.acc ∧ (a.1.acc = true → a.1.bank = b.1.bank) ∧ a.1.span.1 ≤ b.1.span.2 + b.2 ∧ b.1.span.1 ≤ a.1.span.2 + a.2)

/-- A destination overlaps a source without equal footprint (R105). -/
def clash (a b : Tensor × Nat) : Bool :=
  touch a b && decide (¬ (a.1.addr = b.1.addr ∧ a.1.ext = b.1.ext ∧ a.1.stride = b.1.stride ∧ a.2 = b.2))

/-- An overlap within the tile's own tile store or a bank (R105). -/
def clashInside (n : Nat) (a b : Tensor × Nat) : Bool :=
  clash a b && (a.1.acc ||
    (storePart n a.1.span.1 (a.1.span.2 + a.2) true).any (fun x =>
      (storePart n b.1.span.1 (b.1.span.2 + b.2) true).any (fun y => conflict x y)))

/-- The code of a VECTOR whose operands break R104 to R111; none when they are right. Table 4.19 names no code for a reduction
whose destination has the wrong extents (the model gives 0x0401_0109) nor for operand formats that break R109 to R111 (the
model gives 0x0401_0106), and R87 gives no order among the checks (DESIGN CHOICE, assumptions 62 and 63). -/
def checkVector (n : Nat) (v : Vec) : Option Code :=
  let data := v.dst :: v.sources
  let mx := decide (v.vop = 0x30 ∨ v.vop = 0x31)
  if data.any (fun x => fmtReserved x.fmt) then some 0x05030102
  else if mx = false ∧ data.any (fun x => x.fmt == 1) then some (malformed 0x06)
  else if v.vop = 0x18 ∧ (v.dst.fmt ≠ 7 ∨ v.aux.fmt ≠ 0 ∨ v.aux.acc) then some (malformed 0x06)
  else if v.vop = 0x30 ∧ ((v.src0.fmt ≠ 5 ∧ v.src0.fmt ≠ 7) ∨ 3 < v.dst.fmt ∨ v.aux.fmt ≠ 4 ∨ v.aux.acc) then some (malformed 0x06)
  else if v.vop = 0x31 ∧ (3 < v.src0.fmt ∨ v.dst.fmt = 1 ∨ v.aux.fmt ≠ 4 ∨ v.aux.acc) then some (malformed 0x06)
  else if v.vop = 0x40 ∧ (v.src0.fmt ≠ 7 ∨ v.src2.fmt ≠ 5 ∨ v.dst.fmt ≠ 5 ∨ v.src1.fmt ≠ 8 ∨ v.src1.acc) then some (malformed 0x06)
  else if v.vop = 0x40 ∧ v.src1.extent 0 < 9 then some (malformed 0x04)
  else if vopReduces v.vop ∧ (v.dst.extent 0 ≠ 1 ∨ v.dst.ext.drop 1 ≠ v.src0.ext.drop 1) then some (malformed 0x09)
  else if vopReduces v.vop = false ∧ v.sources.any (fun x => !repeatsInto v.dst x) then some (malformed 0x09)
  else if data.any (fun x => !x.aligned) ∨ (v.vop = 0x40 ∧ (v.src1.addr % 8 ≠ 0 ∨ v.imm0 % 2 ≠ 0)) then some (malformed 0x0C)
  else if v.dests.any (fun d => v.origins.any (clashInside n d)) then some (malformed 0x07)
  else none

/-! ## Element-wise results -/

/-- The transcendental functions of R59 by vop. -/
def vopTranscendental (v : Nat) : Bool := decide (0x09 ≤ v ∧ v ≤ 0x0F)

/-- The result of an element-wise operation in the working format (Table 4.14, R59). -/
def elementwise (profile wf vop imm0 imm1 : Nat) (l : List FNum) : FNum :=
  let x := l.getD 0 .nan
  let y := l.getD 1 .nan
  let z := l.getD 2 .nan
  let r := roundNum wf
  if vopTranscendental vop then
    match x with
    | .nan => .nan
    | _ => decodeNum wf (transcendentalBits profile vop wf x)
  else
    match vop with
    | 0x01 => x
    | 0x02 => decodeNum 7 imm0
    | 0x03 => r (x.add y)
    | 0x04 => r (x.sub y)
    | 0x05 => r (x.mul y)
    | 0x06 => r (x.fma y z)
    | 0x07 => r (x.div y)
    | 0x08 => r x.sqrt
    | 0x10 => x.max y
    | 0x11 => x.min y
    | 0x12 => x.abs
    | 0x13 => if x.gt y then .fin false 1 0 else .fin false 0 0
    | 0x14 => if x.isZero then z else y
    | _ => r (x.fma (decodeNum 7 imm0) (decodeNum 7 imm1))

/-- The result of a reduction over its terms (R64, R108). -/
def reduction (wf vop : Nat) (l : List FNum) : FNum :=
  match vop with
  | 0x20 => laneSum wf l
  | 0x21 => laneMax l
  | 0x22 => laneSum 8 (l.map (fun x => roundNum 8 (x.mul x)))
  | _ => laneMax (l.map FNum.abs)

/-- The working format of a VECTOR: RSUMSQ is always binary64 (R107, Table 4.14). -/
def Vec.format (v : Vec) : Nat := if v.wide ∨ v.vop = 0x22 then 8 else 7

/-- A source element in the working format (R107). -/
def readNum (n wf : Nat) (x : Tensor) (c : List Nat) (s : State) : Got (FNum × Bool) × State :=
  Got.andThen (readElem n 3 x c s) (fun e s1 =>
    let v := decodeNum x.fmt e.1
    (.ok (if x.fmt = 8 ∧ wf = 7 then roundNum 7 v else v, e.2), s1))

/-- Put a result: converted to the destination's format (R107), tested under R112 unless poisoned (R113). -/
def putResult (n : Nat) (v : Vec) (o : Outs) (e : List Nat × FNum × Bool) : Outs :=
  let (c, x, poison) := e
  let bits := encodeNum v.dst.fmt x
  let bad := if v.dst.fmt = 4 then !x.finite else nonfiniteBits v.dst.fmt bits
  let o1 := o.put n v.dst c bits poison
  { o1 with nonfinite := o1.nonfinite || (v.nf && !poison && bad) }

/-- The results of an element-wise operation. -/
def elementwiseResults (n : Nat) (v : Vec) (x : Context) (s : State) : Got (List (List Nat × FNum × Bool)) × State :=
  Got.each (fun c s1 =>
    Got.andThen (Got.each (fun t s2 => readNum n v.format t c s2) v.sources s1) (fun l s3 =>
      (.ok (c, elementwise x.profile v.format v.vop v.imm0 v.imm1 (l.map (fun e => e.1)), l.any (fun e => e.2)), s3)))
    (coords v.dst.ext) s

/-- The results of a reduction. -/
def reductionResults (n : Nat) (v : Vec) (s : State) : Got (List (List Nat × FNum × Bool)) × State :=
  Got.each (fun c s1 =>
    Got.andThen (Got.each (fun i s2 => readNum n v.format v.src0 (i :: c.drop 1) s2) (List.range (v.src0.extent 0)) s1) (fun l s3 =>
      (.ok (c, reduction v.format v.vop (l.map (fun e => e.1)), l.any (fun e => e.2)), s3)))
    (coords v.dst.ext) s

/-- The element index of R110. -/
def addsrIndex (aux : Tensor) (c : List Nat) : BitVec 64 :=
  BitVec.ofNat 64 (wrapAddr ((aux.addr : Int) + strideSum 0 c aux.stride))

/-- The results of ADDSR: the exact sum rounded to binary32 at the site of the immediates (R110). With wide = 1 the spec does not
say whether the sum is rounded to binary64 first: the model rounds it once, to binary32 (DESIGN CHOICE, assumption 64). -/
def addsrResults (n : Nat) (v : Vec) (x : Context) (s : State) : Got (List (List Nat × FNum × Bool)) × State :=
  let site : Rounding := ⟨x.stochastic, x.seed, BitVec.ofNat 64 x.step, BitVec.ofNat 32 v.imm1, BitVec.ofNat 32 v.imm2⟩
  Got.each (fun c s1 =>
    Got.andThen (readNum n v.format v.src0 c s1) (fun a s2 =>
      Got.andThen (readNum n v.format v.src1 c s2) (fun b s3 =>
        (.ok (c, decodeNum 7 (roundAt site (addsrIndex v.aux c) (b.1.add a.1)), a.2 || b.2), s3))))
    (coords v.dst.ext) s

/-! ## MXPACK, MXUNPACK, UPDATE -/

/-- Put the elements of a block that was packed: E2M1 two to a byte, the other half of a lone byte kept (R99, R111). -/
def putPacked (n : Nat) (dst : Tensor) (l : List (List Nat × Nat)) (poison : Bool) (o : Outs) (s : State) : Got Outs × State :=
  if dst.fmt ≠ 1 then (.ok (l.foldl (fun o e => o.put n dst e.1 e.2 poison) o), s)
  else
    let bytes := (l.foldl (fun a e => setAdd a (dst.at e.1)) []).map (fun a => (a, l.filter (fun e => decide (dst.at e.1 = a))))
    Got.andThen (Got.each (fun b s1 =>
        let nib := fun (h : Nat) => (b.2.find? (fun e => decide (e.1.headD 0 % 2 = h))).map (fun e => e.2)
        match nib 0, nib 1 with
        | some lo, some hi => (.ok (b.1, lo + 16 * hi), s1)
        | lo, hi =>
          Got.andThen (readFor (.pip n) 3 b.1 1 s1) (fun r s2 =>
            (.ok (b.1, (lo.getD (r.nat % 16)) + 16 * (hi.getD (r.nat / 16))), s2))) bytes s)
      (fun r s3 => (.ok { o with mem := r.foldl (fun m e => bundlePut m e.1 (bytesOfNat 1 e.2) poison) o.mem }, s3))

/-- One block of MXPACK (R61, R111, R113). -/
def packBlock (n : Nat) (v : Vec) (o : Outs) (c : List Nat) (s : State) : Got Outs × State :=
  let q := c.headD 0
  let cs := (List.range (min 32 (v.dst.extent 0 - 32 * q))).map (fun i => (32 * q + i) :: c.drop 1)
  Got.andThen (Got.each (fun i s1 => readNum n 7 v.src0 i s1) cs s) (fun l s2 =>
    let poison := l.any (fun e => e.2)
    let (scale, elems) := mxBlock v.dst.fmt (l.map (fun e => e.1))
    let bad := decide (scale = 0xFF) || elems.any (nonfiniteBits v.dst.fmt)
    let o1 := o.put n (scaleTensor v.aux v.dst) c scale poison
    putPacked n v.dst (List.zip cs elems) poison { o1 with nonfinite := o1.nonfinite || (v.nf && !poison && bad) } s2)

/-- Every block of MXPACK in turn. -/
def packBlocks (n : Nat) (v : Vec) : List (List Nat) → Outs → State → Got Outs × State
  | [], o, s => (.ok o, s)
  | c :: l, o, s => Got.andThen (packBlock n v o c s) (fun o1 s1 => packBlocks n v l o1 s1)

/-- The results of MXUNPACK (R53, R111, R113). -/
def unpackResults (n : Nat) (v : Vec) (s : State) : Got (List (List Nat × FNum × Bool)) × State :=
  let scales := scaleTensor v.aux v.src0
  Got.each (fun c s1 =>
    let i := clipCoord v.src0.ext c
    Got.andThen (readElem n 3 v.src0 c s1) (fun e s2 =>
      Got.andThen (readElem n 3 scales ((i.headD 0 / 32) :: i.drop 1) s2) (fun b s3 =>
        (.ok (c, mxValue v.src0.fmt b.1 e.1, e.2 || b.2), s3))))
    (coords v.dst.ext) s

/-- One element of UPDATE: the six new words with their poison, or none where the result is not finite is told by the flag (R71,
R109). -/
def updateWords (x : Context) (coefs : Coefs) (g : Nat) (w : List Nat) : List Nat × Bool :=
  let pair := fun i => decodeNum 7 (joinPair (w.getD (2 * i) 0) (w.getD (2 * i + 1) 0))
  let (x1, a1, v1) := updateElement (updateFormat x.profile x.mode) coefs x.k (decodeNum 7 g) (pair 0) (pair 1) (pair 2)
  ([x1, a1, v1].flatMap (fun b => [(splitPair b).1, (splitPair b).2]), [x1, a1, v1].any (nonfiniteBits 7))

/-- UPDATE (R109): what it writes. -/
def updateOuts (n : Nat) (v : Vec) (x : Context) (s : State) : Got Outs × State :=
  Got.andThen (readFor (.pip n) 3 v.src1.addr 72 s) (fun cb s1 =>
    let coefs := coefsOf (updateFormat x.profile x.mode) ((List.range 9).map (fun i => natOfBytes ((cb.bytes.drop (8 * i)).take 8)))
    let planes := List.range 6
    Got.andThen (Got.each (fun c s2 =>
        Got.andThen (readElem n 3 v.src0 c s2) (fun g s3 =>
          Got.andThen (Got.each (fun p s4 => readElem n 3 (planeOf v.src2 v.imm0 p) c s4) planes s3) (fun w s5 =>
            let (words, bad) := updateWords x coefs g.1 (w.map (fun e => e.1))
            (.ok (c, words, bad, g.2 || cb.poisoned || w.any (fun e => e.2)), s5)))) (coords v.dst.ext) s1)
      (fun l s6 => (.ok (l.foldl (fun o e =>
        let (c, words, bad, poison) := e
        let o1 := (List.zip planes words).foldl (fun o b => o.put n (planeOf v.dst v.imm0 b.1) c b.2 poison) o
        { o1 with nonfinite := o1.nonfinite || (v.nf && !poison && bad) }) Outs.none), s6)))

/-! ## The run of a VECTOR -/

/-- What a VECTOR writes. -/
def vectorOuts (n : Nat) (v : Vec) (s : State) : Got Outs × State :=
  let x := contextOf s n
  let plain := fun (r : Got (List (List Nat × FNum × Bool)) × State) =>
    Got.andThen r (fun l s1 => (.ok (l.foldl (putResult n v) Outs.none), s1))
  if v.vop = 0x40 then updateOuts n v x s
  else if v.vop = 0x30 then packBlocks n v (coords (scaleTensor v.aux v.dst).ext) Outs.none s
  else if v.vop = 0x31 then plain (unpackResults n v s)
  else if v.vop = 0x18 then plain (addsrResults n v x s)
  else if vopReduces v.vop then plain (reductionResults n v s)
  else plain (elementwiseResults n v x s)

/-- Every tensor that a VECTOR writes. -/
def Vec.written (v : Vec) : List Tensor :=
  if v.vop = 0x40 then (List.range 6).map (planeOf v.dst v.imm0) else v.dests.map (fun d => d.1)

/-- Forget the destination of a VECTOR. -/
def forgetDests (n : Nat) (v : Vec) (s : State) : State := v.written.foldl (fun s x => forgetTensor n x s) s

/-- The counters of a VECTOR (Table 4.18, R319). -/
def countVector (n : Nat) (v : Vec) (s : State) : State :=
  let ext := if vopReduces v.vop then v.src0.ext else v.dst.ext
  let lanes := ext.foldl (· * ·) 1
  let vectors := (ext.headD 1 + 127) / 128 * (ext.drop 1).foldl (· * ·) 1
  let x := contextOf s n
  let rate := vopCycles v.vop (updateFormat x.profile x.mode == 8)
  let cycles := vectors * rate + (if vopReduces v.vop then 8 * v.dst.count else 0)
  let cycles := if v.wide = true ∧ v.vop ≠ 0x22 ∧ v.vop ≠ 0x40 then 4 * cycles else cycles
  (onTile s n (fun t => { t with vectorBusy := t.vectorBusy + cycles, vectorLanes := t.vectorLanes + lanes })).onPower
    (fun p => { p with tileLoad := tabCount p.tileLoad n lanes })

/-- Run a checked VECTOR: its results are written; where it faults, and where its destination overlaps a source outside the tile
store without equal footprint (R105), the destination is undefined. -/
def runVector (n : Nat) (v : Vec) (s : State) : Got Unit × State :=
  match Got.andThen (vectorOuts n v s) (fun o s1 => writeOuts n 3 o s1) with
  | (.fault c, s1) => (.fault c, forgetDests n v (countVector n v s1))
  | (.wait, s1) => (.wait, s1)
  | (.ok _, s1) =>
    let s2 := countVector n v s1
    (.ok (), if v.dests.any (fun d => v.origins.any (clash d)) then forgetDests n v s2 else s2)

/-- The footprint of a VECTOR (R89, R109). -/
def vectorFoot (n : Nat) (v : Vec) : List Interval :=
  v.dests.flatMap (fun d => footprintOf n d.1 d.2 true) ++ v.origins.flatMap (fun d => footprintOf n d.1 d.2 false)

/-- The addresses of the tensor descriptors that pointers name. -/
def namedBy (t : Tile) (l : List Nat) : List Nat :=
  (l.filter (fun p => bitAt p 63)).map (fun p => baseOffset t (bitsAt p 0 4) (bitsAt p 4 48))

/-- The addresses of the tensor descriptors that a VECTOR names. -/
def vectorNames (t : Tile) (d : Nat) : List Nat :=
  namedBy t [bitsAt d 128 64, bitsAt d 192 64, bitsAt d 256 64, bitsAt d 320 64, bitsAt d 384 64]

/-- What a VECTOR reads of memory: UPDATE's six planes and coefficient block, and every other source. -/
def Vec.reads (v : Vec) : List Run :=
  if v.vop = 0x40 then v.src0.runs ++ [⟨v.src1.addr, 72⟩] ++ (List.range 6).flatMap (fun p => (planeOf v.src2 v.imm0 p).runs)
  else v.origins.flatMap (fun x => x.1.runs)

/-- The issue of a checked VECTOR. -/
def vectorIssue (n : Nat) (named : List Nat) (v : Vec) : Issue :=
  ⟨1, 0, vectorFoot n v, named, [], v.reads, v.written.flatMap Tensor.runs, v.written.flatMap (Tensor.bankRuns n), runVector n v⟩

/-- Fetch and check a VECTOR descriptor (R88, R103 to R111). An operand that is present and that the operation does not take is
fetched, and its reserved fields and extents are checked; its format is not, and an auxiliary descriptor with acc = 1 is
malformed under every operation: the spec says nothing of such an operand (DESIGN CHOICE, assumption 63). -/
def prepVector (n d : Nat) (s : State) : Got Issue × State :=
  let vop := bitsAt d 64 8
  let t := tileOf s n
  if bitsAt d 74 22 ≠ 0 then (.fault (malformed 0x02), s)
  else
    Got.andThen (fetchTensor n t (bitsAt d 128 64) false s) (fun dst s1 =>
    Got.andThen (fetchTensor n t (bitsAt d 192 64) false s1) (fun src0 s2 =>
    Got.andThen (fetchTensor n t (bitsAt d 256 64) (vop == 0x40) s2) (fun src1 s3 =>
    Got.andThen (fetchTensor n t (bitsAt d 320 64) false s3) (fun src2 s4 =>
    Got.andThen (fetchTensor n t (bitsAt d 384 64) true s4) (fun aux s5 =>
      let v : Vec := ⟨vop, bitAt d 72, bitAt d 73, bitsAt d 96 32, bitsAt d 448 32, bitsAt d 480 32, dst.getD absentTensor,
        src0.getD absentTensor, src1.getD absentTensor, src2.getD absentTensor, aux.getD absentTensor⟩
      if dst.isNone ∨ ([src0, src1, src2].take (vopSources vop)).any Option.isNone ∨ (vopAux vop ∧ aux.isNone) then
        (.fault (malformed 0x08), s5)
      else
        match checkVector n v with
        | some c => (.fault c, s5)
        | none => (.ok (vectorIssue n (vectorNames t d) v), s5))))))

/-- A VECTOR of one operation of Table 4.14 on a tile. -/
def vectorRow (vop tile : Nat) (s : State) : Host.Outcome State Fault Refusal :=
  done s (runDescriptor tile (fun d => opIs 0x20 d && bitsAt d 64 8 == vop) (prepVector tile) s)

/-- COPY (Table 4.14). -/
def execCopy (tile : Nat) (s : State) : Host.Outcome State Fault Refusal := vectorRow 0x01 tile s

/-- FILL (Table 4.14). -/
def execFill (tile : Nat) (s : State) : Host.Outcome State Fault Refusal := vectorRow 0x02 tile s

/-- ADD (Table 4.14). -/
def execAdd (tile : Nat) (s : State) : Host.Outcome State Fault Refusal := vectorRow 0x03 tile s

/-- SUB (Table 4.14). -/
def execSub (tile : Nat) (s : State) : Host.Outcome State Fault Refusal := vectorRow 0x04 tile s

/-- MUL (Table 4.14). -/
def execMul (tile : Nat) (s : State) : Host.Outcome State Fault Refusal := vectorRow 0x05 tile s

/-- FMA (Table 4.14). -/
def execFma (tile : Nat) (s : State) : Host.Outcome State Fault Refusal := vectorRow 0x06 tile s

/-- DIV (Table 4.14). -/
def execDiv (tile : Nat) (s : State) : Host.Outcome State Fault Refusal := vectorRow 0x07 tile s

/-- SQRT (Table 4.14). -/
def execSqrt (tile : Nat) (s : State) : Host.Outcome State Fault Refusal := vectorRow 0x08 tile s

/-- RSQRT (Table 4.14). -/
def execRsqrt (tile : Nat) (s : State) : Host.Outcome State Fault Refusal := vectorRow 0x09 tile s

/-- EXP (Table 4.14). -/
def execExp (tile : Nat) (s : State) : Host.Outcome State Fault Refusal := vectorRow 0x0A tile s

/-- LOG (Table 4.14). -/
def execLog (tile : Nat) (s : State) : Host.Outcome State Fault Refusal := vectorRow 0x0B tile s

/-- TANH (Table 4.14). -/
def execTanh (tile : Nat) (s : State) : Host.Outcome State Fault Refusal := vectorRow 0x0C tile s

/-- LOGISTIC (Table 4.14). -/
def execLogistic (tile : Nat) (s : State) : Host.Outcome State Fault Refusal := vectorRow 0x0D tile s

/-- SIN (Table 4.14). -/
def execSin (tile : Nat) (s : State) : Host.Outcome State Fault Refusal := vectorRow 0x0E tile s

/-- COS (Table 4.14). -/
def execCos (tile : Nat) (s : State) : Host.Outcome State Fault Refusal := vectorRow 0x0F tile s

/-- MAX (Table 4.14). -/
def execMax (tile : Nat) (s : State) : Host.Outcome State Fault Refusal := vectorRow 0x10 tile s

/-- MIN (Table 4.14). -/
def execMin (tile : Nat) (s : State) : Host.Outcome State Fault Refusal := vectorRow 0x11 tile s

/-- ABS (Table 4.14). -/
def execAbs (tile : Nat) (s : State) : Host.Outcome State Fault Refusal := vectorRow 0x12 tile s

/-- CMPGT (Table 4.14). -/
def execCmpgt (tile : Nat) (s : State) : Host.Outcome State Fault Refusal := vectorRow 0x13 tile s

/-- SELECT (Table 4.14). -/
def execSelect (tile : Nat) (s : State) : Host.Outcome State Fault Refusal := vectorRow 0x14 tile s

/-- AXPB (Table 4.14). -/
def execAxpb (tile : Nat) (s : State) : Host.Outcome State Fault Refusal := vectorRow 0x15 tile s

/-- ADDSR (Table 4.14). -/
def execAddsr (tile : Nat) (s : State) : Host.Outcome State Fault Refusal := vectorRow 0x18 tile s

/-- RSUM (Table 4.14). -/
def execRsum (tile : Nat) (s : State) : Host.Outcome State Fault Refusal := vectorRow 0x20 tile s

/-- RMAX (Table 4.14). -/
def execRmax (tile : Nat) (s : State) : Host.Outcome State Fault Refusal := vectorRow 0x21 tile s

/-- RSUMSQ (Table 4.14). -/
def execRsumsq (tile : Nat) (s : State) : Host.Outcome State Fault Refusal := vectorRow 0x22 tile s

/-- RMAXABS (Table 4.14). -/
def execRmaxabs (tile : Nat) (s : State) : Host.Outcome State Fault Refusal := vectorRow 0x23 tile s

/-- MXPACK (Table 4.14). -/
def execMxpack (tile : Nat) (s : State) : Host.Outcome State Fault Refusal := vectorRow 0x30 tile s

/-- MXUNPACK (Table 4.14). -/
def execMxunpack (tile : Nat) (s : State) : Host.Outcome State Fault Refusal := vectorRow 0x31 tile s

/-- UPDATE (Table 4.14). -/
def execUpdate (tile : Nat) (s : State) : Host.Outcome State Fault Refusal := vectorRow 0x40 tile s

end Sys2Proof.Machine
end

