-- ==== Sys2Proof/Machine/Training.lean ====
section
/-! DEFINITION. The training step (chapter 5): checks and dense updates, the staging cut, the reduced summary and the skip decision,
the sweep and its resumption, abort_step and silent_clear. -/

namespace Sys2Proof.Machine

open Sys2Proof

/-! ## Checks (R128, R129) -/

/-- The elements that a group's check reads: of a sweep group, those of the merged rows (R128). -/
def checkedElems (s : State) (g : Group) : Nat :=
  if g.number < 4096 then g.elements
  else match bindingOfGroup s g.number with
    | some b => (bindingOf s b).mergedRows * g.rowLen
    | none => 0

/-- |g × 2^−k| < 2^−126 (R128). -/
def underflows (k : Nat) (x : FNum) : Bool := (FNum.fin false 1 (-126)).gt (x.abs.scale (-(k : Int)))

/-- A binary64 sum in order, the first term placed. -/
def sum64 (l : List FNum) : FNum :=
  match l with
  | [] => .fin false 0 0
  | x :: rest => rest.foldl (fun a y => roundNum 8 (a.add y)) x

/-- The gradients that a check reads: an uncorrectable word is a fault of the update tile's vector engine, a poisoned one an
escape (R199, R203). -/
def readReduced (s : State) (g : Group) (n : Nat) : List Nat × State :=
  let (b, s1) := readThrough s (.pip g.tileFirst) g.rbuf (4 * n)
  (elemsOfBytes 4 n b.bytes,
    let s2 := if b.poisoned then poisonEscape s1 else s1
    if b.error then recordFault s2 0x02030801 g.tileFirst else s2)

/-- The check of a group: S as a binary64 value, U, n, and the state after the reads (R128). -/
def checkGroup (s : State) (g : Group) : FNum × Nat × Nat × State :=
  let n := checkedElems s g
  let (l, s1) := readReduced s g n
  let k := s.train.history.scaleExp
  let xs := l.map (decodeNum 7)
  let parts := (List.range g.tileCount).map (fun i =>
    let part := (xs.drop (n * i / g.tileCount)).take (n * (i + 1) / g.tileCount - n * i / g.tileCount)
    laneSum 8 (part.map (fun x => x.mul x)))
  (sum64 parts, (xs.filter (underflows k)).length, n, s1)

/-- The unscaled norm ν of a sum of squares: sqrt(S) × 2^−k in binary64 (R128). -/
def unscaledNorm (k : Nat) (sumSq : FNum) : FNum := roundNum 8 ((roundNum 8 sumSq.sqrt).scale (-(k : Int)))

/-- ν exceeds a bound given as binary64 bits (R129). -/
def overBound (nu : FNum) (bound : Nat) : Bool := nu.finite && nu.gt (decodeNum 8 bound)

/-- Make the check of a group: S, U and n kept, detections recorded; an over-bound detection that skip_policy keeps out of the
flag is counted (R129). -/
def makeCheck (s : State) (g : Group) : State :=
  let (sumSq, u, n, s1) := checkGroup s g
  let nu := unscaledNorm s.train.history.scaleExp sumSq
  let exceeds := overBound nu g.bound
  let feeds := decide (cfg s 0x481003 = 0)
  let s2 := if exceeds && !feeds then s1.onTrain (fun t => { t with overBoundSeen := t.overBoundSeen + 1 }) else s1
  onWork s2 g.number (fun w => { w with
    checked := true
    sumSq := BitVec.ofNat 64 (encodeNum 8 sumSq)
    under := u
    count := n
    nonfinite := !nu.finite
    overBound := exceeds && feeds })

/-! ## The dense update (R130, R131) -/

/-- Hazel writes the coefficient block of every valid group, before the first update of the step (R131). -/
def writeCoefficients (s : State) : State :=
  if s.train.coefWritten then s
  else
    ((validGroups s.dict.values).foldl (fun t g =>
      let block := coefficientBlock g.lr g.beta1 g.beta2 g.eps g.decay ((ledgerOf t g.number).updateCount + 1)
      putThrough t .hazel g.coef (block.flatMap (bytesOfNat 8))) s).onTrain (fun t => { t with coefWritten := true })

/-- The context of the module's own work of the step. -/
def ownContext (s : State) : Context where
  step := currentStep s
  k := s.train.history.scaleExp
  profile := profileNow s
  mode := modeInForce s
  seed := BitVec.ofNat 64 (cfg s 0x480004)
  srMode := cfg s 0x480005

/-- A 16-bit word as two bytes with a poison mark. -/
def markedWord (v : Nat) (p : Bool) : List (Byte × Bool) := (bytesOfNat 2 v).map (fun b => (b, p))

/-- Element `j` of `w` bytes of a read. -/
def Bytes.elem (b : Bytes) (w j : Nat) : Bytes := { b with data := (b.data.drop (w * j)).take w }

/-- What an update reads: the coefficient block, the gradients, and the six planes. -/
structure UpdateReads where
  coefs : Bytes
  grads : Bytes
  planes : List Bytes
  deriving DecidableEq, Repr

/-- Read `len` bytes at each of the addresses in order, for an initiator. -/
def readEach (who : Initiator) (len : Nat) : List Nat → State → List Bytes × State
  | [], s => ([], s)
  | a :: l, s =>
    let (b, s1) := readThrough s who a len
    let (r, s2) := readEach who len l s1
    (b :: r, s2)

/-- Read for the update of `n` elements: the gradients from `gradAt` up, the planes from `planes` up. -/
def readUpdate (s : State) (g : Group) (gradAt n : Nat) (planes : List Nat) : UpdateReads × State :=
  let who := Initiator.pip g.tileFirst
  let (c, s1) := readThrough s who g.coef 72
  let (b, s2) := readThrough s1 who gradAt (4 * n)
  let (l, s3) := readEach who (2 * n) planes s2
  (⟨c, b, l⟩, s3)

/-- A word of the reads is a held line of saved state (R200). -/
def UpdateReads.held (r : UpdateReads) : Bool := r.coefs.held || r.grads.held || r.planes.any (fun b => b.held)

/-- A word of the reads is uncorrectable (R199). -/
def UpdateReads.error (r : UpdateReads) : Bool := r.coefs.error || r.grads.error || r.planes.any (fun b => b.error)

/-- An updated element: its six words, whether one of its results is not finite, and whether it is poisoned. -/
structure Updated where
  words : List Nat
  bad : Bool
  poison : Bool
  deriving DecidableEq, Repr

/-- The results of R71 for `n` elements; a poisoned input poisons all six words of its element, which is then not tested (R113). -/
def updateResults (x : Context) (r : UpdateReads) (n : Nat) : List Updated :=
  let coefs := coefsOf (updateFormat x.profile x.mode) (elemsOfBytes 8 9 r.coefs.bytes)
  (List.range n).map (fun j =>
    let res := updateWords x coefs (r.grads.elem 4 j).nat (r.planes.map (fun b => (b.elem 2 j).nat))
    let p := r.coefs.poisoned || (r.grads.elem 4 j).poisoned || r.planes.any (fun b => (b.elem 2 j).poisoned)
    ⟨res.1, res.2 && !p, p⟩)

/-- An update tile writes the words of updated elements to planes from `planes` up. -/
def writeUpdated (s : State) (who : Initiator) (l : List Updated) (planes : List Nat) : State :=
  planes.zipIdx.foldl (fun t a => (writeThrough t who a.1 (l.flatMap (fun y => markedWord (y.words.getD a.2 0) y.poison))).1) s

/-- The planes of a slot of a dense group. -/
def slotPlanes (g : Group) (base : Nat) : List Nat := (List.range 6).map (fun p => base + p * g.stride)

/-- What the update of a dense group reads. -/
def denseReads (s : State) (g : Group) : UpdateReads × State :=
  let s0 := writeCoefficients s
  readUpdate s0 g g.rbuf g.elements (slotPlanes g (liveSlot s0 g))

/-- Run UPDATE of a dense group on its update tiles with nf_check = 1 (R130): a tile whose share has a result that is not finite
sets its non-finite flag; the shadow slot is written. An uncorrectable word is a fault of the module's own work, which leaves
the shadow slot open (R114, R142). -/
def updateGroup (s : State) (g : Group) : State × Bool :=
  let (r, s1) := denseReads s g
  let count := fun (t : State) => onWork t g.number (fun w => { w with updated := true })
  let base := shadowSlot s1 g
  if r.error then (count (recordFault { s1 with mem := forget s1.mem base (base + g.planeBytes) } 0x02030801 g.tileFirst), false)
  else
    let n := g.elements
    let l := updateResults (ownContext s1) r n
    let s2 := writeUpdated s1 (.pip g.tileFirst) l (slotPlanes g base)
    let s3 := (List.range g.tileCount).foldl (fun t i =>
      let lo := n * i / g.tileCount
      if ((l.drop lo).take (n * (i + 1) / g.tileCount - lo)).any (fun y => y.bad) then
        onTile t (g.tileFirst + i) (fun y => { y with nonfinite := true })
      else t) s2
    (count s3, l.any (fun y => y.bad))

/-- A line of a dense group's live slot is held for repair already. -/
def awaitsLine (s : State) (g : Group) : Bool :=
  s.prot.heldLines.any (fun h => decide (liveSlot s g < 64 * h.1 + 64 ∧ 64 * h.1 < liveSlot s g + g.planeBytes))

/-- A dense group's update has ended: its class 1 hints are cleared (R159). -/
def unhint (s : State) (g : Nat) : State := s.onCache (fun c => { c with updating := setRemove c.updating g })

/-- A detection of the group's check feeds the flag. -/
def feedsFlag (w : GroupWork) : Bool := w.nonfinite || w.overBound

/-! ## The staging cut (R44, R133, R333) -/

/-- Writes that the staged set of the boundary of the current step takes in. -/
def joinedWrites (s : State) : List Staged := s.dict.staged.filter (fun w => joins s w.applyAt)

/-- Epoch records that join the boundary of the current step. -/
def joinedEpochs (s : State) : List EpochRecord :=
  s.fabric.pendingEpochs.filter (fun e => joins s e.applyAt)

/-- No tile runs, or waits to run, a program of the current step. -/
def programsEnded (s : State) : Bool :=
  s.tiles.all (fun e => e.2.program.isNone && e.2.trap.isNone && e.2.waiting.all (fun p => decide (p.step ≠ currentStep s)))

/-- A group's part of R133 is done: a closed step takes groups whose entries have not completed as done. -/
def groupDone (s : State) (g : Group) : Bool :=
  let w := workOf s g.number
  (s.train.closed && !w.final && !w.issued) || (if 4096 ≤ g.number then w.final && w.checked else w.checked && w.updated)

/-- Every entry of the current step of a kind that `f` takes has completed (R133, Table 2.7). -/
def entriesEnded (s : State) (f : Nat → Bool) : Bool := (stepEntries s (fun e => f e.kind && decide (e.status ≠ 2))).isEmpty

/-- The conditions of R133 for the cut: no tile program or Cracker command of the step is still to run. -/
def cutReady (s : State) (carrier : Nat) : Bool :=
  ((workOf s carrier).final || s.train.closed) && programsEnded s && entriesEnded s (fun k => decide (k = 1 ∨ k = 2)) &&
    (validGroups s.dict.values).all (fun g => decide (g.number = carrier) || groupDone s g)

/-- The step summary of the module (Table 5.3). -/
def ownSummaryOf (s : State) (carrier : Nat) (digest : BitVec 128) : Summary :=
  let others := s.train.work.filter (fun e => decide (e.1 ≠ carrier))
  let norms := ((validGroups s.dict.values).filter (fun g => g.globalNorm)).map (fun g => decodeNum 8 (workOf s g.number).sumSq.toNat)
  ⟨s.tiles.any (fun e => e.2.nonfinite) || others.any (fun e => e.2.nonfinite), others.any (fun e => e.2.overBound), s.train.faulted, false,
    BitVec.ofNat 64 (encodeNum 8 (sum64 norms)), digest⟩

/-- Epoch records that had joined are discarded with their staged set, and later ones are cancelled (R46, R334). -/
def dropEpochs (s : State) (joined : List Nat) : State :=
  let later := s.fabric.pendingEpochs.filter (fun e => !joined.contains e.epoch)
  if joined = [] then s
  else later.foldl (fun t e => raise t 0x01100B06 e.epoch) (s.onFabric (fun f => { f with pendingEpochs := [] }))

/-- Fix the staged set at the cut: refused whole on its first failure, else the configuration it leaves and the epochs that joined
(R44, R333, R334). The answer is the digest for the next step. -/
def fixStagedSet (s : State) : State × BitVec 128 :=
  let writes := joinedWrites s
  let epochs := joinedEpochs s
  let t := applyWrites s.dict.values writes
  let groups := groupsAfter s.fabric.groups (epochs.flatMap (fun e => e.blocks))
  match (if writes = [] ∧ epochs = [] then [] else stagedFailures s groups t) with
  | f :: more =>
    let s1 := (noteRefusal s f more.length).onDict (fun d => { d with staged := d.staged.filter (fun w => !joins s w.applyAt) })
    ((dropEpochs s1 (epochs.map (fun e => e.epoch))).onTrain (fun x => { x with cutConfig := none, cutEpochs := [] }),
      digestShort (configDigest s.dict.values s.fabric.groups))
  | [] =>
    let s1 := s.onDict (fun d => { d with staged := d.staged.map (fun w =>
      if joins s w.applyAt then { w with applyAt := s.train.committed + 2 } else w) })
    let s2 := s1.onTrain (fun x => { x with
      cutConfig := if writes = [] ∧ epochs = [] then none else some t
      cutEpochs := epochs.map (fun e => e.epoch) })
    (s2, digestShort (configDigest t groups))

/-! ## The skip decision (R134, R135, R46) -/

/-- Discard the staged set and the epochs that had joined; later epochs are cancelled (R46). -/
def discardStagedSet (s : State) : State :=
  (((dropEpochs s s.train.cutEpochs).onTrain (fun t => { t with cutConfig := none, cutEpochs := [] })).onDict (fun d => { d with
    staged := d.staged.filter (fun w => !decide (w.applyAt ≠ 0 ∧ w.applyAt ≤ s.train.committed + 2)) }))

/-- What the agreement bit and the returned digest mean for this member (R46, R135). -/
def compareDigests (s : State) (r : Summary) (included : Bool) : State :=
  let own := match s.train.ownSummary with
    | some x => x.digest
    | none => 0
  if r.agree = false then discardStagedSet (raise s 0x010A0202 (currentStep s))
  else if included = false ∧ own ≠ r.digest then stopModule (raise s 0x010A0202 (currentStep s))
  else s

/-- The collective of the carrier in the step, if one is known. -/
def carrierColl (s : State) : Option Coll :=
  s.fabric.colls.find? (fun c => decide (some c.key.group = carrierNow s ∧ c.step = currentStep s ∧ c.key.group ≠ noGroup))

/-- A binary32 object as a binary64-exact value. -/
def bound32 (s : State) (key : Nat) : FNum := decodeNum 7 (cfg s key)

/-- Compute the global skip flag from the reduced summary (R134), once the carrier's reduced gradient is here. An update that
meets a held line of saved state waits: nothing but its reads has happened then (R200). -/
def decideSkip (s : State) (r : Summary) (carrier : Nat) (included : Bool) : State :=
  let s1 := makeCheck (compareDigests s r included) (groupNow s carrier)
  let w := workOf s1 carrier
  let k := s.train.history.scaleExp
  let gn := unscaledNorm k (decodeNum 8 r.gnorm.toNat)
  let hasNorm := (validGroups s.dict.values).any (fun g => g.globalNorm)
  let gnNf := hasNorm && !gn.finite
  let gnOb := hasNorm && gn.finite && gn.gt (bound32 s 0x481002) && decide (cfg s 0x481003 = 0)
  let nf := if r.fault then false else r.nonfinite || w.nonfinite || gnNf
  let ob := if r.fault then true else r.overBound || w.overBound || gnOb
  let (s2, bad) := if nf || ob then (onWork s1 carrier (fun w => { w with updated := true }), false) else updateGroup s1 (groupNow s1 carrier)
  if !(nf || ob) && (denseReads s1 (groupNow s1 carrier)).1.held then (denseReads s (groupNow s carrier)).2
  else
  let nf2 := nf || bad
  (unhint s2 carrier).onTrain (fun t => { t with decision := some (nf2, ob), stepState := 2, sweepBegun := !(nf2 || ob) })

/-- Decide once the cut has passed, the reduced summary is held and the carrier's reduced gradient has been written. -/
def tryDecide (s : State) : State :=
  match s.train.reducedSummary, carrierNow s, carrierColl s with
  | some r, some carrier, some c =>
    let own := (collGroup s c.key).2
    if s.train.cut = false ∨ s.train.decision.isSome ∨ awaitsLine s (groupNow s carrier) ∨ c.decisions = [] ∨ c.received < neededElems s c ∨ c.holdData ≠ [] then s
    else decideSkip s r carrier (contributes c own)
  | _, _, _ => s

/-- DENSE_CHECK_UPDATE: the check of a reduced gradient and, if it feeds no detection, the update into the shadow slot (R128 to
R130). Of a sweep group, whose update is the sweep, only the check is made; the carrier's waits for the reduced summary
(R134). An update that meets a held line of saved state waits for its repair, and the command then comes again (R200). -/
def execDenseCheckUpdate (group : Nat) (s : State) : Host.Outcome State Fault Refusal :=
  let g := groupNow s group
  let w := workOf s group
  if carrierNow s = some group then done s (tryDecide s)
  else if g.valid = false ∨ w.reduced = false ∨ w.checked ∨ s.train.cut then .next s
  else
    let s1 := makeCheck s g
    if 4096 ≤ group then done s s1
    else if feedsFlag (workOf s1 group) then done s (unhint (onWork s1 group (fun w => { w with updated := true })) group)
    else if awaitsLine s g then .next s
    else if (denseReads s1 g).1.held then done s (denseReads s g).2
    else done s (unhint (updateGroup s1 g).1 group)

/-! ## The twin at the cut (R303) -/

/-- The step's gradients, as Acorn reads them: every reduction buffer and every merged row, in group order. -/
def gradientBytes (s : State) : List Byte × State :=
  (validGroups s.dict.values).foldl (fun (a : List Byte × State) g =>
    let (b, t) := readThrough a.2 .acorn g.rbuf (4 * checkedElems s g)
    (a.1 ++ b.bytes, t)) ([], s)

/-- The partner's packet of the step is there and its digest, the last 32 bytes of its 64, is not the own one (R303). -/
def twinsDiffer (s : State) : Bool :=
  match s.resil.twinPartner with
  | some d => s.resil.twinSent && decide (d >>> 256 ≠ s.resil.twinDigest >>> 256)
  | none => false

/-- The own and the partner's packet are compared once both are there: unequal digests stop both modules. -/
def compareTwins (s : State) : State :=
  if twinsDiffer s then stopModule (raise s 0x080E0B09 (currentStep s)) else s

/-- Send the step summary and the digest of the gradients to the partner. -/
def sendTwinDigest (s : State) (summary : Summary) : State :=
  if paired s then
    let (grads, s0) := gradientBytes s
    let body := summaryBytes summary ++ shake256 grads 32
    let s1 := s0.onResil (fun r => { r with twinSent := true, twinDigest := BitVec.ofNat 512 (natOfBytes body) })
    compareTwins (sendPacket s1 (twinPacket s1 0x10 body))
  else s

/-- STAGING_CUT: also while the module holds, since the step's work goes on to its READYs (Table 11.9), the staged set is fixed
and the step summary issued with the carrier's contribution (R44, R133). -/
def execStagingCut (s : State) : Host.Outcome State Fault Refusal :=
  match carrierNow s with
  | none => .next s
  | some carrier =>
    if s.train.cut ∨ s.train.withheld ∨ 1 < s.resil.state ∨ s.resil.memoryLost ∨ s.resil.twinState = 2 ∨ cutGateOpen s = false ∨ cutReady s carrier = false then .next s
    else
      let (s1, digest) := fixStagedSet s
      let summary := ownSummaryOf s1 carrier digest
      let s2 := s1.onTrain (fun t => { t with
        cut := true
        lastCut := currentStep s
        stepState := 1
        ownSummary := some summary
        retireCut := decide (s.stack.retiring ≠ [] ∨ s.stack.sliceRetiring ≠ [])
        cutRetire := s.stack.retiring
        cutSlices := s.stack.sliceRetiring })
      done s (tryDecide (issueCarrier (sendTwinDigest s2 summary) carrier summary))

/-- The reduced summary of the root (R247): flags ORed, sums added with included slots first, digests compared. -/
def reduceSummaries (own : Summary) (flagOr : Bool) (included deferred : List Summary) : Summary :=
  let all := included ++ deferred
  ⟨all.any (fun x => x.nonfinite) || flagOr, all.any (fun x => x.overBound), all.any (fun x => x.fault),
    included.all (fun x => decide (x.digest = own.digest)),
    BitVec.ofNat 64 (encodeNum 8 (sum64 (all.map (fun x => decodeNum 8 x.gnorm.toNat)))), own.digest⟩

/-- The summaries of slots in ascending order, if all are held. -/
def summariesOf (l : List (Nat × Summary)) : List Nat → Option (List Summary)
  | [] => some []
  | slot :: rest =>
    match l.find? (fun x => x.1 == slot), summariesOf l rest with
    | some x, some m => some (x.2 :: m)
    | _, _ => none

/-- RESULT_SEND: after its own cut the root forms the reduced summary and sends RESULT to every Henelo slot (R247). -/
def execResultSend (s : State) : Host.Outcome State Fault Refusal :=
  match carrierColl s, s.train.ownSummary with
  | some c, some own =>
    let (g, slot) := collGroup s c.key
    let included := (heneloSlots g).filter (fun x => decide (c.decisions.getD x 2 = 0))
    let chainDone := decide (olderSlots g = []) ||
      (match (heneloSlots g).findIdx? (fun x => x == slot) with
       | some i => c.chunksDone.contains i
       | none => true)
    if isRoot s c.key = false ∨ s.train.cut = false ∨ c.decisions = [] ∨ rootHolds s c.key.comm (currentStep s) ∨ chainDone = false ∨
        s.resil.resultSentFor = some (currentStep s) then .next s
    else
      match summariesOf c.summaries included, summariesOf s.fabric.carrierDeferred c.deferredIn with
      | some inc, some dfr =>
        let r := reduceSummaries own c.flagOr inc dfr
        let s1 := (heneloSlots g).foldl (fun t x =>
          sendPacket t { collPacket t c 4 x with payload := summaryBytes { r with digest := 0 } ++ bytesOfNat 16 own.digest.toNat }) s
        done s (s1.onResil (fun x => { x with resultSentFor := some (currentStep s) }))
      | _, _ => .next s
  | _, _ => .next s

/-- RESULT: the reduced summary reaches a member (R134); its digest is the root's. -/
def execResult (p : Packet) (s : State) : Host.Outcome State Fault Refusal :=
  withPacket s 4 p (fun t =>
    if p.step ≠ currentStep t ∨ t.train.reducedSummary.isSome then t
    else
      let r := { summaryOf p.payload with digest := BitVec.ofNat 128 (natOfBytes ((p.payload.drop 32).take 16)) }
      tryDecide (t.onTrain (fun x => { x with reducedSummary := some r })))

/-! ## The sweep (R136 to R141) -/

/-- The 64 bytes of a stage slot header (Table 5.4). -/
def stageHeader (step state group rowLen row : Nat) : List Byte :=
  bytesOfNat 64 (step + state * 2 ^ 64 + group * 2 ^ 66 + rowLen * 2 ^ 79 + row * 2 ^ 128)

/-- The address of stage slot `i` of a group. -/
def stageSlot (g : Group) (i : Nat) : Nat := g.base2 + i * g.slotBytes

/-- Set the word of a stage slot's header that holds its state, as one aligned word (R138). -/
def setStageState (s : State) (g : Group) (i state row : Nat) : State :=
  putThrough s .hazel (stageSlot g i + 8) (((stageHeader 0 state g.number g.rowLen row).drop 8).take 8)

/-- The address of plane `p` of a row of a sweep group's table (R119). -/
def planeAt (g : Group) (p row : Nat) : Nat := g.slot0 + p * g.stride + 2 * row * g.rowLen

/-- Write planes of a row to HBM from its stage slot. -/
def writePlanes (s : State) (g : Group) (i row : Nat) (planes : List Nat) : State :=
  planes.foldl (fun t p =>
    let (b, t1) := readThrough t (.cracker 14) (stageSlot g i + 64 + 2 * g.rowLen * p) (2 * g.rowLen)
    disturb (writeMarked (lookupTags t1 (planeAt g p row) (2 * g.rowLen)) (planeAt g p row) b.data).1 [⟨planeAt g p row, 2 * g.rowLen⟩]) s

/-- What the update of row `row`, of rank `rank` among the merged rows, reads. -/
def rowReads (s : State) (g : Group) (rank row : Nat) : UpdateReads × State :=
  readUpdate s g (g.rbuf + 4 * g.rowLen * rank) g.rowLen ((List.range 6).map (fun p => planeAt g p row))

/-- A line of the table's row is held for repair already. -/
def awaitsRow (s : State) (g : Group) (row : Nat) : Bool :=
  s.prot.heldLines.any (fun h => (List.range 6).any (fun p =>
    decide (planeAt g p row < 64 * h.1 + 64 ∧ 64 * h.1 < planeAt g p row + 2 * g.rowLen)))

/-- The sweep goes no further: Husk's handshakes are held (R32), or the module has stopped, whose committed state no row may alter
any more (R8). -/
def sweepHeld (s : State) : Bool := huskStopped s || decide (s.resil.state = 6)

/-- The stage slot's parts of planes go to the planes of a row by channel 14, as sector writes (R189). -/
def writeBack14 (s : State) (g : Group) (slot row : Nat) (planes : List Nat) : State :=
  hazelRequests (writePlanes s g slot row planes) 14 true (planes.flatMap (fun p => sectorsOf (planeAt g p row) (2 * g.rowLen)))

/-- SWEEP_ROW: a delivered row is updated, checked and written to its stage slot, then marked complete and its moments written; a
row with a result that is not finite is held (R138, R139). A row of the table that is a held line of saved state waits for its
repair (R200); an uncorrectable gradient or coefficient is a fault after the cut (R142). -/
def execSweepRow (group row : Nat) (s : State) : Host.Outcome State Fault Refusal :=
  match bindingOfGroup s group with
  | none => .next s
  | some bn =>
    let g := groupNow s group
    if s.train.sweepBegun = false ∨ (bindingOf s bn).ready.contains row = false ∨ awaitsRow s g row ∨ sweepHeld s then .next s
    else
      let rank := rankOf s bn row
      let s0 := writeCoefficients s
      let r := (rowReads s0 g rank row).1
      let s1 := (rowReads s0 g rank row).2
      if r.held then done s s1
      else
        let s2 := onBinding s1 bn (fun w => { w with ready := setRemove w.ready row })
        if r.error then done s (recordFault s2 0x02030801 g.tileFirst)
        else
          let l := updateResults (ownContext s1) r g.rowLen
          let s3 := putThrough s2 (.pip g.tileFirst) (stageSlot g rank) (stageHeader (currentStep s) 1 group g.rowLen row)
          if l.any (fun y => y.bad) then
            let s4 := raise (setStageState s3 g rank 0 row) 0x05000501 row
            done s (s4.onTrain (fun t => { t with
              lastHeldRow := row + group * 2 ^ 32
              sweep := t.sweep ++ [⟨group, row, rank, rank, 0, false, false, true⟩] }))
          else
            let s4 := writeUpdated s3 (.pip g.tileFirst) l ((List.range 6).map (fun p => stageSlot g rank + 64 + 2 * g.rowLen * p))
            let s5 := writeBack14 (setStageState s4 g rank 2 row) g rank row [2, 3, 4, 5]
            done s (touchRow (s5.onTrain (fun t => { t with
              sweep := t.sweep ++ [⟨group, row, rank, rank, 2, false, false, false⟩] })) group row)

/-- SWEEP_WRITE_ACK: a row's moments are acknowledged and its weights issued, or its weights are acknowledged (R138). -/
def execSweepWriteAck (group row : Nat) (s : State) : Host.Outcome State Fault Refusal :=
  match s.train.sweep.find? (fun x => decide (x.group = group ∧ x.row = row)) with
  | none => .next s
  | some x =>
    let put := fun (t : State) (y : SweptRow) => t.onTrain (fun r => { r with
      sweep := r.sweep.map (fun z => if z.group = group ∧ z.row = row then y else z) })
    if x.held ∨ x.weightsAcked ∨ sweepHeld s then .next s
    else if x.momentsAcked then done s (put s { x with weightsAcked := true })
    else done s (put (writeBack14 s (groupNow s group) x.slot row [0, 1]) { x with momentsAcked := true })

/-- The state, step and row in a stage slot's header. -/
def stageState (s : State) (g : Group) (i : Nat) : Nat × Nat × Nat :=
  let v := natOfBytes ((List.range 20).map (fun j => heldByte s.mem s.free (stageSlot g i + j)))
  (bitsAt v 64 2, bitsAt v 0 64, bitsAt v 128 32)

/-- Resume the sweep of one group: complete slots replayed, filling ones freed (R141). -/
def resumeGroup (s : State) (g : Group) : State :=
  (List.range g.stageRows).foldl (fun t i =>
    let (st, step, row) := stageState t g i
    if st = 2 ∧ step = currentStep t then
      (writeBack14 t g i row [2, 3, 4, 5, 0, 1]).onTrain (fun x => { x with
        sweep := x.sweep ++ [⟨g.number, row, i, i, 2, true, true, false⟩] })
    else if st = 1 then setStageState t g i 0 row
    else t) s

/-- SWEEP_RESUME: an interrupted sweep replays complete slots, frees filling ones and goes on with the remaining rows (R141). -/
def execSweepResume (s : State) : Host.Outcome State Fault Refusal :=
  if s.train.sweepBegun = false ∨ sweepHeld s then .next s
  else
    let s1 := s.onTrain (fun t => { t with sweep := [] })
    let s2 := s1.onCracker (fun k => { k with bindings := k.bindings.foldl (fun t e =>
      tabSet BindingWork.none t e.1 { e.2 with ready := [], staging := [] }) k.bindings })
    done s (((validGroups s.dict.values).filter (fun g => decide (4096 ≤ g.number))).foldl resumeGroup s2)

/-! ## abort_step and silent_clear (R143, R144) -/

/-- End a running tile program as under R115 with a code. -/
def abortTile (s : State) (n : Nat) (code : Code) : State :=
  let t := tileOf s n
  if (t.state = 1 ∨ t.state = 2) ∧ t.trap.isNone then detectTrap s n (faultHere t code) else s

/-- A write to abort_step: refused unless it names the current step before its cut; else every running program of the step ends,
the fault is recorded and the step is closed (R143). -/
def abortStep (s : State) (step : Nat) : Except Code State :=
  if step ≠ currentStep s ∨ s.train.cut then .error 0x01100507
  else
    let s1 := (s.tiles.map (fun e => e.1)).foldl (fun t n =>
      match (tileOf t n).program with
      | some p => if p.step = step then abortTile t n 0x040D0501 else t
      | none => t) s
    let s2 := settleUnknown (recordFault s1 0x040D0501 step)
    .ok (settleFault (s2.onTrain (fun t => { t with closed := true })))
where
  settleUnknown (t : State) : State := settleAccepted (t.front.queues.foldl (fun a q => a + q.2.entries.length) 0) t
  /-- Accepted entries join the step in ordinal order, up to its carrier entry (R264), whether or not pending ones precede them. -/
  settleAccepted : Nat → State → State
    | 0, t => t
    | n + 1, t =>
      if t.front.carrierAt.isSome then t
      else match nextUnknown t with
        | none => t
        | some (q, e) => settleAccepted n (joinStep t q e)

/-- A write to silent_clear: the group's mark is cleared (R144). -/
def clearSilent (s : State) (g : Nat) : State := onLedger s g (fun l => { l with silent := false })

end Sys2Proof.Machine
end

