-- ==== Sys2Proof/Machine/Boundary.lean ====
section
/-! DEFINITION. The step boundary (R41 to R51): its conditions and its effects in the order of Table 2.7, with the loss-scale history
(R75), silent groups (R144), epochs (R234), retirements (R15, R212, R214, R215), the deferral log (R246) and Acorn's records (R283,
R285). -/

namespace Sys2Proof.Machine

open Sys2Proof

/-! ## Conditions -/

/-- Every listed row of a sweep group has been written, or is held (R138, R139). -/
def sweepDone (s : State) (g : Group) : Bool :=
  match bindingOfGroup s g.number with
  | none => true
  | some bn =>
    let b := bindingNow s bn
    (List.range (bindingOf s bn).mergedRows).all (fun j =>
      s.train.sweep.any (fun x => decide (x.group = g.number ∧ x.row = listedRow s b j) && (x.weightsAcked || x.held)))

/-- No Cracker channel holds a command of the current step, or sectors of one. -/
def channelsEnded (s : State) : Bool :=
  s.cracker.channels.all (fun c => decide (c.2.batches = [] ∧ c.2.inflight = []) && c.2.cmds.all (fun x => decide (x.step ≠ currentStep s)))

/-- The twin's part: no twin, a single module, or the partner's equal digest (R303). -/
def twinAgrees (s : State) : Bool :=
  decide (cfg s 0x600601 = 0 ∨ s.resil.twinState = 1) ||
    (decide (s.resil.twinState = 0) && s.resil.twinSent && s.resil.twinPartner.isSome && !twinsDiffer s)

/-- A DELTA or BASE is due at the boundary of a step (R285). -/
def deltaDue (s : State) (step : Nat) : Bool :=
  decide (cfg s 0x600005 ≠ 0 ∧ step % cfg s 0x600005 = 0) && (snapshotTarget s).isSome &&
    (validGroups s.dict.values).any (fun g => memberSpecific s g.number)

/-- A record of the last DELTA or BASE is still to be exported. -/
def deltaExporting (s : State) : Bool := s.resil.exportsDue.any (fun r => decide (r.kind ≤ 2))

/-- The module may run a boundary: running, or holding with a recovery record that waits for the boundary of a step whose outcome
is already known (R290); never after a fault that follows the cut (R142) or outside its pair (R304). -/
def mayCommit (s : State) : Bool :=
  (decide (s.resil.state = 0) || (decide (s.resil.state = 1) && s.resil.heldRecord.isSome)) && !s.train.lateFault &&
    decide (s.resil.twinState ≠ 2)

/-- The prerequisites of the boundary (Table 2.7, R286): of the step's entries only exports may complete after it (R41, R268). -/
def boundaryReady (s : State) : Bool :=
  let skip := match s.train.decision with
    | some d => d.1 || d.2
    | none => true
  let groups := validGroups s.dict.values
  s.train.decision.isSome && mayCommit s && programsEnded s && channelsEnded s && twinAgrees s && entriesEnded s (fun k => decide (k ≠ 5)) &&
    (skip || groups.all (fun g => if 4096 ≤ g.number then sweepDone s g else (workOf s g.number).updated)) &&
    (!deltaDue s (currentStep s) || !deltaExporting s)

/-! ## History and silent groups (R74 to R76, R144) -/

/-- The history after a commit record (R75); the flag says that k was at scale_min_exp with the non-finite flag set. -/
def historyAfter (s : State) (r : CommitRecord) : History × Bool :=
  let h := s.train.history
  let lo := cfg s 0x480104
  let hi := cfg s 0x480105
  let n := cfg s 0x480103
  let left := h.wideLeft - 1
  if r.nonfinite then
    ({ h with
      ring := tabSet 0 h.ring h.ringNext r.step
      ringNext := (h.ringNext + 1) % 64
      ringFill := min (h.ringFill + 1) 64
      overflowTotal := h.overflowTotal + 1
      scaleExp := max (h.scaleExp - 1) lo
      cleanSteps := 0
      wideLeft := left }, decide (h.scaleExp = lo))
  else if r.applied then
    let c := h.cleanSteps + 1
    if n ≤ c ∧ h.scaleExp < hi then ({ h with scaleExp := h.scaleExp + 1, cleanSteps := 0, wideLeft := left }, false)
    else ({ h with cleanSteps := if h.scaleExp = hi then min c n else c, wideLeft := left }, false)
  else ({ h with wideLeft := left }, false)

/-- The history with the range and interval now in force, k clamped into the range (R74, R75). -/
def recordRange (s : State) (h : History) : History :=
  let lo := cfg s 0x480104
  let hi := cfg s 0x480105
  { h with minExp := lo, maxExp := hi, growth := cfg s 0x480103, scaleExp := min hi (max lo h.scaleExp) }

/-- The number as an exact value. -/
def natNum (n : Nat) : FNum := .fin false n 0

/-- The silent counts of a group after its check (R144). -/
def silentAfter (s : State) (l : GroupLedger) (w : GroupWork) : GroupLedger :=
  let fraction := decodeNum 7 (cfg s 0x481007)
  let under := decide (w.count ≠ 0) && (natNum w.under).gt (fraction.mul (natNum w.count))
  let z := if w.sumSq = 0 then l.zeroRun + 1 else 0
  let u := if under then l.uflowRun + 1 else 0
  let t := cfg s 0x481006
  { l with zeroRun := z, uflowRun := u, silent := l.silent || decide (t ≤ z ∨ t ≤ u) }

/-- The silent counts of every checked group (R144). -/
def updateSilent (s : State) : State :=
  (validGroups s.dict.values).foldl (fun t g =>
    if (workOf t g.number).checked then onLedger t g.number (fun l => silentAfter t l (workOf t g.number)) else t) s

/-! ## Slots (R132, R138) -/

/-- The slot table's entry of a dense group, rewritten. -/
def writeSlotEntry (s : State) (g : Group) : State :=
  putThrough s .hazel (cfg s 0x481005 + 16 * g.number) (bytesOfNat 8 (liveSlot s g) ++ bytesOfNat 8 (shadowSlot s g))

/-- Applied: live and shadow slots exchange roles, updates are counted, the slot table is rewritten (R131, R132). -/
def flipSlots (s : State) : State :=
  (validGroups s.dict.values).foldl (fun t g =>
    let t1 := onLedger t g.number (fun l => { l with
      liveIsOne := if g.number < 4096 then !l.liveIsOne else l.liveIsOne
      updateCount := l.updateCount + 1 })
    if g.number < 4096 then writeSlotEntry t1 g else t1) s

/-- Every stage slot of the step is set to state 0 (Table 5.5). -/
def freeStages (s : State) : State :=
  s.train.sweep.foldl (fun t x => if x.held then t else setStageState t (groupNow t x.group) x.slot 0 x.row) s

/-! ## The staged set and epochs (R46, R234, R332) -/

/-- The entries of an object that written bytes cover. -/
def coveredEntries (key off len : Nat) : List Nat :=
  if len = 0 then []
  else
    let size := elemSize key
    (List.range ((off + len - 1) / size - off / size + 1)).map (fun i => off / size + i)

/-- The sources of the entries that written bytes cover (R337); `start` holds those that start-up gave. -/
def markSources (start : Tab Nat) (t : Tab Nat) (w : Staged) : Tab Nat :=
  (coveredEntries w.key w.offset w.data.length).foldl (fun t i =>
    let k := w.key * 65536 + i % 65536
    tabSet 0 t k (if w.source = 9 then tabGet 0 start k else w.source)) t

/-- The writes that the staged set of this boundary holds: those fixed at the cut. -/
def fixedWrites (s : State) : List Staged :=
  s.dict.staged.filter (fun w => decide (w.applyAt ≠ 0 ∧ w.applyAt ≤ s.train.committed + 2))

/-- A dense group's entry of the slot table is not the one that the values `old` gave it: the table or one of the slots has moved. -/
def entryMoved (old new : Tab Byte) (g : Nat) : Bool :=
  decide (storeNat old 0x481005 0 8 ≠ storeNat new 0x481005 0 8 ∨ (groupIn old g).slot0 ≠ (groupIn new g).slot0 ∨
    (groupIn old g).base2 ≠ (groupIn new g).base2)

/-- A group that becomes valid begins its counts, with slot 0 live (R132); the slot table's entries of dense groups that are new,
or whose entry has moved since the values `old`, are written. -/
def welcomeGroups (s : State) (old : Tab Byte) : State :=
  let before := (validGroups old).map (fun g => g.number)
  (validGroups s.dict.values).foldl (fun t g =>
    let fresh := !before.contains g.number
    let t1 := if fresh then onLedger t g.number (fun _ => GroupLedger.fresh) else t
    if g.number < 4096 ∧ (fresh || entryMoved old s.dict.values g.number) then writeSlotEntry t1 g else t1) s

/-- The parts of the fabric area, the deferral store and the Acorn area that the module lays out as it likes: where the area has
moved from the values `old`, what they hold is undefined (R233, R245, R282). The deferral log, whose layout is given, keeps
its contents. -/
def movedAreas (old new : Tab Byte) : List Run :=
  let area := fun (key : Nat) => (storeNat new key 0 6, storeNat new key 8 4 * 2 ^ 20)
  let fabric := storeNat new 0x500304 0 8
  (if storeNat old 0x500304 0 8 = fabric then [] else [⟨fabric, 0x10000000⟩, ⟨fabric + 0x12000000, 0xE000000⟩]) ++
    [0x500305, 0x600002].flatMap (fun key =>
      if storeNat old key 0 16 = storeNat new key 0 16 then [] else [⟨(area key).1, (area key).2⟩])

/-- Partitions that a staged set configures hold undefined contents, and the lines that they displace leave their sets; a record
whose fields are unchanged keeps its contents (R158). -/
def startPartitions (s : State) (old : List (Nat × Pinned)) : State :=
  let fresh := (pinnedIn s.dict.values).filter (fun e => !old.contains e)
  if fresh = [] then s
  else
    let s1 := { s with mem := fresh.foldl (fun (m : Memory) (e : Nat × Pinned) =>
      forget m (pinnedBase + e.2.start) (pinnedBase + e.2.start + e.2.bytes)) s.mem }
    s1.cache.sets.foldl (fun (t : State) (e : Nat × List Line) => displaceLines e.2.length (limitHints t e.1) e.1) s1

/-- Every set keeps its limit of hinted lines, which hint_ways or a partition has changed (R156, R160). -/
def limitAllHints (s : State) (old : Tab Byte) : State :=
  if storeNat old 0x300201 0 1 = storeNat s.dict.values 0x300201 0 1 ∧ pinnedIn old = pinnedIn s.dict.values then s
  else s.cache.sets.foldl (fun (t : State) (e : Nat × List Line) => limitHints t e.1) s

/-- The staged set takes effect: values, sources, range of k, groups that become valid (R44, R74, R332). -/
def applyStaged (s : State) : State :=
  match s.train.cutConfig with
  | none => s
  | some t =>
    let writes := fixedWrites s
    let s1 := s.onDict (fun d => { d with
      values := t
      source := writes.foldl (markSources d.startSource) d.source
      staged := d.staged.filter (fun w => !decide (w.applyAt ≠ 0 ∧ w.applyAt ≤ s.train.committed + 2)) })
    let s2 := limitAllHints (startPartitions s1 (pinnedIn s.dict.values)) s.dict.values
    let s3 := { s2 with mem := forgetRuns s2.mem (movedAreas s.dict.values t) }
    welcomeGroups (s3.onTrain (fun x => { x with history := recordRange s3 x.history })) s.dict.values

/-- Epoch records take effect: groups, epoch, and streams that restart; packets of earlier epochs are discarded (R231, R232,
R234). -/
def applyEpochs (s : State) (l : List EpochRecord) : State :=
  match l.getLast? with
  | none => s
  | some e =>
    s.onFabric (fun f => { f with
      groups := groupsAfter f.groups (l.flatMap (fun x => x.blocks))
      epoch := e.epoch
      pendingEpochs := f.pendingEpochs.filter (fun x => !l.contains x)
      tx := []
      rx := []
      delivered := f.delivered.filter (fun p => decide (p.epoch = e.epoch))
      rooms := f.rooms.filter (fun x => decide (x.1.epoch = e.epoch))
      reroute := f.reroute.filter (fun h => decide (h.packet.epoch = e.epoch)) })

/-- A slot of a communication group is the same member's as in the groups `old`. -/
def slotRemains (s : State) (old : List CommGroup) (comm slot : Nat) : Bool :=
  match commGroup s comm, old.find? (fun g => g.number == comm) with
  | some g, some h => (memberAt g slot).isSome && decide ((memberAt g slot).map (fun m => m.node) = (memberAt h slot).map (fun m => m.node))
  | _, _ => false

/-- The communication group, the parameter group and the slot that an entry of deferred contributions names. -/
def deferOf (key : Nat) : Nat × Nat × Nat := (key / 2 ^ 25, key / 4096 % 8192, key % 4096)

/-- Deferred contributions whose parameter group or slot the boundary removed are discarded; `old` are the groups before it,
`carrier` the communication group of the step's carrier (R245). -/
def dropRemoved (s : State) (old : List CommGroup) (carrier : Nat) : State :=
  let valid := fun (n : Nat) => (groupNow s n).valid
  let own := fun (comm : Nat) => match old.find? (fun g => g.number == comm) with
    | some g => (ownSlot s g).getD 0
    | none => 0
  s.onFabric (fun f => { f with
    deferred := f.deferred.filter (fun d => valid d.group && slotRemains s old d.comm (own d.comm))
    lastDeferred := f.lastDeferred.filter (fun k => valid (deferOf k).2.1 && slotRemains s old (deferOf k).1 (deferOf k).2.2)
    carrierDeferred := f.carrierDeferred.filter (fun x => slotRemains s old carrier x.1) })

/-! ## Retirements (R15, R212, R214, R215) -/

/-- Forget what the stores of a logical tile hold: another physical tile serves it. -/
def forgetTile (s : State) (n : Nat) : State :=
  let s1 := { s with
    mem := forget s.mem (tileBase + n * 0x200000) (tileBase + n * 0x200000 + 0x180000)
    banks := forget s.banks (bankAt n 0 0) (bankAt (n + 1) 0 0) }
  s1.onResil (fun r => { r with remapped := setAddSorted r.remapped n })

/-- A physical tile is retired: a spare, or the active tile of the highest number, takes its logical number over (R15). -/
def retireTile (s : State) (p : Nat) : State :=
  let k := s.stack
  if k.retired.contains p then s
  else
    let s1 := logRetirements (s.onStack (fun k => { k with
      retired := setAddSorted k.retired p
      spare := setRemove k.spare p
      retiring := setRemove k.retiring p })) [.tile p]
    match k.tileMap.findIdx? (fun q => q == p) with
    | none => s1
    | some n =>
      match s1.stack.spare with
      | q :: rest => forgetTile (s1.onStack (fun k => { k with tileMap := listSet k.tileMap n q, spare := rest })) n
      | [] =>
        let h := k.tileMap.length - 1
        let last := k.tileMap.getD h 0
        let s2 := forgetTile (forgetTile (s1.onStack (fun k => { k with
          tileMap := (if n = h then k.tileMap else listSet k.tileMap n last).take h })) n) h
        if h < logicalTiles s2 then stopModule (raise s2 0x08000108 h) else s2

/-- The sets of a slice leave it: dirty lines are written back, clean ones dropped (R215). -/
def emptySlice (s : State) (i : Nat) : State :=
  let own := s.cache.sets.filter (fun e => decide ((setOf e.1).1 = i))
  (own.flatMap (fun e => e.2)).foldl writeBackNow
    (s.onCache (fun c => { c with sets := c.sets.filter (fun e => decide ((setOf e.1).1 ≠ i)) }))

/-- Some set of a slice would hold more than 16 pinned lines of its own and of the slices it serves. -/
def pinnedTooMany (s : State) (q : Nat) : Bool :=
  (List.range (if q / 4 % 3 = 2 then 6826 else 6827)).any (fun x => decide (16 < pinnedLines s (setAt q x)))

/-- A slice is retired and its proxy chosen, whose sets give up lines for the pinned lines that they take over (R214, R215). -/
def retireSliceNow (s : State) (i : Nat) : State :=
  if tabGet 0 s.stack.slices i = 1 then s
  else
    let s1 := emptySlice s i
    let (k, found) := retireSlice s1.stack i
    let s2 := logRetirements { s1 with stack := { k with sliceRetiring := setRemove k.sliceRetiring i } } [.slice i]
    if found = false then stopModule (raise s2 0x08060809 i)
    else
      let proxy := (setOf (servingSet s2 (setAt i 0))).1
      if pinnedTooMany s2 proxy then stopModule (raise s2 0x0806080A i)
      else (s2.cache.sets.filter (fun e => decide ((setOf e.1).1 = proxy))).foldl (fun (t : State) (e : Nat × List Line) =>
        displaceLines e.2.length (limitHints t e.1) e.1) s2

/-- The entries of the retirement log that degraded and cut interfaces and failed clusters give (R346). -/
def logLosses (s : State) : State :=
  logRetirements s (s.stack.interfaces.map (fun e => if e.2 = 2 then .cut e.1 else .degraded e.1) ++
    s.stack.clusters.map (fun e => .cluster e.1))

/-- Retirements take effect: tiles, then slices, ascending. -/
def applyRetirements (s : State) (tiles slices : NatSet) : State :=
  if tiles = [] ∧ slices = [] then s
  else
    let s1 := (tiles.foldl setAddSorted []).foldl retireTile s
    logLosses ((slices.foldl setAddSorted []).foldl retireSliceNow s1)

/-! ## The deferral log (R246) -/

/-- The 32 bytes of a deferral log entry (Table 9.14). -/
def logEntryBytes (step slot comm group action reason epoch : Nat) : List Byte :=
  bytesOfNat 32 (step + slot * 2 ^ 64 + comm * 2 ^ 76 + group * 2 ^ 84 + action * 2 ^ 97 + reason * 2 ^ 98 + epoch * 2 ^ 128)

/-- Insert a decision (group, slot, comm, action, reason) in ascending order of group, then slot. -/
def insertDecision (x : Nat × Nat × Nat × Nat × Nat) : List (Nat × Nat × Nat × Nat × Nat) → List (Nat × Nat × Nat × Nat × Nat)
  | [] => [x]
  | y :: l => if x.1 * 4096 + x.2.1 ≤ y.1 * 4096 + y.2.1 then x :: y :: l else y :: insertDecision x l

/-- The decisions that the boundary of the step writes: those of its GO records, and the contributions lost in recovery (R292). -/
def decisionsOf (s : State) : List (Nat × Nat × Nat × Nat × Nat) :=
  (s.fabric.decisions ++ s.resil.lostSlots.map (fun (k : Nat) => ((deferOf k).2.1, (deferOf k).2.2, (deferOf k).1, 1, 2))).foldl (fun (l : List (Nat × Nat × Nat × Nat × Nat)) x => insertDecision x l) []

/-- Entries of the deferral log's ring in the fabric area. -/
def logEntries : Nat := 1048576

/-- The address of an entry of the deferral log. -/
def logAt (s : State) (n : Nat) : Nat := cfg s 0x500304 + 0x10000000 + 32 * n

/-- Write one entry of the deferral log. -/
def writeLog (s : State) (step : Nat) (x : Nat × Nat × Nat × Nat × Nat) : State :=
  let s1 := putThrough s .hazel (logAt s s.fabric.logNext) (logEntryBytes step x.2.1 x.2.2.1 x.1 x.2.2.2.1 x.2.2.2.2 s.fabric.epoch)
  s1.onFabric (fun f => { f with logNext := (f.logNext + 1) % logEntries, logTotal := f.logTotal + 1 })

/-! ## Lateness (R248) -/

/-- The root counts the consecutive late steps of a slot of a group, and raises the code at straggle_limit. -/
def countLate (s : State) : State :=
  let late := s.fabric.decisions.foldl (fun (l : NatSet) d => setAdd l (d.2.2.1 * 4096 + d.2.1)) []
  let roots := s.fabric.groups.filter (fun g => decide (rootNode g = ownNode s))
  roots.foldl (fun t g =>
    (heneloSlots g).foldl (fun t slot =>
      let k := g.number * 4096 + slot
      let n := if late.contains k then tabGet 0 t.fabric.lateness k + 1 else 0
      let t1 := t.onFabric (fun f => { f with lateness := tabSet 0 f.lateness k n })
      if n ≠ 0 ∧ n = cfg t 0x500303 then raise t1 0x080A0909 slot else t1) t) s

/-! ## Acorn's records (R279 to R285) -/

/-- The ledger of the groups as LEDGER holds it: number, counts, marks. -/
def ledgerBytes (t : Tab GroupLedger) : List Byte :=
  bytesOfNat 8 t.length ++ t.flatMap (fun e =>
    bytesOfNat 8 e.1 ++ bytesOfNat 8 e.2.updateCount ++ bytesOfNat 8 e.2.zeroRun ++ bytesOfNat 8 e.2.uflowRun
      ++ bytesOfNat 8 (natOfBool e.2.liveIsOne + 2 * natOfBool e.2.silent))

/-- The payload of a LEDGER record: commit record, history, skip counts, groups, and the step's deferral-log entries. -/
def ledgerPayload (s : State) (log : List Byte) : List Byte :=
  bytesOfNat 32 s.train.record.nat ++ bytesOfNat 536 s.train.history.nat ++ bytesOfNat 8 s.train.skipTotal ++ bytesOfNat 8 s.train.skipRun
    ++ ledgerBytes s.train.ledger ++ log

/-- Plane 0 of a group's committed state. -/
def committedBase (s : State) (g : Group) : Nat := if 4096 ≤ g.number then g.slot0 else liveSlot s g

/-- The reads of the six planes of a group's committed state. -/
def committedReads (s : State) (g : Group) : List Bytes × State := readEach .acorn g.planeLen (slotPlanes g (committedBase s g)) s

/-- The six planes of a group's committed state, with their poison (R202). -/
def planesOf (s : State) (g : Group) : List (Byte × Bool) × State :=
  ((committedReads s g).1.flatMap (fun b => b.data), (committedReads s g).2)

/-- The record of a kind that holds the six planes of a group; none while a line of them is held for repair, since no data is
released before that (R200, R298). -/
def planesRecord (s : State) (kind step : Nat) (g : Group) : Option Saved × State :=
  let t := (committedReads s g).2
  (if (committedReads s g).1.any (fun b => b.held) then none else some (markedRecord t kind step g.number (planesOf s g).1), t)

/-- The global number of a local row of a sweep group. -/
def globalRow (s : State) (g row : Nat) : Nat :=
  match bindingOfGroup s g with
  | some b =>
    let r := tableRegion s (bindingNow s b).region
    if r.shards ≤ 1 then row else row * r.shards + r.shard
  | none => row

/-- The DELTA of a group: of a sweep group each touched row's number and planes, of a dense group all planes (Table 11.7). -/
def deltaRecord (s : State) (step : Nat) (g : Group) : Option Saved × State :=
  if g.number < 4096 then planesRecord s 2 step g
  else
    let rows := (s.resil.touched.filter (fun x => decide (x.1 = g.number))).map (fun x => x.2)
    let (l, held, t) := rows.foldl (fun (a : List (Byte × Bool) × Bool × State) row =>
      let (v, u) := readEach .acorn (2 * g.rowLen) ((List.range 6).map (fun p => planeAt g p row)) a.2.2
      (a.1 ++ (bytesOfNat 8 (globalRow s g.number row)).map (fun b => (b, false)) ++ v.flatMap (fun b => b.data),
        a.2.1 || v.any (fun b => b.held), u)) ([], false, s)
    (if held then none else some (markedRecord t 2 step g.number l), t)

/-- Bytes of the row-touched bitmaps, 1 bit per local row of each valid sweep group (R285). -/
def bitmapBytes (s : State) : Nat :=
  ((validGroups s.dict.values).filter (fun g => decide (4096 ≤ g.number))).foldl (fun a g => a + (g.elements + 7) / 8) 0

/-- Bytes of acorn_area that its clients' records and the row-touched bitmaps do not take. -/
def deltaRoom (s : State) : Nat :=
  bitsAt (cfgAt s 0x600002 0 16) 64 32 * 2 ^ 20 - s.resil.mirrored.foldl (fun a r => a + ceil64 (64 + r.payload.length)) 0 - bitmapBytes s

/-- The DELTA, or the BASE that was asked for, of every member-specific group (R285). -/
def saveDelta (s : State) (step : Nat) : State :=
  if deltaDue s step = false then s
  else
    let groups := (validGroups s.dict.values).filter (fun g => memberSpecific s g.number)
    let base := s.resil.baseNext
    let (recs, s1) := groups.foldl (fun (a : List Saved × State) g =>
      let (r, t) := if base then planesRecord a.2 1 step g else deltaRecord a.2 step g
      (a.1 ++ r.toList.map (fun x => { x with fromStep := if base then step else s.resil.deltaStep + 1 }), t)) ([], s)
    let saved := fun (g : Nat) => recs.any (fun r => decide (r.group = g))
    let bytes := recs.foldl (fun a r => a + ceil64 (64 + r.payload.length)) 0
    if base = false ∧ deltaRoom s < bytes then raise s1 0x080E0B0B step
    else recs.foldl (fun t r => saveRecord (placeIn t .acorn 0x600002 (Config.areaPlace 2 [r.group, step]) r.marked) r) (s1.onResil (fun r => { r with
      touched := r.touched.filter (fun x => !saved x.1)
      deltaStep := step
      baseNext := false }))

/-- Objects of the slot image: RW and RWS, but for the front-end's connections, regions, targets and queues, and buddy (Table
11.5). -/
def inImage (key : Nat) : Bool :=
  match objFind key with
  | some o => decide ((o.access = 2 ∨ o.access = 3) ∧ ¬ (0x580200 ≤ key ∧ key < 0x581200) ∧ key ≠ 0x600001)
  | none => false

/-- The slot image: every byte that differs from its factory default, as an entry of the form of Table 14.6a. -/
def imagePayload (s : State) : List Byte :=
  (s.dict.values.filter (fun e => inImage (e.1 / 2 ^ 32))).flatMap (fun e =>
    let key := e.1 / 2 ^ 32
    bytesOfNat 16 (key / 256 + key % 256 * 2 ^ 16 + e.1 % 2 ^ 32 * 2 ^ 32 + 2 ^ 64) ++ padTo 8 [e.2])

/-- Send the slot image to the buddy if it has changed since it was last sent. -/
def saveImage (s : State) : State :=
  let l := imagePayload s
  if hasBuddy s = false ∨ l = s.resil.imageSent then s
  else saveRecord (s.onResil (fun r => { r with imageSent := l })) (savedRecord s 7 s.train.committed noGroup l)

/-- Acorn saves the state of a committed step: LEDGER, a GENERATION of each mirror-method group, DELTA, slot image. -/
def saveStep (s : State) (step : Nat) (log : List Byte) : State :=
  let s1 := saveRecord s (savedRecord s 5 step noGroup (ledgerPayload s log))
  let s2 := ((validGroups s.dict.values).filter (fun g => saveMethod s g.number == 1)).foldl (fun t g =>
    match planesRecord t 6 step g with
    | (some r, u) => saveRecord u r
    | (none, u) => u) s1
  saveImage (saveDelta s2 step)

/-! ## The end of a step -/

/-- The work of a step is over: its collectives, its channels' halts, its bindings, its tiles' flags and counters and its TSV
counts are gone (R92, R112, R210). -/
def clearStep (s : State) : State :=
  let s1 := s.onTrain (fun t => { t with
    stepState := 0
    localFault := 0
    faulted := false
    closed := false
    work := []
    coefWritten := false
    cut := false
    cutConfig := none
    cutEpochs := []
    ownSummary := none
    reducedSummary := none
    decision := none
    sweep := []
    sweepBegun := false
    retireCut := false
    cutRetire := []
    cutSlices := []
    escape := false
    withheld := false
    lateFault := false
    phasePeriods := [] })
  let s2 := s1.onFabric (fun f => { f with
    colls := f.colls.filter (fun c => decide (currentStep s ≤ c.step))
    newDeferred := []
    decisions := [] })
  let s3 := s2.onCracker (fun k => { k with
    channels := k.channels.foldl (fun (t : Tab Channel) (e : Nat × Channel) => tabSet Channel.idle t e.1 { e.2 with halt := 0 }) []
    bindings := [] }) |>.onStack (fun k => { k with tsvCounts := [] })
  let s4 := { s3 with tiles := s3.tiles.foldl (fun (t : Tab Tile) (e : Nat × Tile) => tabSet Tile.idle t e.1 { e.2 with nonfinite := false, counters := [] }) [] }
  (s4.onFront (fun f => { f with carrierAt := none })).onResil (fun r => { r with
    twinSent := false
    twinPartner := none
    twinLateRaised := false
    lostSlots := [] })

/-- The commit record of the step (Table 2.6). -/
def commitRecordOf (s : State) : CommitRecord :=
  let (nf, ob) := s.train.decision.getD (true, true)
  let epochs := s.fabric.pendingEpochs.filter (fun e => s.train.cutEpochs.contains e.epoch)
  let values := s.train.cutConfig.getD s.dict.values
  let groups := if s.train.cutConfig.isSome then groupsAfter s.fabric.groups (epochs.flatMap (fun e => e.blocks)) else s.fabric.groups
  { step := currentStep s
    applied := !(nf || ob)
    configApplied := s.train.cutConfig.isSome
    nonfinite := nf
    overBound := ob
    digestMismatch := match s.train.reducedSummary with
      | some r => !r.agree
      | none => false
    deferrals := (decisionsOf s).length
    epoch := s.fabric.epoch
    digest := digestShort (configDigest values groups) }

/-- Effects that follow from the commit record, up to the staged set: slots, counts, history (Table 2.7). -/
def commitOutcome (s : State) (r : CommitRecord) : State :=
  let faulted := match s.train.reducedSummary with
    | some x => x.fault
    | none => s.train.faulted
  let s1 := freeStages (if r.applied then flipSlots s else s)
  let (h, low) := historyAfter s1 r
  let s2 := if low then raise s1 0x05000301 r.step else s1
  let s3 := s2.onTrain (fun t => { t with
    record := r
    history := h
    skipTotal := if r.applied then t.skipTotal else t.skipTotal + 1
    skipRun := if r.applied then 0 else t.skipRun + 1 })
  if faulted then s3 else updateSilent s3

/-- The deferral state that the next step inherits (R135, R244, R245). -/
def carryDeferred (s : State) (step : Nat) : State :=
  s.onFabric (fun f => { f with
    lastDeferred := f.newDeferred
    deferred := f.deferred.filter (fun d => decide (d.step = step))
    carrierDeferred := match carrierColl s with
      | some c => c.summaries.filter (fun x => decide (c.decisions.getD x.1 0 = 1))
      | none => [] })

/-- A digest, leave or evict packet of the partner for the current step (R303, R304). -/
def takeTwinNow (s : State) (kind step : Nat) (body : List Byte) : State :=
  if paired s = false then s
  else if kind = 0x10 then compareTwins (s.onResil (fun r => { r with twinPartner := some (BitVec.ofNat 512 (natOfBytes (body.take 64))) }))
  else if kind = 0x11 then raise (s.onResil (fun r => { r with twinState := 1 })) 0x080E0B0A step
  else raise (s.onResil (fun r => { r with twinState := 2 })) 0x080E0B0E step

/-- The partner's packets of a step that has now become the current one (R304). -/
def takeEarlyTwin (s : State) : State :=
  let now := s.resil.twinEarly.filter (fun x => decide (x.2.1 = currentStep s))
  now.foldl (fun t x => takeTwinNow t x.1 x.2.1 x.2.2)
    (s.onResil (fun r => { r with twinEarly := r.twinEarly.filter (fun x => decide (currentStep s < x.2.1)) }))

/-- The boundary of the current step, taking `periods` reference periods (R47 to R51). -/
def runBoundary (s : State) (periods : Nat) : State :=
  let step := currentStep s
  let r := commitRecordOf s
  let l := decisionsOf s
  let log := l.flatMap (fun x => logEntryBytes step x.2.1 x.2.2.1 x.1 x.2.2.2.1 x.2.2.2.2 s.fabric.epoch)
  let tiles := s.train.cutRetire
  let slices := s.train.cutSlices
  let epochs := if s.train.cutConfig.isSome then s.fabric.pendingEpochs.filter (fun e => s.train.cutEpochs.contains e.epoch) else []
  let s1 := countLate (commitOutcome s r)
  let s2 := l.foldl (fun t x => writeLog t step x) s1
  let carrier := match carrierColl s2 with
    | some c => c.key.comm
    | none => jobGroup s2
  let s3 := dropRemoved (applyEpochs (applyStaged (carryDeferred s2 step)) epochs) s2.fabric.groups carrier
  let s4 := applyRetirements s3 tiles slices
  let s5 := s4.onTrain (fun t => { t with
    phaseStep := step
    phaseNs := (tabCount t.phasePeriods 5 periods).map (fun e => (e.1, periodsToNs e.2))
    escapedStep := if t.escapedStep = some step then none else t.escapedStep
    committed := step
    boundarySeq := t.boundarySeq + 2
    boundaryNs := periodsToNs periods
    started := true })
  let s6 := releaseAll (clearStep s5) step
  let s7 := (saveStep s6 step log).onResil (fun r => { r with twinExports := decide (r.twinState = 1), fills := [] })
  takeEarlyTwin (serveHeld (settleAll s7))

end Sys2Proof.Machine
end

