-- ==== Sys2Proof/Machine/Epochs.lean ====
section
/-! DEFINITION. Epoch records (R234, R235): reading and checking the bytes of Table 9.10, and accepting a record for its boundary. -/

namespace Sys2Proof.Machine

open Sys2Proof

/-- A position lies within torus_dims. -/
def inTorus (s : State) (n : BitVec 24) : Bool := (List.range 3).all (fun d => decide (coord (nodePosition n) d < extent s d))

/-- The slot entries of a block, `n` of them; none when one has a reserved field set. -/
def slotEntries : Nat → List Byte → Option (List Member)
  | 0, _ => some []
  | n + 1, l =>
    let v := natOfBytes (l.take 8)
    if bitsAt v 26 38 ≠ 0 ∨ bitsAt v 24 2 = 3 then none
    else (slotEntries n (l.drop 8)).map (fun r => ⟨BitVec.ofNat 24 (bitsAt v 0 24), bitsAt v 24 2⟩ :: r)

/-- The group blocks of an epoch record, `n` of them, and nothing after them; none when one is malformed. -/
def groupBlocks : Nat → List Byte → Option (List GroupBlock)
  | 0, l => if l = [] then some [] else none
  | n + 1, l =>
    let v := natOfBytes (l.take 16)
    let m := bitsAt v 9 13
    if l.length < 16 ∨ bitsAt v 34 94 ≠ 0 then none
    else if bitAt v 8 = false then (groupBlocks n (l.drop 16)).map (fun r => ⟨bitsAt v 0 8, 0, none⟩ :: r)
    else if m = 0 ∨ 4096 < m ∨ m ≤ bitsAt v 22 12 ∨ l.length < 16 + 8 * m then none
    else
      match slotEntries m (l.drop 16), groupBlocks n (l.drop (16 + 8 * m)) with
      | some e, some r =>
        if (e.map (fun x => x.generation)).getD (bitsAt v 22 12) 0 = 2 then some (⟨bitsAt v 0 8, bitsAt v 22 12, some e⟩ :: r) else none
      | _, _ => none

/-- A block names a node twice, or a Henelo node outside torus_dims. -/
def blockNodesBad (s : State) (b : GroupBlock) : Bool :=
  match b.members with
  | none => false
  | some l => decide ((l.map (fun m => m.node)).eraseDups.length ≠ l.length) ||
      l.any (fun m => decide (m.generation = 2) && !inTorus s m.node)

/-- A block has a generation below the profile in force (R77). -/
def blockTooOld (s : State) (b : GroupBlock) : Bool :=
  match b.members with
  | none => false
  | some l => l.any (fun m => decide (m.generation < profileNow s))

/-- The blocks of an epoch record with number `epoch`, or the code with which it is refused (R235). `tail` allows no block. -/
def epochBlocks (s : State) (epoch : Nat) (tail : Bool) (l : List Byte) : Except Code (List GroupBlock) :=
  let v := natOfBytes (l.take 16)
  if l.length < 16 then .error 0x01100902
  else if bitsAt v 0 32 ≠ epoch then .error 0x01100901
  else if bitsAt v 40 88 ≠ 0 ∨ (bitsAt v 32 8 = 0 ∧ tail = false) then .error 0x01100902
  else
    match groupBlocks (bitsAt v 32 8) (l.drop 16) with
    | none => .error 0x01100902
    | some blocks =>
      if blocks.any (blockNodesBad s) then .error 0x01100903
      else if blocks.any (blockTooOld s) then .error 0x01100402
      else .ok blocks

/-- The step after the boundary at which a pending epoch record takes effect. -/
def epochEffective (s : State) (e : EpochRecord) : Nat :=
  if e.applyAt ≠ 0 then e.applyAt else if s.train.cutEpochs.contains e.epoch then s.train.committed + 2 else nextCut s + 1

/-- A write to epoch_write with an apply-at step (0 for none): the record joins its boundary, or the code of refusal (R234, R235). -/
def acceptEpoch (s : State) (l : List Byte) (applyAt : Nat) : Except Code State :=
  let next := (s.fabric.pendingEpochs.foldl (fun a e => max a e.epoch) s.fabric.epoch) + 1
  let effective := if applyAt = 0 then nextCut s + 1 else applyAt
  if applyAt ≠ 0 ∧ applyAt ≤ nextCut s then .error 0x01100201
  else if applyAt ≠ 0 ∧ s.train.committed + 2 < applyAt ∧ 256 ≤ futureWrites s then .error 0x01100203
  else
    match epochBlocks s next false l with
    | .error c => .error c
    | .ok blocks =>
      if s.fabric.pendingEpochs.any (fun e => decide (effective < epochEffective s e)) then .error 0x01100901
      else .ok (s.onFabric (fun f => { f with pendingEpochs := f.pendingEpochs ++ [⟨next, applyAt, blocks⟩] }))

end Sys2Proof.Machine
end

