-- ==== Sys2Proof/Machine/FrontEnd.lean ====
section
/-! DEFINITION. The front-end (chapter 10): ports, neighbour requests and pauses (R252, R253, R273), RDMA (R255 to R259), connections
(R254), doorbells (R262, R263), exports (R271, R272), and direct accesses of the home slices (R154). -/

namespace Sys2Proof.Machine

open Sys2Proof

/-! ## Ports -/

/-- Line rate of a connection's port in Mb/s (Table 10.1). -/
def lineRate (s : State) (conn : Nat) : Nat := if cfgElem s 0x580001 (connPort s conn) = 2 then 400000 else 800000

/-- The connections of a port that are ready. -/
def readyConns (s : State) (port : Nat) : List Nat :=
  (s.front.conns.filter (fun c => decide (c.2.state = 1 ∧ connPort s c.1 = port))).map (fun c => c.1)

/-- Every ready connection of a port enters error (R254, R273). -/
def portError (s : State) (port : Nat) : State := (readyConns s port).foldl connError s

/-- Transmission on a port's paused priority resumes (R252). -/
def resumePort (s : State) (port : Nat) : State :=
  let l := (s.front.heldOut.filter (fun x => x.1 == port)).map (fun x => x.2)
  l.foldl emit (s.onFront (fun f => { f with
    paused := setRemove f.paused port
    heldOut := f.heldOut.filter (fun x => !(x.1 == port)) }))

/-- A port's mode was written: it retrains, and mode 0 puts its ready connections in error (R252, R254). -/
def retrainPort (s : State) (port : Nat) : State :=
  let s1 := s.onFront (fun f => { f with portUp := tabSet 0 f.portUp port 0 })
  if cfgElem s 0x580001 port = 0 then portError s1 port else s1

/-- A port is reset: its PHY, MAC and RoCEv2 state go, its ready connections enter error (R273). -/
def resetFePort (s : State) (port : Nat) : State :=
  portError (s.onFront (fun f => { f with
    portUp := tabSet 0 f.portUp port 0
    paused := setRemove f.paused port
    heldOut := f.heldOut.filter (fun x => !(x.1 == port)) })) port

/-- FE_LINK_DOWN: a front-end port loses its link; connections keep their state (R252, R254). -/
def execFeLinkDown (port : Nat) (s : State) : Host.Outcome State Fault Refusal :=
  done s (s.onFront (fun f => { f with portUp := tabSet 0 f.portUp port 0 }))

/-- FE_LINK_UP: training of a front-end port that is not off completes (R252). -/
def execFeLinkUp (port : Nat) (s : State) : Host.Outcome State Fault Refusal :=
  if cfgElem s 0x580001 port = 0 then .next s
  else done s (s.onFront (fun f => { f with portUp := tabSet 0 f.portUp port 1 }))

/-- PRIORITY_FLOW_CONTROL_FRAME: a pause frame acts on the one priority that fe_pfc names, if it is enabled; zero quanta resume it
(R252). -/
def execPriorityFlowControlFrame (port priority quanta : Nat) (s : State) : Host.Outcome State Fault Refusal :=
  let v := cfgElem s 0x580006 port
  if bitAt v 7 = false ∨ v % 8 ≠ priority then .next s
  else if quanta = 0 then done s (resumePort s port)
  else done s (s.onFront (fun f => { f with paused := setAdd f.paused port }))

/-- An address as a number from its bytes, first byte most significant. -/
def addressOf (l : List Byte) : Nat := l.foldl (fun a b => a * 256 + b.toNat) 0

/-- The IPv6 link-local address that RFC 4862 forms from a MAC address (R327). -/
def linkLocal (mac : Nat) : Nat :=
  0xFE80 * 2 ^ 112 + ((mac / 2 ^ 24) ^^^ 0x020000) * 2 ^ 40 + 0xFFFE * 2 ^ 24 + mac % 2 ^ 24

/-- The addresses and the MAC of a port: front-end ports 0 and 1, management port 2 (Table 10.18, R327). -/
def portAddresses (s : State) (port : Nat) (ipv6 : Bool) : List Nat × Nat :=
  if port < 2 then
    (if ipv6 then [addressOf (cfgBytes s 0x580005 (16 * port) 16)] else [cfgElem s 0x580004 port], cfgElem s 0x580003 port % 2 ^ 48)
  else
    (if ipv6 then [addressOf (cfgBytes s 0x110203 0 16), linkLocal s.flash.mgmtMac] else [cfg s 0x110202], s.flash.mgmtMac)

/-- NEIGHBOR_REQUEST: an ARP or neighbour request for one of a port's own addresses is answered; address zero is none (R253,
R327). -/
def execNeighborRequest (port : Nat) (ipv6 : Bool) (addr : BitVec 128) (s : State) : Host.Outcome State Fault Refusal :=
  let (own, mac) := portAddresses s port ipv6
  if addr ≠ 0 ∧ own.contains addr.toNat then done s (emit s (.neighborReply port mac)) else .next s

/-! ## Checks of requests (R255, R256) -/

/-- A region record (Table 10.4). -/
structure RdmaRegion where
  base : Nat
  size : Nat
  rkey : Nat
  valid : Bool
  rd : Bool
  wr : Bool
  oneConn : Bool
  conn : Nat
  deriving DecidableEq, Repr

/-- The region record that 32 bytes hold. -/
def rdmaRegionOf (v : Nat) : RdmaRegion :=
  ⟨bitsAt v 0 48, bitsAt v 64 48, bitsAt v 128 32, bitAt v 160, bitAt v 161, bitAt v 162, bitAt v 163, bitsAt v 164 10⟩

/-- The valid regions in force. -/
def rdmaRegions (s : State) : List RdmaRegion :=
  ((listedElems s.dict.values 0x580301).map (fun i => rdmaRegionOf (cfgElem s 0x580301 i))).filter (fun r => r.valid)

/-- The code with which a request is refused (R256, R360); none: it passes. -/
def requestCode (s : State) (conn rkey addr len : Nat) (write : Bool) : Option Code :=
  let bad := fun (lo hi : Nat) => decide (addr < lo ∨ hi < addr + len)
  if rkey = 1 then if !write || bad doorbellBase 0x030000040000 then some 0x020C0106 else none
  else if rkey = 2 then if write || bad mirrorBase 0x030011000000 then some 0x020C0106 else none
  else if s.boot.testState ≠ 0 then some 0x020C0106
  else
    match (rdmaRegions s).find? (fun r => r.rkey == rkey) with
    | none => some 0x020C0106
    | some r =>
      if (r.oneConn = true ∧ r.conn ≠ conn) ∨ (if write then r.wr else r.rd) = false ∨ bad r.base (r.base + r.size) = true then
        some 0x020C0106
      else
        match accessDetail s (.remote conn) write addr len with
        | some d => some (codeOf 2 0x0C d)
        | none => none

/-- Answer a request with a NAK: a Remote Operational Error or a Remote Access Error; the connection stays ready (R256). The code
of an access that R26 forbids is raised. -/
def sendNak (s : State) (conn : Nat) (operational : Bool) (code : Code) : State :=
  let s0 := if codeClass code = 2 ∧ bitsAt code.toNat 8 8 = 1 then raise s code 0 else s
  let s1 := onConn s0 conn (fun c => { c with fault := code })
  sendOn (s1.onFront (fun f => { f with naks := tabCount f.naks (connPort s conn) 1 })) conn (.rdmaNak conn operational)

/-! ## Writes (R257, R258, R262) -/

/-- A write of a doorbell page: an aligned 8-byte write of offset 0 or 8 with bits [63:32] zero waits for its ordinal, any other
is ignored and counted for each page it touches (R262). -/
def writeDoorbell (s : State) (conn addr : Nat) (l : List Byte) : State :=
  let off := (addr - doorbellBase) % 0x1000
  let q := (addr - doorbellBase) / 0x1000
  let v := natOfBytes l
  if l.length = 8 ∧ (off = 0 ∨ off = 8) ∧ v < 2 ^ 32 then
    onConn s conn (fun c => { c with doorbells := c.doorbells ++ [⟨q, off, v⟩] })
  else if l = [] then s
  else
    let n := (addr - doorbellBase + l.length - 1) / 0x1000 - q + 1
    s.onFront (fun f => { f with ignored := (List.range n).foldl (fun t i => tabCount t (q + i) 1) f.ignored })

/-- Reference periods in 50 µs, the shortest time between two CNPs of a connection (R253). -/
def cnpPeriods : Nat := 7813

/-- A CE-marked packet arrives: one CNP is returned per connection per 50 µs (R253). -/
def noteCe (s : State) (conn : Nat) (ce : Bool) : State :=
  let due := match (connOf s conn).cnpAt with
    | some t => decide (t + cnpPeriods ≤ s.power.refPeriods)
    | none => true
  if ce && due then
    let s1 := onConn s conn (fun c => { c with cnpAt := some s.power.refPeriods })
    sendOn (s1.onFront (fun f => { f with cnpsSent := tabCount f.cnpsSent (connPort s conn) 1 })) conn (.cnp conn)
  else s

/-- RDMA_WRITE: a write is checked at its first packet, acknowledged, and handed on to become visible later (R256 to R258). -/
def execRdmaWrite (origin : RdmaOrigin) (rkey : BitVec 32) (addr : BitVec 64) (bytes : List Byte) (s : State) :
    Host.Outcome State Fault Refusal :=
  if (connOf s origin.conn).state ≠ 1 then .next s
  else
    let t := noteCe s origin.conn origin.ce
    match requestCode s origin.conn rkey.toNat addr.toNat bytes.length true with
    | some code => done s (sendNak t origin.conn false code)
    | none =>
      let s1 := t.onFront (fun f => { f with writeBytes := tabCount f.writeBytes (connPort s origin.conn) bytes.length })
      let s2 := sendOn s1 origin.conn (.rdmaAck origin.conn)
      if rkey = 1 then done s (writeDoorbell s2 origin.conn addr.toNat bytes)
      else if bytes = [] then done s s2
      else done s (onConn s2 origin.conn (fun c => { c with unseen := c.unseen ++ [⟨addr.toNat, bytes⟩] }))

/-- A write's merge into a word was refused: code and event, and the first flush read whose hold covers the write is told (R257). -/
def mergeRefused (s : State) (conn addr : Nat) : State :=
  let mark : List HeldRead → List HeldRead × Bool := fun l => match l.findIdx? (fun h => decide (0 < h.writes)) with
    | some i => (listSet l i { listGet ⟨0, 0, 0, 0, false⟩ l i with failed := true }, true)
    | none => (l, false)
  raise (onConn s conn (fun c =>
    let (l, told) := mark c.held
    { c with fault := 0x020C0801, held := l, mergeFailed := c.mergeFailed || !told })) 0x020C0801 addr

/-- Place `n` words of a write from word `w` up (R257). The flag says that a word of saved state is held for repair. -/
def placeWords (conn a : Nat) (l : List (Byte × Bool)) : Nat → State → Nat → State × Bool
  | 0, s, _ => (s, false)
  | n + 1, s, w =>
    let (s1, refused, held) := writeWords 1 s w a l
    let s2 := if refused then mergeRefused s1 conn (8 * w) else s1
    let (s3, h) := placeWords conn a l n s2 (w + 1)
    (s3, held || h)

/-- The oldest write of a connection becomes visible, unless a word of it is held for repair (R258). -/
def placeUnseen (s : State) (conn : Nat) : State × Bool :=
  match (connOf s conn).unseen with
  | [] => (s, true)
  | u :: _ =>
    let (s1, held) := placeWords conn u.addr (u.bytes.map (fun b => (b, false)))
      ((u.addr + u.bytes.length + 7) / 8 - u.addr / 8) (lookupTags s u.addr u.bytes.length) (u.addr / 8)
    let s2 := accessSlices (disturb s1 [⟨u.addr, u.bytes.length⟩]) (.remote conn) u.addr u.bytes.length true
    if held then (s2, false)
    else (onConn s2 conn (fun c => { c with
      unseen := c.unseen.drop 1
      held := c.held.map (fun h => { h with writes := h.writes - 1 }) }), true)

/-- The `n` oldest writes of a connection become visible. The flag says that all did. -/
def placeAll : Nat → State → Nat → State × Bool
  | 0, s, _ => (s, true)
  | n + 1, s, conn =>
    let (s1, ok) := placeUnseen s conn
    if ok then placeAll n s1 conn else (s1, false)

/-! ## Doorbells (R262, R263) -/

/-- The oldest doorbell write of a connection takes the next ordinal and acts. -/
def takeDoorbell (s : State) (conn : Nat) : State :=
  match (connOf s conn).doorbells with
  | [] => s
  | d :: _ =>
    let n := s.front.doorbellOrdinal + 1
    let s1 := onConn (s.onFront (fun f => { f with doorbellOrdinal := n })) conn (fun c => { c with
      doorbells := c.doorbells.drop 1
      held := c.held.map (fun h => { h with doorbells := h.doorbells - 1 }) })
    if d.offset = 0 then postCount s1 d.queue d.value n else consumeCount s1 d.queue d.value

/-- The `n` oldest doorbell writes of a connection take their ordinals. -/
def takeDoorbells : Nat → State → Nat → State
  | 0, s, _ => s
  | n + 1, s, conn => takeDoorbells n (takeDoorbell s conn) conn

/-- POST_COUNT: the oldest doorbell write of a connection, a post_count, is processed (R262, R263). -/
def execPostCount (conn : Nat) (s : State) : Host.Outcome State Fault Refusal :=
  match (connOf s conn).doorbells with
  | d :: _ => if d.offset = 0 then done s (takeDoorbell s conn) else .next s
  | [] => .next s

/-- CQ_CONSUMED: the oldest doorbell write of a connection, a cq_consumed, is processed (R262, R263). -/
def execCqConsumed (conn : Nat) (s : State) : Host.Outcome State Fault Refusal :=
  match (connOf s conn).doorbells with
  | d :: _ => if d.offset = 8 then done s (takeDoorbell s conn) else .next s
  | [] => .next s

/-! ## Reads (R256, R259) -/

/-- Bytes of a response packet of a connection (Table 10.3). -/
def pathMtu (s : State) (conn : Nat) : Nat := 128 * 2 ^ bitsAt (cfgElem s 0x580201 conn) 56 3

/-- The code of a read's first bad word: poison, or an uncorrectable word. -/
def badWordCode (s : State) (a : Nat) : Code :=
  match readWord s (a / 8) with
  | (.error, _) => 0x020C0801
  | _ => 0x020C0802

/-- A line that the read touches belongs to a group whose contents are lost, so that its repair never comes (R298). -/
def onLostGroup (s : State) (a len : Nat) : Bool :=
  (validGroups s.dict.values).any (fun g => s.prot.lostGroups.contains g.number &&
    (let base := if 4096 ≤ g.number then g.slot0 else liveSlot s g
     decide (base < a + len ∧ a < base + g.planeBytes)))

/-- Serve a read (R256): its data, or up to a bad word the packets before it. The flag says that the response waits for the repair
of a word of saved state. -/
def serveRead (s : State) (conn addr len : Nat) : State × Bool :=
  let count := fun (t : State) (n : Nat) => t.onFront (fun f => { f with readBytes := tabCount f.readBytes (connPort t conn) n })
  if regionOf addr = some .mirror then
    (sendOn (count s len) conn (.rdmaData conn ((List.range len).map (fun i => mirrorByte s (addr - mirrorBase + i)))), false)
  else
    let (b, s1) := readThrough s (.remote conn) addr len
    if b.held ∧ onLostGroup s1 addr len then (sendNak s1 conn true 0x020C0801, false)
    else if b.held then (s1, true)
    else
      match b.data.findIdx? (fun x => x.2) with
      | none => (sendOn (count s1 len) conn (.rdmaData conn b.bytes), false)
      | some i =>
        let code := badWordCode s1 (addr + i)
        let sent := i / pathMtu s conn * pathMtu s conn
        if sent = 0 then (sendNak s1 conn true code, false)
        else
          let s2 := onConn (sendOn (count s1 sent) conn (.rdmaData conn (b.bytes.take sent))) conn (fun c => { c with fault := code })
          (connError s2 conn, false)

/-- RDMA_READ: a read is checked; one of length zero or of the status mirror is answered at once, a flush read is held (R256,
R259). -/
def execRdmaRead (origin : RdmaOrigin) (rkey : BitVec 32) (addr : BitVec 64) (length : Nat) (s : State) :
    Host.Outcome State Fault Refusal :=
  if (connOf s origin.conn).state ≠ 1 then .next s
  else
    let t := noteCe s origin.conn origin.ce
    match requestCode s origin.conn rkey.toNat addr.toNat length false with
    | some code => done s (sendNak t origin.conn false code)
    | none =>
      if length = 0 then done s (sendOn t origin.conn (.rdmaData origin.conn []))
      else if rkey = 2 then done s (serveRead t origin.conn addr.toNat length).1
      else
        done s (onConn t origin.conn (fun c => { c with
          held := c.held ++ [⟨addr.toNat, length, c.unseen.length, c.doorbells.length, c.mergeFailed⟩]
          mergeFailed := false }))

/-- FLUSH_READ_RELEASE: the writes that the oldest held flush read covers become visible, the doorbells take their ordinals, and
the read is served; one whose hold covers a refused merge is answered with an error (R257, R259). -/
def execFlushReadRelease (conn : Nat) (s : State) : Host.Outcome State Fault Refusal :=
  let c := connOf s conn
  match c.held with
  | [] => .next s
  | h :: _ =>
    if c.state ≠ 1 then .next s
    else
      let (s1, ok) := placeAll h.writes s conn
      if ok = false then done s s1
      else
        let s2 := takeDoorbells h.doorbells s1 conn
        let failed := match (connOf s2 conn).held with
          | x :: _ => x.failed
          | [] => false
        let pop := fun (t : State) => onConn t conn (fun c => { c with held := c.held.drop 1 })
        if failed then done s (sendNak (pop s2) conn true 0x020C0801)
        else
          let (s3, wait) := serveRead s2 conn h.addr h.length
          if wait then done s s3
          else done s ((pop s3).onFront (fun f => { f with flushReads := f.flushReads + 1 }))

/-! ## Congestion and retries (R253, R254) -/

/-- CNP_RECEIVE: the egress rate halves, down to 1 Gb/s (R253). -/
def execCnpReceive (conn : Nat) (s : State) : Host.Outcome State Fault Refusal :=
  if (connOf s conn).state ≠ 1 then .next s
  else
    let s1 := s.onFront (fun f => { f with cnpsReceived := tabCount f.cnpsReceived (connPort s conn) 1 })
    done s (onConn s1 conn (fun c => { c with rateMbps := max 1000 (c.rateMbps / 2) }))

/-- EGRESS_RATE_RISE: the egress rate rises by 5% of line rate, up to it (R253). -/
def execEgressRateRise (conn : Nat) (s : State) : Host.Outcome State Fault Refusal :=
  let line := lineRate s conn
  if (connOf s conn).state ≠ 1 then .next s
  else done s (onConn s conn (fun c => { c with rateMbps := min line (c.rateMbps + line / 20) }))

/-! ## Connections (R254) -/

/-- The record of a connection has its valid bit set. -/
def connValid (s : State) (conn : Nat) : Bool := bitAt (cfgElem s 0x580201 conn) 0

/-- Enable a connection, at its port's line rate; a stopped export restarts (R254, R272). -/
def enableConn (s : State) (conn : Nat) : Except Code State :=
  if (connOf s conn).state ≠ 0 ∨ connValid s conn = false then .error 0x01100A01
  else .ok (restartExports (onConn s conn (fun c => { c with state := 1, retriesUsed := 0, rateMbps := lineRate s conn })) conn)

/-- Reset a connection: requests in flight are discarded; a write that was acknowledged is carried out (R254, R256). -/
def resetConn (s : State) (conn : Nat) : State :=
  stopExports (onConn (dropOutputs s conn) conn (fun c => { c with
    state := 0, held := [], mergeFailed := false, retriesUsed := 0, cnpAt := none })) conn false

/-- A write of conn_control (R254). -/
def connControl (s : State) (v : Nat) : Except Code State :=
  if bitsAt v 10 4 ≠ 0 ∨ 1 < bitsAt v 14 2 then .error 0x01000001
  else if bitsAt v 14 2 = 1 then enableConn s (bitsAt v 0 10)
  else .ok (resetConn s (bitsAt v 0 10))

/-- A write of queue_control (R261); no queue is enabled in a test state (R360). -/
def queueControl (s : State) (v : Nat) : Except Code State :=
  if bitsAt v 6 2 ≠ 0 ∨ bitsAt v 10 6 ≠ 0 ∨ 1 < bitsAt v 8 2 then .error 0x01000001
  else if bitsAt v 8 2 = 1 then if s.boot.testState ≠ 0 then .error 0x01100E10 else enableQueue s (bitsAt v 0 6)
  else .ok (disableQueue s (bitsAt v 0 6))

/-! ## Exports (R271, R272) -/

/-- The bytes of an export's source, with the event of a word that is poisoned or uncorrectable. The flag says that a word of
saved state is held for repair. -/
def exportData (s : State) (x : Export) : List Byte × State × Bool :=
  if x.entry.isNone then (x.payload, s, false)
  else
    let (b, s1) := readThrough s .hazel x.source x.length
    let s2 := if b.error then raise s1 0x020C0801 x.source
      else if b.poisoned then raise s1 0x020C0802 x.source else s1
    (b.bytes, s2, b.held)

/-- Send what the present event of an export consists of, of its data what is not acknowledged (Table 10.17). The flag says that
it waits for a repair. -/
def exportSend (s : State) (x : Export) : State × Bool :=
  let t := targetNow s x.target
  match x.event with
  | 0 => (egressSend s x x.trailerAt (trailerBytes x 1), false)
  | 1 =>
    let (l, s1, held) := exportData s x
    if held then (s1, true) else (egressSend s1 x (x.dstOffset + x.acked) (l.drop x.acked), false)
  | 2 => (sendOn s t.conn (.egressRead t.conn (t.va + x.trailerAt) t.rkey), false)
  | 3 => (egressSend s x x.trailerAt (trailerBytes x 2), false)
  | _ => (s, false)

/-- EXPORT: an export entry is dispatched to its connection (R271). -/
def execExportEntry (queue seq : Nat) (s : State) : Host.Outcome State Fault Refusal :=
  match entryAt s queue seq with
  | none => .next s
  | some e =>
    if e.kind ≠ 5 ∨ dispatchable s queue e = false then .next s
    else
      let s1 := onEntry s queue seq (fun e => { e with status := 1 })
      done s (addExport s1
        ⟨some (queue, seq), 0, e.field 384 6, e.field 256 48, e.field 320 40, e.field 416 32, e.field 448 40, e.step, 5, 0, []⟩)

/-- EXPORT_ACK: the oldest of what the connection's export has sent is acknowledged: its trailer, its flush read, or one of its
writes of up to 1 MiB; once all is, its next event proceeds (Table 10.17). -/
def execExportAck (conn : Nat) (s : State) : Host.Outcome State Fault Refusal :=
  match activeExport s conn with
  | none => .next s
  | some x =>
    if (connOf s conn).state ≠ 1 then .next s
    else
      let s0 := onConn s conn (fun c => { c with retriesUsed := 0 })
      if x.event = 3 then
        let s1 := s0.onFront (fun f => { f with exports := f.exports.filter (fun z => decide (z ≠ x)) })
        let s2 := if x.entry.isNone then acornExported s1 x else s1
        done s (startNext s2 conn)
      else if x.event = 1 ∧ x.acked + egressPiece < x.length then
        done s (replaceExport s0 x { x with acked := x.acked + egressPiece })
      else
        let y := { x with event := x.event + 1, acked := if x.event = 1 then x.length else x.acked }
        let (s1, held) := exportSend (replaceExport s0 x y) y
        if held then done s (replaceExport s1 y x) else done s s1

/-- TRANSPORT_RETRY_TIMEOUT: what is not acknowledged is sent again, or the connection enters error (R254). -/
def execTransportRetryTimeout (conn : Nat) (s : State) : Host.Outcome State Fault Refusal :=
  let c := connOf s conn
  match activeExport s conn with
  | none => .next s
  | some x =>
    if c.state ≠ 1 then .next s
    else if bitsAt (cfgElem s 0x580201 conn) 325 3 ≤ c.retriesUsed then done s (connError s conn)
    else done s (exportSend (onConn s conn (fun c => { c with retriesUsed := c.retriesUsed + 1 })) x).1

/-- The counters of 0x5812 are set to zero (R274). -/
def clearFeCounters (s : State) : State :=
  s.onFront (fun f => { f with
    writeBytes := []
    readBytes := []
    flushReads := 0
    flushWait := 0
    rereads := []
    ignored := []
    naks := []
    cnpsSent := []
    cnpsReceived := []
    egressBytes := []
    undelivered := 0
    restarts := 0 })

/-! ## Checks of records (R254, R255, R261, R270) -/

/-- A connection record breaks Table 10.3. -/
def connMalformed (v : Nat) : Bool :=
  decide (v ≠ 0 ∧ (bitsAt v 3 5 ≠ 0 ∨ bitsAt v 14 2 ≠ 0 ∨ bitsAt v 59 5 ≠ 0 ∨ bitsAt v 112 16 ≠ 0 ∨ bitsAt v 176 16 ≠ 0 ∨
    bitsAt v 328 184 ≠ 0 ∨ bitsAt v 56 3 < 3 ∨ 5 < bitsAt v 56 3 ∨ bitsAt v 320 5 = 0 ∨ 20 < bitsAt v 320 5 ∨
    (bitAt v 2 = false ∧ bitsAt v 224 96 ≠ 0)))

/-- A region record breaks Table 10.4 or the placement of R255. -/
def regionMalformed (v : Nat) : Bool :=
  let r := rdmaRegionOf v
  let window := tileBase + (r.base - tileBase) / 0x200000 * 0x200000
  decide (bitsAt v 48 16 ≠ 0 ∨ bitsAt v 112 16 ≠ 0 ∨ bitsAt v 174 82 ≠ 0) ||
    (r.valid && (decide (r.base % 64 ≠ 0 ∨ r.size % 64 ≠ 0 ∨ r.size < 64 ∨ r.rkey < 0x100) ||
      !(inHbmOrPinned r.base r.size ||
        decide (tileBase ≤ r.base ∧ r.base < 0x020030000000 ∧ r.base + r.size ≤ window + 0x180000))))

/-- An egress target record breaks Table 10.15. -/
def targetMalformed (v : Nat) : Bool := decide (bitsAt v 11 53 ≠ 0 ∨ bitsAt v 200 56 ≠ 0)

/-- A queue record breaks Table 10.6; an all-zero record does not. -/
def queueMalformed (v : Nat) : Bool :=
  let size := 2 ^ bitsAt v 128 5
  decide (v ≠ 0 ∧ (bitsAt v 48 16 ≠ 0 ∨ bitsAt v 112 16 ≠ 0 ∨ bitsAt v 133 27 ≠ 0 ∨ bitsAt v 192 64 ≠ 0 ∨
    bitsAt v 128 5 = 0 ∨ 16 < bitsAt v 128 5 ∨ bitsAt v 0 48 % 4096 ≠ 0 ∨ bitsAt v 64 48 % 4096 ≠ 0 ∨
    hbmEnd < bitsAt v 0 48 + 128 * size ∨ hbmEnd < bitsAt v 64 48 + 32 * size))

/-! ## Direct accesses (R154) -/

/-- A tile's access goes wrong: a stream of the tile that runs halts its channel, and without one the sequencer takes a trap
(R26). -/
def tellTile (s : State) (n : Nat) (code : Code) : State :=
  match (tileOf s n).issued.find? (fun d => d.engine == 2) with
  | some d => onIssued s n d.number (fun d => { d with fault := some (d.fault.getD code) })
  | none => trapHere s n code

/-- An initiator learns of an error of its access (R26, R199). -/
def tellInitiator (s : State) (who : Initiator) (detail : Nat) (addr : Nat) : State :=
  let code := codeOf 2 (initiatorBlock who) detail
  match who with
  | .pip t => tellTile s t code
  | .cracker c => haltChannel s c code
  | .remote conn => if (connOf s conn).state = 1 then sendNak s conn (decide (0x0800 ≤ detail)) code else s
  | .acorn => raise s code addr
  | .hazel => raise s code addr

/-- A Hazel fetch and an RDMA read take poison as an error; every other block copies it (R199). -/
def fearsPoison (who : Initiator) : Bool :=
  match who with
  | .hazel => true
  | .remote _ => true
  | _ => false

/-- An access that Table 1.11 allows: the home slice and the store serve it; one that meets a word of saved state that is held for
repair waits at the slice (R200). -/
def serveAccess (s : State) (who : Initiator) (addr length : Nat) (write : Option (List Byte)) : State :=
  let wait := fun (t : State) => t.onProt (fun p => { p with heldAccesses := p.heldAccesses ++ [⟨who, addr, length, write⟩] })
  match write with
  | some l =>
    let (s1, refused, held) := writeThrough s who addr ((l.take length).map (fun b => (b, false)))
    if held then wait s1 else if refused then tellInitiator s1 who 0x0801 addr else s1
  | none =>
    let (b, s1) := readThrough s who addr length
    if b.held then wait s1
    else if b.error then tellInitiator s1 who 0x0801 addr
    else if b.poisoned && fearsPoison who then tellInitiator s1 who 0x0802 addr
    else s1

/-- The accesses that a line held, and those that wait behind them, are served again (R200). -/
def serveHeldAccesses (s : State) (line : Nat) : State :=
  let mine := fun (x : HeldAccess) => (linesTouched x.addr x.length).contains line
  (s.prot.heldAccesses.filter mine).foldl (fun t x => serveAccess t x.who x.addr x.length x.write)
    (s.onProt (fun p => { p with heldAccesses := p.heldAccesses.filter (fun x => !mine x) }))

/-- A request on a connection lies in a registered region that gives it the right (R25). -/
def inRdmaRegion (s : State) (who : Initiator) (write : Bool) (addr len : Nat) : Bool :=
  match who with
  | .remote conn => (rdmaRegions s).any (fun r => (requestCode s conn r.rkey addr len write).isNone)
  | _ => true

/-- The home slice of a line that an access touches takes nothing: its layer is stopped (R32). -/
def accessStopped (s : State) (addr len : Nat) : Bool :=
  decide (regionOf addr = some .hbm) && (linesTouched addr len).any (sliceStopped s)

/-- The access brings the first words, or all, of the oldest write of a connection that is not yet visible (R258). -/
def arrivesFrom (s : State) (who : Initiator) (addr : Nat) (write : Option (List Byte)) : Option Nat :=
  match who, write with
  | .remote conn, some l =>
    match (connOf s conn).unseen with
    | u :: _ =>
      if u.addr = addr ∧ l ≠ [] ∧ u.bytes.take l.length = l ∧ (l.length = u.bytes.length ∨ (addr + l.length) % 8 = 0) then some conn
      else none
    | [] => none
  | _, _ => none

/-- The first `n` bytes of the oldest waiting write of a connection become visible. -/
def placeFirst (s : State) (conn n : Nat) : State :=
  match (connOf s conn).unseen with
  | [] => s
  | u :: _ =>
    if u.bytes.length ≤ n then (placeUnseen s conn).1
    else
      (placeUnseen (onConn s conn (fun c => { c with
        unseen := ⟨u.addr, u.bytes.take n⟩ :: ⟨u.addr + n, u.bytes.drop n⟩ :: c.unseen.drop 1
        held := c.held.map (fun h => if 0 < h.writes then { h with writes := h.writes + 1 } else h) })) conn).1

/-- HOME_SLICE_ACCESS: a home slice serves one access of an initiator; the oldest waiting RDMA write of a connection becomes
visible so (R154, R258). Where its layer is stopped it serves none (R32). -/
def execHomeSliceAccess (who : Initiator) (addr length : Nat) (write : Option (List Byte)) (s : State) :
    Host.Outcome State Fault Refusal :=
  if accessStopped s addr length then .next s
  else match arrivesFrom s who addr write with
  | some conn => done s (placeFirst s conn (write.getD []).length)
  | none =>
    match accessDetail s who write.isSome addr length with
    | some d => done s (tellInitiator s who d addr)
    | none =>
      match regionOf addr with
      | some .doorbell => .next s
      | some .mirror => .next s
      | _ => if inRdmaRegion s who write.isSome addr length then done s (serveAccess s who addr length write)
        else done s (tellInitiator s who 0x0106 addr)

end Sys2Proof.Machine
end

