-- ==== Sys2Proof/Machine/Recovery.lean ====
section
/-! DEFINITION. Recovery (R288 to R299): memory loss, the recovery record and its boundary, the restore point, filling and replay,
resuming; the step boundary row, which a waiting record follows; line repair (R200, R298); MIRROR records and the buddy (R282, R300);
Henelo Twin (R301 to R305). -/

namespace Sys2Proof.Machine

open Sys2Proof

/-! ## Memory loss (R277, R289) -/

/-- A tile whose requests to home slices are no longer waited for: the lines that held them are gone. -/
def answeredTile (t : Tile) : Tile := { t with issued := t.issued.map (fun e => { e with reads := [], waits := [], writes := [] }) }

/-- The contents of the HBM range, the pinned window and the tile stores are lost: treated as never written. What the Acorn area
holds, the deferral store, the shards verified and the lines that waited for repair go with them. -/
def loseMemory (s : State) : State :=
  let s1 := { s with
    mem := forget (forget (forget s.mem 0 hbmEnd) pinnedBase 0x010280000000) tileBase 0x020030000000
    cache := { s.cache with
      sets := [], fills := [], writebacks := [], waiting := [], blocked := [], hbmQueue := [], busBursts := [], tagSynd := [] }
    tiles := s.tiles.foldl (fun (t : Tab Tile) (e : Nat × Tile) => tabSet Tile.idle t e.1 (answeredTile e.2)) [] }
  ((s1.onFabric (fun f => { f with deferred := [] })).onProt (fun p => { p with
    heldLines := [], lineValues := [], lineAsked := [], heldAccesses := [] })).onResil (fun r => { r with
    memoryLost := true
    mirrored := []
    incoming := []
    verified := []
    submitted := []
    touched := [] })

/-- HBM_CHANNEL_FAIL: a physical channel fails (R277, R289). -/
def execHbmChannelFail (stack channel : Nat) (s : State) : Host.Outcome State Fault Refusal :=
  let c := 32 * stack + channel
  let taken := s.prot.spread ++ s.prot.spreading
  if taken.contains c then .next s
  else if taken.any (fun d => decide (d / 32 = stack)) then done s (stopModule (loseMemory (raise s 0x08080B04 c)))
  else
    done s (enterHolding (loseMemory (raise (s.onProt (fun p => { p with spreading := setAdd p.spreading c })) 0x08080B03 c)))

/-- MEMBER_TIMEOUT: a Henelo member of the job group has made no progress for member_timeout with no path up (R288). -/
def execMemberTimeout (node : BitVec 24) (s : State) : Host.Outcome State Fault Refusal :=
  if s.resil.unreachable.contains node then .next s
  else
    done s (enterHolding (raise (s.onResil (fun r => { r with unreachable := r.unreachable ++ [node] })) 0x080A0B01 node.toNat))

/-- HOLD_NOTICE: reaches a root, which treats the slot as unreachable and withholds GO and RESULT (R294). -/
def execHoldNotice (p : Packet) (s : State) : Host.Outcome State Fault Refusal :=
  withPacket s 0xC p (fun t =>
    let v := natOfBytes (p.payload.take 24)
    let step := bitsAt v 64 64
    if bitsAt v 0 64 ≠ 8 ∨ step < currentStep t ∨ t.resil.holdNotices.contains (step, p.comm, bitsAt v 128 16) then t
    else
      t.onResil (fun r => { r with holdNotices := r.holdNotices ++ [(step, p.comm, bitsAt v 128 16)] }))

/-! ## The recovery record (R290, Table 11.8) -/

/-- A recovery record. -/
structure RecoveryRecord where
  epoch : Nat
  kind : Nat
  fills : List SlotFill
  blocks : List GroupBlock
  deriving DecidableEq, Repr

/-- No node. -/
def noNode : BitVec 24 := 0xFFFFFF

/-- The fill entries of a record, `n` of them; none when one is malformed or names a node outside torus_dims. -/
def fillEntries (s : State) : Nat → List Byte → Option (List SlotFill)
  | 0, _ => some []
  | n + 1, l =>
    let v := natOfBytes (l.take 16)
    let node := fun (lo : Nat) => BitVec.ofNat 24 (bitsAt v lo 24)
    let f : SlotFill := ⟨bitsAt v 0 12, node 12, node 36, node 60, bitAt v 84⟩
    let named := fun (m : BitVec 24) => decide (m = noNode) || inTorus s m
    if bitsAt v 85 43 ≠ 0 ∨ inTorus s f.node = false ∨ named f.donor = false ∨ named f.mirror = false then none
    else (fillEntries s n (l.drop 16)).map (fun r => f :: r)

/-- The record that bytes hold, or the code of its refusal. A module that is in no communication group, as after start-up, has no
epoch of the job's series and takes the record's (assumption 74). -/
def recoveryOf (s : State) (l : List Byte) : Except Code RecoveryRecord :=
  let v := natOfBytes (l.take 16)
  let epoch := bitsAt v 0 32
  let kind := bitsAt v 32 3
  let n := bitsAt v 48 7
  let tail := l.drop (16 + 16 * n)
  if l.length < 16 + 16 * n ∨ l.length < 16 ∨ bitsAt v 35 13 ≠ 0 ∨ bitsAt v 55 73 ≠ 0 ∨ (kind ≠ 1 ∧ kind ≠ 2) ∨ 64 < n ∨ (kind = 1 ∧ n ≠ 0) then
    .error 0x01100B03
  else
    match fillEntries s n (l.drop 16), (if tail = [] then .ok [] else epochBlocks s epoch true tail) with
    | some fills, .ok blocks => if epoch = s.fabric.epoch + 1 ∨ s.fabric.groups = [] then .ok ⟨epoch, kind, fills, blocks⟩ else .error 0x01100B04
    | _, _ => .error 0x01100B03

/-! ## The recovery boundary (R292) -/

/-- A tile whose program of the uncommitted step is ended. -/
def endedTile (t : Tile) : Tile :=
  { t with state := 0, wait := (0, 0), loops := [], issued := [], program := none, waiting := [], trap := none, nonfinite := false, counters := [] }

/-- Programs and channels end; counters stay. -/
def endWork (s : State) : State :=
  let s1 := { s with tiles := s.tiles.foldl (fun (t : Tab Tile) (e : Nat × Tile) => tabSet Tile.idle t e.1 (endedTile e.2)) [] }
  s1.onCracker (fun k => { k with
    channels := k.channels.foldl (fun (t : Tab Channel) (e : Nat × Channel) =>
      tabSet Channel.idle t e.1 { Channel.idle with quotaHeld := e.2.quotaHeld }) []
    bindings := []
    heldRequests := [] })

/-- An accepted entry that a recovery boundary leaves as it is: not run, or an export already completed. -/
def entryKept (e : Entry) : Bool := decide (e.status = 2) && (decide (e.outcome = 2) || decide (e.kind = 5 ∧ e.outcome = 0))

/-- The entries of steps above committed_step return to pending with their ordinals, to be read once more (R266, R292). -/
def returnEntries (s : State) : State :=
  let above := fun (e : Entry) => decide (e.step = 0 ∨ s.train.committed < e.step)
  let back := fun (e : Entry) => above e && !entryKept e
  s.onFront (fun f => { f with
    carrierAt := none
    exports := f.exports.filter (fun x => match x.entry with
      | none => true
      | some (q, seq) => !((queueOf s q).entries.any (fun e => decide (e.seq = seq) && back e)))
    queues := f.queues.foldl (fun (t : Tab Queue) (q : Nat × Queue) =>
      let l := q.2.entries.filter back
      tabSet Queue.disabled t q.1 { q.2 with
        accepted := match l.find? (fun e => !q.2.kept.contains e.seq) with
          | some e => e.seq
          | none => q.2.accepted
        pending := l.map (fun e => ⟨e.seq, e.ordinal, 0, true⟩) ++ q.2.pending
        entries := (q.2.entries.filter (fun e => !back e)).map (fun e => if above e then { e with step := 0 } else e) }) [] })

/-- A module that lost its memory: queues disabled, connections in reset, egress targets cleared (R292). -/
def clearFrontEnd (s : State) : State :=
  let s1 := s.onFront (fun f => { f with
    conns := []
    exports := []
    carrierAt := none
    queues := f.queues.foldl (fun (t : Tab Queue) (q : Nat × Queue) =>
      tabSet Queue.disabled t q.1 { q.2 with state := 0, released := q.2.accepted, pending := [], entries := [], kept := [] }) [] })
  s1.onDict (fun d => { d with values := tabDrop d.values (storeAt 0x580401 0) (storeAt 0x580402 0) })

/-- Nodes whose failure a record answers: those that filled its slots. -/
def failedNodes (s : State) (r : RecoveryRecord) : List (BitVec 24) :=
  r.fills.filterMap (fun f => match commGroup s (jobGroup s) with
    | some g => (memberAt g f.slot).map (fun m => m.node)
    | none => none)

/-- The node in a slot of a communication group. -/
def nodeAt (s : State) (comm slot : Nat) : Option (BitVec 24) :=
  match commGroup s comm with
  | some g => (memberAt g slot).map (fun m => m.node)
  | none => none

/-- Nodes whose hold notice of the committed step met a RESULT already sent: their deferred contributions are lost (R294). -/
def heldNodes (s : State) : List (BitVec 24) :=
  s.resil.holdNotices.filterMap (fun n => if n.1 = s.train.committed then nodeAt s n.2.1 n.2.2 else none)

/-- A record loses the deferred contributions of a slot of a communication group: of a module refilled or in holding, whatever
group it is, or of one that a block takes out of that group (R292, R294). -/
def slotLost (s : State) (r : RecoveryRecord) (comm slot : Nat) : Bool :=
  match nodeAt s comm slot with
  | none => false
  | some n => (failedNodes s r ++ heldNodes s).contains n || (match r.blocks.find? (fun b => b.number == comm) with
    | some b => !(b.members.getD []).any (fun m => decide (m.node = n))
    | none => false)

/-- Deferred contributions of lost slots, as `r` loses them in state `old`, are discarded, to be logged at the next commit. -/
def loseDeferred (s old : State) (r : RecoveryRecord) : State :=
  let lost := fun (k : Nat) => slotLost old r (deferOf k).1 (deferOf k).2.2
  let gone := s.fabric.lastDeferred.filter lost
  let carrier := (carrierNow old).getD noGroup
  let own := fun (comm : Nat) => match commGroup old comm with
    | some g => (ownSlot old g).getD 0
    | none => 0
  (s.onFabric (fun f => { f with
    lastDeferred := f.lastDeferred.filter (fun k => !lost k)
    carrierDeferred := f.carrierDeferred.filter (fun x => !gone.any (fun k => decide ((deferOf k).2 = (carrier, x.1))))
    deferred := f.deferred.filter (fun d => decide (d.step = s.train.committed) && !slotLost old r d.comm (own d.comm)) })).onResil (fun x => { x with
    lostSlots := setUnion x.lostSlots gone })

/-- Send again the records that a new epoch's streams have forgotten: those that the gate and a full transfer wait for. -/
def resendRecords (s : State) : State :=
  if hasBuddy s then (s.resil.gate ++ s.resil.transfer).foldl (fun t r => sendRecord t (buddyNode t) r) s else s

/-- Report committed_step to the root of the job group (R293). -/
def reportCommitted (s : State) : State :=
  match commGroup s (jobGroup s) with
  | some g => if (ownSlot s g).isNone then s
      else sendPacket s (controlPacket s (rootNode g) g.number 3 (bytesOfNat 8 s.train.committed ++ bytesOfNat 8 s.fabric.epoch))
  | none => s

/-- The fills in force after a record (R296): its own, and earlier ones of slots that it does not name. A fill that this module
has itself ended, and one whose receiver has failed, are no longer in force. A mirror node that has failed leaves the snapshot
tier, a donor that has failed any member at the restore point. -/
def mergeFills (x : Resilience) (r : RecoveryRecord) (failed : List (BitVec 24)) (own : BitVec 24) : List SlotFill :=
  r.fills ++ (x.fills.filter (fun f => !r.fills.any (fun g => decide (g.slot = f.slot ∨ g.node = f.node)) && !failed.contains f.node &&
    !decide (f.node = own ∧ x.state = 0))).map (fun f =>
      let gone := decide (f.mirror ≠ noNode) && failed.contains f.mirror
      { f with
        donor := if failed.contains f.donor then noNode else f.donor
        mirror := if gone then noNode else f.mirror
        snapshot := f.snapshot || gone })

/-- An access of a remote host. -/
def remoteAccess (i : Initiator) : Bool :=
  match i with
  | .remote _ => true
  | _ => false

/-- A range touches a line that waits for repair. -/
def heldHere (p : Protect) (a len : Nat) : Bool := p.heldLines.any (fun h => decide (a < 64 * h.1 + 64 ∧ 64 * h.1 < a + len))

/-- The recovery boundary of a record (R291, R292); a lost client's records are exported by its buddy (R284). -/
def recoveryBoundary (s : State) (r : RecoveryRecord) : State :=
  let s0 := s.fabric.pendingEpochs.foldl (fun t e => raise t 0x01100B06 e.epoch) s
  let failed := failedNodes s r
  let escaped := if s.train.escape then some (currentStep s) else s.train.escapedStep
  let kept := s0.resil.lostSlots
  let s1 := (clearStep (endWork (freeStages s0))).onTrain (fun t => { t with escapedStep := escaped })
  let s2 := s1.onFabric (fun f => { f with
    colls := []
    groups := groupsAfter f.groups r.blocks
    epoch := r.epoch
    pendingEpochs := []
    tx := []
    rx := []
    delivered := []
    rooms := []
    reroute := []
    toSend := [] })
  let s3 := loseDeferred (s2.onResil (fun x => { x with lostSlots := kept })) s r
  let s4 := applyRetirements s3 s3.stack.retiring s3.stack.sliceRetiring
  let s5 := (logRetirements s4 (s4.prot.spreading.map .channel)).onProt (fun p => { p with
    spread := setUnion p.spread p.spreading
    spreading := []
    heldAccesses := p.heldAccesses.filter (fun x => (remoteAccess x.who) && heldHere p x.addr x.length) })
  let s6 := if s5.resil.memoryLost then clearFrontEnd s5 else returnEntries s5
  let s7 := (s6.onTrain (fun t => { t with boundarySeq := t.boundarySeq + 2 })).onResil (fun x => { x with
    state := 2
    epoch := r.epoch
    kind := r.kind
    fills := mergeFills x r failed (ownNode s)
    reports := []
    verified := x.verified.filter (fun v => !failed.contains v.2)
    retried := []
    unreachable := []
    holdNotices := []
    resultSentFor := none
    heldRecord := none
    recoveries := x.recoveries + 1
    gate := x.gate.filter (fun g => decide (g.step ≤ s.train.committed)) })
  let s8 := exportDue (s7.onResil (fun x => { x with
    exportsDue := x.exportsDue ++ x.mirrored.filter (fun g => failed.contains g.node && decide (3 ≤ g.kind ∧ g.kind ≤ 5)) }))
  settleAll (reportCommitted (resendRecords s8))

/-- The outcome of a step that this module has cut is known here and its boundary is still to come: a record waits for it (R290).
A module that withholds its cut has no boundary to come (R294). -/
def boundaryPending (s : State) : Bool :=
  s.train.reducedSummary.isSome && s.train.cut && !s.train.lateFault && decide (s.resil.state ≤ 1 ∧ s.resil.twinState ≠ 2)

/-- A write to recovery_write: refused, applied at once, or held for the boundary in progress (R290). -/
def writeRecovery (s : State) (l : List Byte) : Except Code State :=
  match recoveryOf s l with
  | .error c => .error c
  | .ok r => .ok (if boundaryPending s then s.onResil (fun x => { x with heldRecord := some l }) else recoveryBoundary s r)

/-- STEP_BOUNDARY: the boundary of the current step, once its prerequisites hold; a recovery record that waited for it follows. -/
def execStepBoundary (durationPeriods : Nat) (s : State) : Host.Outcome State Fault Refusal :=
  if boundaryReady s = false then .next s
  else
    let s1 := runBoundary s durationPeriods
    match s.resil.heldRecord with
    | none => done s s1
    | some l =>
      match recoveryOf s1 l with
      | .ok r => done s (recoveryBoundary s1 r)
      | .error c => done s (raise (s1.onResil (fun x => { x with heldRecord := none })) c 0)

end Sys2Proof.Machine
end

