-- ==== Sys2Proof/Machine/Filling.lean ====
section
/-! DEFINITION. Reports and the restore point (R293), filling a slot (R287, R295, R296), replay (R297), resuming (R299), the clients'
records (R282, R300), line repair (R200, R298) and the twin's packets (R303 to R305). -/

namespace Sys2Proof.Machine

open Sys2Proof

/-! ## LEDGER records read back -/

/-- The commit record that 32 bytes hold. -/
def commitRecordFrom (v : Nat) : CommitRecord :=
  ⟨bitsAt v 0 64, bitAt v 64, bitAt v 65, bitAt v 66, bitAt v 67, bitAt v 68, bitsAt v 80 16, bitsAt v 96 32,
    BitVec.ofNat 128 (bitsAt v 128 128)⟩

/-- The loss-scale history that 536 bytes hold. -/
def historyFrom (v : Nat) : History :=
  ⟨bitsAt v 0 8, bitsAt v 8 8, bitsAt v 16 8, bitsAt v 32 32, bitsAt v 64 32, bitsAt v 96 8, bitsAt v 104 8, bitsAt v 112 16, bitsAt v 128 64,
    (List.range 64).foldl (fun t j => tabSet 0 t j (bitsAt v (64 * j + 192) 64)) []⟩

/-- The ledger of the groups that bytes hold, `n` of them. -/
def groupLedgersFrom : Nat → List Byte → Tab GroupLedger → Tab GroupLedger
  | 0, _, t => t
  | n + 1, l, t =>
    let v := natOfBytes (l.take 40)
    groupLedgersFrom n (l.drop 40) (tabSet GroupLedger.fresh t (bitsAt v 0 64)
      ⟨bitAt v 256, bitsAt v 64 64, bitsAt v 128 64, bitsAt v 192 64, bitAt v 257⟩)

/-- What a LEDGER record's payload holds. -/
structure LedgerItems where
  record : CommitRecord
  history : History
  skipTotal : Nat
  skipRun : Nat
  groups : Tab GroupLedger
  log : List Byte
  deriving DecidableEq, Repr

/-- A LEDGER payload read back. -/
def ledgerFrom (l : List Byte) : LedgerItems :=
  let n := natOfBytes ((l.drop 584).take 8)
  ⟨commitRecordFrom (natOfBytes (l.take 32)), historyFrom (natOfBytes ((l.drop 32).take 536)), natOfBytes ((l.drop 568).take 8),
    natOfBytes ((l.drop 576).take 8), groupLedgersFrom n (l.drop 592) [], l.drop (592 + 40 * n)⟩

/-- The LEDGER of a step among the records obtained for the fill. -/
def ledgerFor (s : State) (step : Nat) : Option LedgerItems :=
  (s.resil.submitted.find? (fun r => decide (r.kind = 5 ∧ r.step = step))).map (fun r => ledgerFrom r.payload)

/-- Copy the six planes of a dense group to the slot that a ledger makes live. -/
def moveSlot (s : State) (x : LedgerItems) (g : Group) : State :=
  let one := (tabGet GroupLedger.fresh x.groups g.number).liveIsOne
  if 4096 ≤ g.number ∨ (ledgerOf s g.number).liveIsOne = one then s
  else (List.range 6).foldl (fun t p =>
      let (b, u) := readThrough t .acorn (liveSlot s g + p * g.stride) (2 * g.elements)
      (writeThrough u .acorn (shadowSlot s g + p * g.stride) b.data).1) s

/-- The module takes over the ledger of a step: history, counts, live slots, into which what it holds is moved (R295). -/
def takeLedger (s : State) (x : LedgerItems) : State :=
  ((validGroups s.dict.values).foldl (fun t g => moveSlot t x g) s).onTrain (fun t => { t with
    history := x.history, skipTotal := x.skipTotal, skipRun := x.skipRun, ledger := x.groups })

/-! ## Reports and the restore point (R293) -/

/-- The Henelo nodes of the job group. -/
def jobNodes (s : State) : List (BitVec 24) :=
  match commGroup s (jobGroup s) with
  | some g => (g.members.filter (fun m => decide (m.generation = 2))).map (fun m => m.node)
  | none => []

/-- COMMITTED_STEP_REPORT: reaches the root; with every Henelo member's report the largest is sent as the restore point. -/
def execCommittedStepReport (p : Packet) (s : State) : Host.Outcome State Fault Refusal :=
  withPacket s 0xC p (fun t =>
    let v := natOfBytes (p.payload.take 24)
    if bitsAt v 0 64 ≠ 3 ∨ bitsAt v 128 32 ≠ t.fabric.epoch then t
    else
      let reports := t.resil.reports.filter (fun r => decide (r.1 ≠ p.src)) ++ [(p.src, bitsAt v 64 64)]
      let t1 := t.onResil (fun r => { r with reports := reports })
      if (jobNodes t).all (fun n => reports.any (fun r => decide (r.1 = n))) then
        let c := reports.foldl (fun a r => max a r.2) 0
        ((jobNodes t ++ (t.resil.fills.map (fun f => f.node)).filter (fun n => !(jobNodes t).contains n)).eraseDups).foldl (fun u n =>
          sendPacket u (controlPacket u n (jobGroup u) 4 (bytesOfNat 8 c ++ bytesOfNat 8 u.fabric.epoch))) t1
      else t1)

/-- The fill entry of which this module is the receiver. -/
def ownFill (s : State) : Option SlotFill := s.resil.fills.find? (fun f => decide (f.node = ownNode s))

/-- The module has lost single groups and not its memory (R298). -/
def lostSingle (s : State) : Bool := decide (s.prot.lostGroups ≠ []) && !s.resil.memoryLost

/-- The shards that a module must fill: the replicated groups at c; on a receiver every group, member-specific ones at any step up
to c (R295); of a module that lost single groups only, those (R298), and the replicated ones where it is one step behind. -/
def planShards (s : State) (c : Nat) (all : Bool) : List (Nat × Nat) :=
  let behind := fun (g : Group) => decide (s.train.committed ≠ c) && !memberSpecific s g.number
  ((validGroups s.dict.values).filter (fun g =>
    if lostSingle s && all then s.prot.lostGroups.contains g.number || behind g else all || !memberSpecific s g.number)).map (fun g =>
      (g.number, c))

/-- The plan of a fill that follows another: a shard already verified keeps the step that it holds (R296). -/
def planAgain (s : State) (c : Nat) : List (Nat × Nat) :=
  (planShards s c true).map (fun x =>
    if s.resil.verified.any (fun v => decide (v.1 = x.1)) then (s.resil.shards.find? (fun y => decide (y.1 = x.1))).getD x else x)

/-- The deferral-log entries of the last committed step. -/
def lastLog (s : State) : List Byte :=
  let n := s.train.record.deferrals
  (List.range n).flatMap (fun i => (readThrough s .acorn (logAt s ((s.fabric.logNext + logEntries - n + i) % logEntries)) 32).1.bytes)

/-- Send a member the ledger and the replicated groups of the restore point. -/
def sendCommitted (s : State) (node : BitVec 24) : State :=
  let c := s.train.committed
  let s1 := sendRecord s node (savedRecord s 5 c noGroup (ledgerPayload s (lastLog s)))
  ((validGroups s.dict.values).filter (fun g => !memberSpecific s g.number)).foldl (fun t g =>
    match planesRecord t 6 c g with
    | (some r, u) => sendRecord u node r
    | (none, u) => u) s1

/-- Send the restore point's ledger and replicated groups to the members whose reports this root holds as one step behind (R293). -/
def serveBehind (s : State) (c : Nat) : State :=
  match commGroup s (jobGroup s) with
  | some g => if rootNode g = ownNode s then (s.resil.reports.filter (fun r => decide (r.2 + 1 = c ∧ r.1 ≠ ownNode s))).foldl (fun t r => sendCommitted t r.1) s else s
  | none => s

/-- The restore point's work of a member that holds step c: as donor, any member at c where none is named; as mirror node; as root
for the members one step behind; as buddy for its clients' records of step c (R293, R295). The spec does not say which peer
serves a root that is itself behind: every member at c sends it what it needs (DESIGN CHOICE, assumption 75). -/
def serveFills (s : State) (c : Nat) : State :=
  let root := match commGroup s (jobGroup s) with
    | some g => decide (rootNode g = ownNode s)
    | none => false
  let donated := s.resil.fills.filter (fun f => decide (f.donor = ownNode s) || decide (f.donor = noNode))
  let s0 := donated.foldl (fun t f => sendCommitted t f.node) s
  let s1 := match commGroup s (jobGroup s) with
    | some g => if root || donated.any (fun f => decide (f.node = rootNode g)) then s0 else sendCommitted s0 (rootNode g)
    | none => s0
  let s2 := (s.resil.fills.filter (fun f => decide (f.mirror = ownNode s))).foldl (fun t f =>
    (t.resil.mirrored.filter (fun r => decide (r.slot = f.slot))).foldl (fun u r => sendRecord u f.node r) t) s1
  let s3 := serveBehind s2 c
  (s.resil.mirrored.filter (fun r => decide ((r.kind = 3 ∨ r.kind = 4) ∧ r.step = c) && (jobNodes s).contains r.node)).foldl (fun t r =>
    sendRecord t r.node r) s3

/-- The slot image of the own fill has still to come from its mirror node (R295, 1). -/
def imageAwaited (s : State) : Bool :=
  match ownFill s with
  | some f => decide (f.mirror ≠ noNode) && !lostSingle s && !s.resil.submitted.any (fun r => r.kind == 7)
  | none => false

/-- Go on from state 3 once the slot image and the ledger are held and every shard is verified (Table 11.9). -/
def fillEnded (s : State) : State :=
  let c := s.resil.restore
  if s.resil.state = 3 ∧ imageAwaited s = false ∧ (ledgerFor s c).isSome ∧ s.resil.shards.all (fun x => s.resil.verified.any (fun v => decide (v.1 = x.1))) then
    s.onResil (fun r => { r with state := 4, replayLeft := c - (r.shards.foldl (fun a x => min a x.2) (if lostSingle s then min s.train.committed c else c)) })
  else s

/-- Return to running: a job's first step is governed by its history clamped into the range in force (R76). The fills stay in
force until a step commits, since that needs the READY of every slot (R296). -/
def runAgain (s : State) : State :=
  ((s.onProt (fun p => { p with lostGroups := [] })).onTrain (fun t => { t with history := if t.started then t.history else recordRange s t.history, started := true })).onResil
    (fun r => { r with state := 0, inputsRequired := false, memoryLost := false, submitted := [], shards := [], verified := [] })

/-- The sources from which a group's shard may come (R295), the snapshot tier as no node: the donor and the other Henelo members
for a replicated group; the mirror node and the tier for one that the buddy holds; the tier alone for a snapshot-method group. -/
def shardSources (s : State) (group : Nat) : List (BitVec 24) :=
  match ownFill s with
  | none => (jobNodes s).filter (fun n => decide (n ≠ ownNode s))
  | some f =>
    let tier := if f.snapshot then [noNode] else []
    if memberSpecific s group then (if f.mirror = noNode ∨ saveMethod s group ≠ 1 then [] else [f.mirror]) ++ tier
    else
      let peers := (jobNodes s).filter (fun n => decide (n ≠ ownNode s))
      if f.donor = noNode ∨ peers.contains f.donor then peers else f.donor :: peers

/-- A receiver with a shard that no source holds: there is no saved copy at the restore point, and R8 applies (Table 11.4, R287). -/
def checkSources (s : State) : State :=
  match s.resil.shards.find? (fun x => (shardSources s x.1).isEmpty && !s.resil.verified.any (fun v => decide (v.1 = x.1))) with
  | some x => if (ownFill s).isSome then stopModule (raise s 0x080E0B06 x.1) else s
  | none => s

/-- A key for what was fetched and its source in the list of sources tried: second failures are odd. -/
def triedKey (what : Nat) (source : BitVec 24) (second : Bool) : Nat := (what * 2 ^ 24 + source.toNat) * 2 + natOfBool second

/-- What a record is, for the list of sources tried: a group's shard, or a record of a kind and step. -/
def recordKey (r : Saved) : Nat := if r.kind ≤ 2 ∨ r.kind = 6 then r.group else 8192 * (8 * r.step + r.kind + 1) + r.group

/-- What a source sent does not match its digest (R287): it is fetched once more from the source, then from the next; with none
left R8 applies. -/
def sourceFailed (s : State) (what arg : Nat) (source : BitVec 24) (sources : List (BitVec 24)) : State :=
  let again := s.resil.retried.contains (triedKey what source false)
  let s1 := (raise s 0x080E0B05 arg).onResil (fun r => { r with retried := setAdd r.retried (triedKey what source again) })
  if again && sources.all (fun n => s1.resil.retried.contains (triedKey what n true)) then stopModule (raise s1 0x080E0B06 arg) else s1

/-- A shard's digest does not match. -/
def shardMismatch (s : State) (group : Nat) (source : BitVec 24) : State := sourceFailed s group group source (shardSources s group)

/-- RESTORE_POINT: c from the root moves the module to filling, replaying or on (Table 11.9); where no member has committed a step
there is nothing to fill. -/
def execRestorePoint (p : Packet) (s : State) : Host.Outcome State Fault Refusal :=
  withPacket s 0xC p (fun t =>
    let v := natOfBytes (p.payload.take 24)
    let c := bitsAt v 64 64
    if bitsAt v 0 64 ≠ 4 ∨ t.resil.state ≠ 2 ∨ bitsAt v 128 32 ≠ t.fabric.epoch then t
    else
      let own := savedRecord t 5 t.train.committed noGroup (ledgerPayload t (lastLog t))
      let t1 := t.onResil (fun r => { r with
        restore := c
        submitted := if r.memoryLost then r.submitted else r.submitted ++ [own] })
      if c = 0 then runAgain t1
      else if t.resil.memoryLost ∨ (ownFill t).isSome ∨ t.train.committed + 1 < c then
        let shards := planAgain t c
        checkSources (fillEnded (t1.onResil (fun r => { r with
          state := 3
          shards := shards
          shardsTotal := shards.length
          verified := r.verified.filter (fun x => shards.any (fun y => decide (y.1 = x.1)))
          replayLeft := 0 })))
      else if t.train.committed + 1 = c then
        let shards := planShards t c false
        t1.onResil (fun r => { r with state := 4, shards := shards, shardsTotal := shards.length, verified := [], replayLeft := 1 })
      else runAgain (serveFills t1 c))

/-! ## Shards (R287, R295) -/

/-- Write six planes of a group's committed state, with their poison. -/
def placePlanes (s : State) (g : Group) (l : List (Byte × Bool)) : State :=
  (List.range 6).foldl (fun t p =>
    (writeThrough t .acorn (committedBase t g + p * g.stride) ((l.drop (p * g.planeLen)).take g.planeLen)).1) s

/-- A shard of a group is accepted: verified with its source, holding a step. -/
def acceptShard (s : State) (group : Nat) (source : BitVec 24) (step : Nat) : State :=
  fillEnded (s.onResil (fun r => { r with
    verified := r.verified.filter (fun v => decide (v.1 ≠ group)) ++ [(group, source)]
    shards := r.shards.map (fun x => if x.1 = group then (group, step) else x) }))

/-- SHARD_VERIFY: a shard is written, read back and accepted on a matching digest (R287). A shard of a group that is not to be
filled, or of a step from which it could not be replayed, is not one that the module asked for. -/
def execShardVerify (group : Nat) (source : BitVec 24) (step : Nat) (digest : BitVec 256) (bytes : List Byte) (s : State) :
    Host.Outcome State Fault Refusal :=
  let g := groupNow s group
  let c := s.resil.restore
  let wanted := decide (s.resil.state = 3 ∨ s.resil.state = 4) && s.resil.shards.any (fun x => decide (x.1 = group)) &&
    (ledgerFor s c).isSome && (if memberSpecific s group then decide (step ≤ c ∧ c ≤ step + 1) else decide (step = c))
  if wanted = false ∨ bytes.length ≠ 6 * g.planeLen then .next s
  else
    let s1 := placePlanes s g (bytes.map (fun b => (b, false)))
    let (l, s2) := planesOf s1 g
    if BitVec.ofNat 256 (natOfBytes (shake256 (l.map (fun x => x.1)) 32)) = digest then done s (acceptShard s2 group source step)
    else done s (shardMismatch s2 group source)

/-! ## Snapshot-tier records (R295) -/

/-- The record that bytes hold, with their poison, and whether its digest matches its payload. -/
def savedFrom (node : BitVec 24) (l : List (Byte × Bool)) : Saved × Bool :=
  let bytes := l.map (fun x => x.1)
  let v := natOfBytes (bytes.take 32)
  let payload := bytes.drop 64
  (⟨bitsAt v 0 8, node, bitsAt v 8 12, bitsAt v 32 32, bitsAt v 64 64, bitsAt v 128 64, bitsAt v 192 13, payload,
      markedAt ((l.drop 64).map (fun x => x.2))⟩,
    decide (shake256 payload 32 = (bytes.drop 32).take 32))

/-- The local number of a global row. -/
def localOf (s : State) (g row : Nat) : Nat :=
  match bindingOfGroup s g with
  | some b => localRow (tableRegion s (bindingNow s b).region) row
  | none => row

/-- Rows of a DELTA of a sweep group put into place, `n` of them at most. -/
def placeRows (g : Group) : Nat → State → List (Byte × Bool) → State
  | 0, s, _ => s
  | n + 1, s, l =>
    if l.length < 8 + 12 * g.rowLen then s
    else
      let row := localOf s g.number (natOfBytes ((l.take 8).map (fun x => x.1)))
      let s1 := (List.range 6).foldl (fun t p =>
        (writeThrough t .acorn (planeAt g p row) ((l.drop (8 + 2 * g.rowLen * p)).take (2 * g.rowLen))).1) s
      placeRows g n s1 (l.drop (8 + 12 * g.rowLen))

/-- Acorn applies a snapshot-tier record to its place: BASE and DELTA into the group's state, others kept for the replay. -/
def applyRecord (s : State) (r : Saved) : State :=
  let g := groupNow s r.group
  let t := s.onResil (fun x => { x with deltaStep := r.step })
  if r.kind = 1 ∨ (r.kind = 2 ∧ r.group < 4096) then acceptShard (placePlanes t g r.marked) r.group noNode r.step
  else if r.kind = 2 then acceptShard (placeRows g (r.payload.length / (8 + 12 * g.rowLen) + 1) t r.marked) r.group noNode r.step
  else s.onResil (fun x => { x with submitted := x.submitted ++ [r] })

/-- A write to restore_submit: the record of an export_seq, at the place and of the length that the model leaves open (assumption
8), is checked and applied. While the module replays, only the records that the replay reads are still taken (R295, R297). -/
def submitRecord (s : State) (seq : Nat) : State :=
  if s.resil.state ≠ 3 ∧ s.resil.state ≠ 4 then s
  else
    let (b, s1) := readThrough s .acorn (bitsAt (cfgAt s 0x600002 0 16) 0 48 + Config.acornPlace seq 0) (Config.acornPlace seq 1)
    let (r, good) := savedFrom noNode b.data
    if !good || b.error then sourceFailed s1 (recordKey r) r.group noNode (if r.kind ≤ 2 then shardSources s1 r.group else [noNode])
    else if s.resil.state = 4 ∧ r.kind ≤ 2 then s1
    else applyRecord s1 r

/-! ## Replay (R297) -/

/-- Rows of a record of results or contributions: number and values. -/
def rowsFrom (rowLen : Nat) : Nat → List Byte → List (Nat × List Nat)
  | 0, _ => []
  | n + 1, l =>
    if l.length < 8 + 4 * rowLen then []
    else (natOfBytes (l.take 8), elemsOfBytes 4 rowLen (l.drop 8)) :: rowsFrom rowLen n (l.drop (8 + 4 * rowLen))

/-- A record of a kind for a group and step: held for the fill, or still held here for the buddy's acknowledgement. -/
def heldRecords (s : State) (kind group step : Nat) : List Saved :=
  (s.resil.submitted ++ s.resil.gate).filter (fun r => decide (r.kind = kind ∧ r.group = group ∧ r.step = step))

/-- The late slots of a group in a step's deferral-log entries, with action 0 deferred or 1 dropped. -/
def lateSlots (group : Nat) : Nat → List Byte → List (Nat × Nat)
  | 0, _ => []
  | n + 1, l =>
    if l.length < 32 then []
    else
      let v := natOfBytes (l.take 32)
      let rest := lateSlots group n (l.drop 32)
      if bitsAt v 84 13 = group ∧ bitsAt v 98 2 ≠ 2 then (bitsAt v 64 12, bitsAt v 97 1) :: rest else rest

/-- Late slots of a group in a step, as its LEDGER tells. -/
def lateIn (s : State) (group step : Nat) : List (Nat × Nat) :=
  match ledgerFor s step with
  | some x => lateSlots group (x.log.length / 32) x.log
  | none => []

/-- The contributions of a step to a group, by slot, on time and not, and those deferred from the step before. -/
def contributionsOf (s : State) (group step : Nat) : List Saved × List Saved :=
  let late := lateIn s group step
  let before := (lateIn s group (step - 1)).filter (fun x => x.2 == 0)
  ((heldRecords s 3 group step).filter (fun r => !late.any (fun x => x.1 == r.slot)),
    (heldRecords s 3 group (step - 1)).filter (fun r => before.any (fun x => x.1 == r.slot)))

/-- The reduced values of a dense group recomputed from contributions in the order of R239 and R240. -/
def recomputeDense (s : State) (g : Group) (step : Nat) : List Nat :=
  let (now, older) := contributionsOf s g.number step
  let k : CollKey := ⟨jobGroup s, g.number, 0⟩
  let c := Coll.blank s k step
  let grp := (collGroup s k).1
  let hs := heneloSlots grp
  let n := grp.members.length
  let value := fun (r : Saved) (e : Nat) => natOfBytes ((r.payload.drop (4 * e)).take 4)
  (List.range g.elements).map (fun e =>
    let o := hs.getD (chunkOf g.elements hs.length e) 0
    let chain := (List.range n).filterMap (fun pos => (now.find? (fun r => decide (ringPosition n o r.slot false = pos))).map (fun r => (pos, r)))
    let sum := chain.foldl (fun (a : Option Nat) x => match a with
      | none => some (value x.2 e)
      | some v => some (combine s c 2 x.1 e v (value x.2 e))) none
    let total := ((List.range 4096).filterMap (fun slot => older.find? (fun r => r.slot == slot))).foldl (fun (a : Option Nat) r => match a with
      | none => some (value r e)
      | some v => some (combine s c 3 r.slot e v (value r e))) sum
    total.getD 0)

/-- The merged rows of a sweep group recomputed from contributions in the order of R187 and R188. -/
def recomputeRows (s : State) (g : Group) (step : Nat) : List (Nat × List Nat) :=
  let (now, older) := contributionsOf s g.number step
  let region := match bindingOfGroup s g.number with
    | some b => tableRegion s (bindingNow s b).region
    | none => tableRegion s 0
  let c := { Coll.blank s ⟨region.comm, g.number, 0⟩ step with fmt := 7 }
  let parts := fun (l : List Saved) (late : Bool) => l.flatMap (fun r =>
    ((rowsFrom g.rowLen (r.payload.length / (8 + 4 * g.rowLen) + 1) r.payload).filter (fun x => ownsRow region x.1)).map (fun x =>
      (⟨x.1, late, r.slot, x.2, false⟩ : RowPart)))
  let all := parts now false ++ parts older true
  (all.foldl (fun l x => setAddSorted l x.row) []).map (fun row =>
    (localRow region row, combineParts s c g.rowLen row (all.filter (fun x => decide (x.row = row)))))

/-- The context of a replayed step: its scale and its mode are those of the history after the step before (R72, R75). The profile
and state_mode are those in force: no record holds older ones (assumption 76). -/
def replayContext (s : State) (step : Nat) : Context :=
  let h := match ledgerFor s (step - 1) with
    | some x => x.history
    | none => s.train.history
  { ownContext s with step := step, k := h.scaleExp, mode := if cfg s 0x480003 = 1 ∨ 0 < h.wideLeft then 1 else 0 }

/-- Update `n` elements in place: six planes of words at `base` + plane × `stride`, from gradients. -/
def replayElems (x : Context) (coefs : Coefs) (stride : Nat) : Nat → State → List Nat → State
  | _, s, [] => s
  | base, s, v :: l =>
    let (w, s1) := (List.range 6).foldl (fun (a : List Nat × State) p =>
      let (b, t) := readThrough a.2 .acorn (base + p * stride) 2
      (a.1 ++ [b.nat], t)) ([], s)
    let (words, _) := updateWords x coefs v w
    replayElems x coefs stride (base + 2) ((words.zipIdx).foldl (fun t y => putThrough t .acorn (base + y.2 * stride) (bytesOfNat 2 y.1)) s1) l

/-- The results of a row's update are all finite; another row is held again (R139, R297). -/
def rowFinite (s : State) (x : Context) (coefs : Coefs) (g : Group) (row : Nat) (grads : List Nat) : Bool :=
  grads.zipIdx.all (fun e =>
    let w := (List.range 6).map (fun p => (readThrough s .acorn (planeAt g p row + 2 * e.2) 2).1.nat)
    !(updateWords x coefs e.1 w).2)

/-- Replay one step of a group: R70 with the result held for it, or recomputed (R297). -/
def replayGroup (s : State) (g : Group) (step : Nat) (ledger : LedgerItems) : State :=
  let x := replayContext s step
  let count := (tabGet GroupLedger.fresh ledger.groups g.number).updateCount
  let coefs := coefsOf (updateFormat x.profile x.mode) (coefficientBlock g.lr g.beta1 g.beta2 g.eps g.decay count)
  let held := (heldRecords s 4 g.number step).head?
  if g.number < 4096 then
    let grads := match held with
      | some r => elemsOfBytes 4 g.elements r.payload
      | none => recomputeDense s g step
    replayElems x coefs g.stride (committedBase s g) s grads
  else
    let rows := match held with
      | some r => rowsFrom g.rowLen (r.payload.length / (8 + 4 * g.rowLen) + 1) r.payload
      | none => recomputeRows s g step
    rows.foldl (fun (t : State) r =>
      if rowFinite t x coefs g r.1 r.2 then touchRow (replayElems x coefs g.stride (planeAt g 0 r.1) t r.2) g.number r.1 else t) s

/-- The module has replayed to c: commit record and ledger of c are its own (R297); deferral-log entries of c that it has not
written are written. -/
def replayEnded (s : State) (ledger : LedgerItems) : State :=
  let c := s.resil.restore
  let lost := s.resil.memoryLost || (ownFill s).isSome
  let s1 := takeLedger s ledger
  let s2 := (List.range (ledger.log.length / 32)).foldl (fun t i =>
    (putThrough t .acorn (logAt t t.fabric.logNext) ((ledger.log.drop (32 * i)).take 32)).onFabric (fun f => { f with
      logNext := (f.logNext + 1) % logEntries, logTotal := f.logTotal + 1 })) s1
  let s3 := s2.onTrain (fun t => { t with
    committed := c
    record := ledger.record
    started := true
    escapedStep := match t.escapedStep with
      | some e => if e ≤ c then none else some e
      | none => none })
  if lost then s3.onResil (fun r => { r with state := 5, inputsRequired := true, replayLeft := 0 })
  else runAgain (serveBehind (s3.onResil (fun r => { r with replayLeft := 0 })) c)

/-- REPLAY: with the ledgers of the step and of the one before, one step is replayed on every member-specific group whose state
lies below it; with none left the module stands at c. -/
def execReplay (s : State) : Host.Outcome State Fault Refusal :=
  let c := s.resil.restore
  let verified := s.resil.shards.all (fun x => s.resil.verified.any (fun v => decide (v.1 = x.1)))
  if s.resil.state ≠ 4 ∨ verified = false then .next s
  else
    let step := c + 1 - s.resil.replayLeft
    match ledgerFor s c, ledgerFor s step with
    | some last, none => if s.resil.replayLeft = 0 then done s (replayEnded s last) else .next s
    | some last, some now =>
      if s.resil.replayLeft = 0 then done s (replayEnded s last)
      else if 1 < step ∧ (ledgerFor s (step - 1)).isNone then .next s
      else
        let base := fun (g : Group) => ((s.resil.shards.find? (fun x => x.1 == g.number)).map (fun x => x.2)).getD s.train.committed
        let groups := (validGroups s.dict.values).filter (fun g => memberSpecific s g.number && decide (base g < step))
        let s1 := if now.record.applied then groups.foldl (fun t g => replayGroup t g step now) s else s
        let s2 := s1.onResil (fun r => { r with
          replayLeft := r.replayLeft - 1
          shards := r.shards.map (fun x => if memberSpecific s x.1 then (x.1, max x.2 step) else x) })
        done s (if s.resil.replayLeft = 1 then replayEnded s2 last else s2)
    | none, _ => .next s

/-- A buddy that lost its memory asks its clients for a full transfer (R300): those it knows, and, as a stack reset leaves it no
list, every other Henelo member of its job group, of which only a client obeys. -/
def askClients (s : State) : State :=
  if s.resil.memoryLost = false then s
  else (s.resil.clients ++ (jobNodes s).filter (fun n => decide (n ≠ ownNode s) && !s.resil.clients.contains n)).foldl (fun t n => sendPacket t (controlPacket t n (jobGroup t) 7 (bytesOfNat 8 (ownNode t).toNat))) s

/-- A write to resume: c + 1 on a module that awaits it (R299). -/
def resumeModule (s : State) (v : Nat) : Except Code State :=
  if s.resil.state ≠ 5 ∨ v ≠ s.resil.restore + 1 then .error 0x01100B07 else .ok (runAgain (askClients s))

end Sys2Proof.Machine
end

