-- ==== Sys2Proof/Machine/Mirror.lean ====
section
/-! DEFINITION. MIRROR records at the buddy, at a receiver and between twins (R282 to R286, R295, R300, R303 to R305), acknowledgements,
and the repair of single lines of saved state (R200, R298). -/

namespace Sys2Proof.Machine

open Sys2Proof

/-! ## The slot image (R295) -/

/-- Restore the slot image: its objects take the image's values; position, torus_dims and route_override only where the position
is the old one. -/
def restoreImage (s : State) (l : List Byte) : State :=
  let t := imageStore l
  let same := decide (storeNat t 0x500102 0 4 = cfg s 0x500102)
  let taken := fun (key : Nat) => inImage key && (same || !(decide (0x500101 ≤ key ∧ key ≤ 0x500103)))
  let kept := s.dict.values.filter (fun e => !taken (e.1 / 2 ^ 32))
  let new := t.filter (fun e => taken (e.1 / 2 ^ 32))
  s.onDict (fun d => { d with values := new.foldl (fun v e => tabInsert v e.1 e.2) kept })

/-! ## Records arriving -/

/-- The newest `n` of a list, by step, that satisfy a test; the others stay. -/
def keepNewest (n : Nat) (test : Saved → Bool) (l : List Saved) : List Saved :=
  let steps := ((l.filter test).map (fun r => r.step)).foldl setAddSorted []
  let low := steps.getD (steps.length - n) 0
  l.filter (fun r => !test r || decide (low ≤ r.step))

/-- Records held for a client after one more: two generations of a group, two ledgers, one slot image; REDO records stay. -/
def holdRecord (l : List Saved) (r : Saved) : List Saved :=
  let same := fun (x : Saved) => decide (x.node = r.node ∧ x.kind = r.kind ∧ x.group = r.group)
  let l1 := l.filter (fun x => !(same x && decide (x.step = r.step))) ++ [r]
  if r.kind = 7 then keepNewest 1 same l1 else if r.kind = 5 ∨ r.kind = 6 then keepNewest 2 same l1 else l1

/-- Acknowledge a record to the node that sent it: the header of the record is the payload (assumption 11). -/
def ackRecord (s : State) (node : BitVec 24) (header : List Byte) : State :=
  sendPacket s { blankPacket 0xB node with comm := jobGroup s, step := currentStep s, payload := header }

/-- A node list with a node at its place, ascending. -/
def addNode (n : BitVec 24) : List (BitVec 24) → List (BitVec 24)
  | [] => [n]
  | m :: l => if n = m then m :: l else if n.toNat < m.toNat then n :: m :: l else m :: addNode n l

/-- A record for this module's own fill or replay (R295). -/
def forFill (s : State) (r : Saved) : Bool :=
  let slot := match ownFill s with
    | some f => f.slot
    | none => jobSlot s
  decide (s.resil.state = 3 ∨ s.resil.state = 4) && decide (r.kind = 5 ∨ r.slot = slot)

/-- Take a record for the own fill: the ledger of c is taken over, a slot image restored, REDO records kept. Shards have their own
event. -/
def takeFill (s : State) (r : Saved) : State :=
  match r.kind with
  | 5 =>
    let s1 := s.onResil (fun x => { x with submitted := x.submitted ++ [r] })
    fillEnded (if r.step = s.resil.restore then takeLedger s1 (ledgerFrom r.payload) else s1)
  | 7 =>
    let s1 := (restoreImage s r.payload).onResil (fun x => { x with submitted := x.submitted ++ [r] })
    let shards := planAgain s1 s.resil.restore
    if s.resil.state = 3 then checkSources (fillEnded (s1.onResil (fun x => { x with shards := shards, shardsTotal := shards.length }))) else s1
  | 6 => s
  | _ => s.onResil (fun x => { x with submitted := x.submitted ++ [r] })

/-- The sources of a record that the mirror node or a peer sends: that node, and the snapshot tier where the fill names it (R295,
5). -/
def recordSources (s : State) (node : BitVec 24) : List (BitVec 24) :=
  match ownFill s with
  | some f => node :: (if f.snapshot then [noNode] else [])
  | none => [node]

/-- A whole record has arrived from a node, its bytes with their poison (R202): one of the own fill, or one to be held for a
client, written in the Acorn area and acknowledged (R282). A ledger or a generation of a Henelo member that is no client is a
peer copy that this module has no use for: a full transfer begins with the slot image. -/
def takeRecord (s : State) (node : BitVec 24) (l : List (Byte × Bool)) : State :=
  let (r, good) := savedFrom node l
  let ack := fun (t : State) => ackRecord t node ((l.take 64).map (fun x => x.1))
  if good = false then if forFill s r then sourceFailed s (recordKey r) r.group node (recordSources s node) else raise s 0x080E0B05 r.group
  else if s.resil.twinState = 2 ∧ node = twinPartnerNode s then ack (s.onResil (fun x => { x with submitted := x.submitted ++ [r] }))
  else if forFill s r then ack (takeFill s r)
  else if s.resil.clients.contains node = false ∧ (4096 ≤ s.resil.clients.length ∨ ((r.kind = 5 ∨ r.kind = 6) ∧ (jobNodes s).contains node = true)) then s
  else
    let s1 := placeIn s .acorn 0x600002 (Config.areaPlace 1 [node.toNat, r.kind, r.group, r.step]) l
    ack (s1.onResil (fun x => { x with clients := addNode node x.clients, mirrored := holdRecord x.mirrored r }))

/-! ## The twin's packets (R303, R304) -/

/-- A digest, leave or evict packet of the partner; a digest or leave of a later step waits until this module has reached that step,
an evict acts at once, also after this module has committed its step (R304). -/
def takeTwin (s : State) (kind step : Nat) (body : List Byte) : State :=
  if paired s = false then s
  else if kind = 0x12 ∨ step = currentStep s then takeTwinNow s kind step body
  else if step < currentStep s then s
  else s.onResil (fun r => { r with twinEarly := r.twinEarly ++ [(kind, step, body.take 64)] })

/-- MIRROR: a record, or a twin's packet, reaches the module; pieces of a record follow one another in their stream. -/
def execMirror (p : Packet) (s : State) : Host.Outcome State Fault Refusal :=
  withPacket s 0xA p (fun t =>
    let kind := natOfBytes (p.payload.take 1)
    if p.elemOffset = 0 ∧ 0x10 ≤ kind ∧ kind ≤ 0x12 ∧ p.src = twinPartnerNode t then takeTwin t kind p.step (p.payload.drop 64)
    else
      let before := if p.elemOffset = 0 then [] else
        match t.resil.incoming.find? (fun x => decide (x.1 = p.src)) with
        | some x => x.2
        | none => []
      let l := before ++ p.payload.zipIdx.map (fun x => (x.1, p.poison.contains (x.2 / 8)))
      let others := t.resil.incoming.filter (fun x => decide (x.1 ≠ p.src))
      if p.payload.length < 4096 then takeRecord (t.onResil (fun r => { r with incoming := others })) p.src l
      else t.onResil (fun r => { r with incoming := others ++ [(p.src, l)] }))

/-- A record's header is the one acknowledged. -/
def acked (h : List Byte) (r : Saved) : Bool := decide (r.bytes.take 64 = h)

/-- MIRROR_ACK: the record is no longer waited for; READYs that it held are sent (R286). -/
def execMirrorAck (p : Packet) (s : State) : Host.Outcome State Fault Refusal :=
  withPacket s 0xB p (fun t =>
    releaseReadys (t.onResil (fun r => { r with
      gate := r.gate.filter (fun x => !acked p.payload x)
      transfer := r.transfer.filter (fun x => !acked p.payload x) })) (carrierNow t))

/-- A full transfer to the buddy (R282): the slot image, the current generation of every mirror-method group, the REDO records not
yet exported, and the ledgers that the gate waits for. -/
def startTransfer (s : State) : State :=
  if hasBuddy s = false then s.onResil (fun r => { r with transfer := [] })
  else
    let c := s.train.committed
    let (gens, s1) := ((validGroups s.dict.values).filter (fun g => saveMethod s g.number == 1)).foldl (fun (a : List Saved × State) g =>
      let (r, t) := planesRecord a.2 6 c g
      (a.1 ++ r.toList, t)) ([], s)
    let image := imagePayload s
    let redo := (s.resil.exportsDue ++ s.resil.gate).filter (fun r => decide (r.kind = 3 ∨ r.kind = 4))
    let ledgers := s.resil.gate.filter (fun r => r.kind == 5)
    let l := savedRecord s 7 c noGroup image :: gens ++ redo.eraseDups ++ ledgers
    l.foldl (fun t r => sendRecord t (buddyNode t) r) (s1.onResil (fun r => { r with
      transfer := l, gate := r.gate.filter (fun x => decide (x.kind ≠ 6)), imageSent := image }))

/-- BUDDY_TIMEOUT: the buddy has acknowledged nothing for member_timeout while the gate holds (R286). -/
def execBuddyTimeout (s : State) : Host.Outcome State Fault Refusal :=
  if s.resil.gate = [] ∧ s.resil.transfer = [] then .next s else done s (raise s 0x080E0B02 (cfg s 0x600001))

/-- FULL_TRANSFER_REQUEST: the refilled buddy asks its client for a full transfer (R300). -/
def execFullTransferRequest (p : Packet) (s : State) : Host.Outcome State Fault Refusal :=
  withPacket s 0xC p (fun t =>
    let v := natOfBytes (p.payload.take 16)
    if bitsAt v 0 64 = 7 ∧ bitsAt v 64 32 = cfg t 0x600001 then startTransfer t else t)

/-! ## Timers of the twin (R303, R304) -/

/-- This module waits for its partner's packet of the step. -/
def twinWaits (s : State) : Bool := paired s && s.resil.twinSent && s.resil.twinPartner.isNone

/-- TWIN_TIMEOUT: with the hop failed the module runs single; with the hop up it raises the code once and waits on. -/
def execTwinTimeout (s : State) : Host.Outcome State Fault Refusal :=
  if twinWaits s = false then .next s
  else if portUp s 6 = false then done s (raise (s.onResil (fun r => { r with twinState := 1 })) 0x080E0B0A (currentStep s))
  else if s.resil.twinLateRaised then .next s
  else done s (raise (s.onResil (fun r => { r with twinLateRaised := true })) 0x080E0B0C (currentStep s))

/-- TWIN_LATE_LIMIT: the limit has passed since the own cut: the partner is evicted. -/
def execTwinLateLimit (s : State) : Host.Outcome State Fault Refusal :=
  if twinWaits s = false ∨ portUp s 6 = false then .next s
  else
    done s (raise ((sendPacket s (twinPacket s 0x12 [])).onResil (fun r => { r with twinState := 1 })) 0x080E0B0D (currentStep s))

/-- The inputs of the current step, as they go to a rejoining twin: what the regions that remote writers may write hold, each
with its address before it, in records of kind 0x13 (DESIGN CHOICE, assumption 86). -/
def inputRecords (s : State) : List Saved × State :=
  ((rdmaRegions s).filter (fun r => r.wr)).foldl (fun (a : List Saved × State) r =>
    let (b, t) := readThrough a.2 .acorn r.base r.size
    (a.1 ++ [markedRecord t 0x13 s.train.committed noGroup ((bytesOfNat 8 r.base).map (fun x => (x, false)) ++ b.data)], t)) ([], s)

/-- Everything of Table 11.5, and the inputs of the current step, that the survivor copies to its partner (R305). -/
def copyToTwin (s : State) : State :=
  let node := twinPartnerNode s
  let c := s.train.committed
  let s1 := sendRecord s node (savedRecord s 7 c noGroup (imagePayload s))
  let s2 := sendRecord s1 node (savedRecord s1 5 c noGroup (ledgerPayload s1 (lastLog s1)))
  let s3 := (validGroups s.dict.values).foldl (fun t g =>
    match planesRecord t 6 c g with
    | (some r, u) => sendRecord u node r
    | (none, u) => u) s2
  let (inputs, s4) := inputRecords s3
  inputs.foldl (fun t r => sendRecord t node r) s4

/-- The slot image of the survivor, restored but for what tells the two modules of a pair apart: twin_role and twin_partner
(R301; DESIGN CHOICE, assumption 86). -/
def takeTwinImage (s : State) (payload : List Byte) : State :=
  let own := fun (e : Nat × Byte) => decide (e.1 / 2 ^ 32 = 0x600601 ∨ e.1 / 2 ^ 32 = 0x500104)
  let t := restoreImage s payload
  t.onDict (fun d => { d with
    values := (s.dict.values.filter own).foldl (fun v e => tabInsert v e.1 e.2) (d.values.filter (fun e => !own e)) })

/-- The copy received from the survivor is taken over: slot image, ledger, planes, inputs; committed_step is the survivor's. -/
def joinTwin (s : State) (r : Saved) : State :=
  let x := ledgerFrom r.payload
  let s0 := (s.resil.submitted.filter (fun y => y.kind == 0x13)).foldl (fun t y =>
    (writeThrough t .acorn (natOfBytes (y.payload.take 8)) (y.marked.drop 8)).1) s
  let s1 := match s.resil.submitted.find? (fun y => y.kind == 7) with
    | some y => takeTwinImage s0 y.payload
    | none => s0
  let s2 := takeLedger s1 x
  let s3 := (s.resil.submitted.filter (fun y => decide (y.kind = 6 ∧ y.step = r.step))).foldl (fun t y =>
    placePlanes t (groupNow t y.group) y.marked) s2
  (clearStep (endWork s3)).onTrain (fun t => { t with committed := r.step, record := x.record, started := true })

/-- TWIN_REJOIN: between steps the survivor sends the copy and is paired again; the rejoining module takes it over (R305). A module
that has started up anew, and so holds no job state, begins to rejoin with it (DESIGN CHOICE, assumption 86). -/
def execTwinRejoin (s : State) : Host.Outcome State Fault Refusal :=
  if cfg s 0x600601 = 0 ∨ s.train.cut then .next s
  else if s.resil.twinState = 1 then done s (copyToTwin (s.onResil (fun r => { r with twinState := 0, twinExports := false })))
  else if s.resil.twinState = 2 then
    match s.resil.submitted.find? (fun y => y.kind == 5) with
    | some r => done s (runAgain ((joinTwin s r).onResil (fun x => { x with twinState := 0 })))
    | none => .next s
  else if s.train.started then .next s
  else done s (s.onResil (fun r => { r with twinState := 2 }))

/-! ## Line repair (R200, R298) -/

/-- The valid group whose committed state holds an address. -/
def groupAt (s : State) (a : Nat) : Option Group :=
  (validGroups s.dict.values).find? (fun g => decide (committedBase s g ≤ a ∧ a < committedBase s g + g.planeBytes))

/-- A byte as a read would give it, corrected where Table 8.4 corrects; none where its word is marked or cannot be corrected. -/
def usableByte (s : State) (a : Nat) : Option Byte :=
  let held := heldByte s.mem s.free a
  match decodeSyndrome (heldSyndrome s.mem s.free (a / 8)) with
  | .clean => some held
  | .checkBit _ => if isDetect s a then none else some held
  | .dataBit i => if isDetect s a then none else if i / 8 = a % 8 then some (held ^^^ BitVec.ofNat 8 (2 ^ (i % 8))) else some held
  | .poison => none
  | .uncorrectable => none

/-- A byte of a table row from the row's stage slot in state 2 for the current step. -/
def stagedByte (s : State) (g : Group) (a : Nat) : Option Byte :=
  let off := a - g.slot0
  let p := off / g.stride
  let q := off % g.stride
  let row := q / (2 * g.rowLen)
  if g.number < 4096 ∨ 6 ≤ p then none
  else (s.train.sweep.find? (fun x => decide (x.group = g.number ∧ x.row = row ∧ x.state = 2) && !x.held)).bind (fun x =>
    usableByte s (stageSlot g x.slot + 64 + 2 * g.rowLen * p + q % (2 * g.rowLen)))

/-- The value of a held line, where every byte of it is known. -/
def lineValue (s : State) (g : Group) (line : Nat) : Option (List Byte) :=
  let got := s.prot.lineValues.find? (fun v => decide (v.1 = line))
  (List.range 64).foldr (fun i acc =>
    let byte := match stagedByte s g (64 * line + i) with
      | some b => some b
      | none => got.map (fun v => v.2.getD i 0)
    match byte, acc with
    | some b, some l => some (b :: l)
    | _, _ => none) (some [])

/-- Where the value of a held line can come from (R298). -/
inductive LineSource where
  | ask (n : BitVec 24)
  | later
  | none
  deriving DecidableEq, Repr

/-- The source of a line: for a replicated group the other Henelo members in turn; for a mirror-method group the buddy, once no
generation of the group waits to be acknowledged; otherwise none. -/
def lineSource (s : State) (g : Group) (line : Nat) : LineSource :=
  let peers := if g.replicated && decide (g.number < 4096) then (jobNodes s).filter (fun n => decide (n ≠ ownNode s)) else []
  match peers.find? (fun n => !s.prot.lineAsked.contains (line, n)), peers.head? with
  | some n, _ => .ask n
  | Option.none, some n => .ask n
  | Option.none, Option.none =>
    if saveMethod s g.number = 1 && hasBuddy s then
      if (s.resil.gate ++ s.resil.transfer).any (fun r => decide (r.kind = 6 ∧ r.group = g.number)) then .later else .ask (buddyNode s)
    else .none

/-- Release the requests that a line holds. -/
def releaseLine (s : State) (line : Nat) : State :=
  s.onProt (fun p => { p with
    heldLines := p.heldLines.filter (fun h => decide (h.1 ≠ line))
    lineValues := p.lineValues.filter (fun v => decide (v.1 ≠ line))
    lineAsked := p.lineAsked.filter (fun v => decide (v.1 ≠ line)) })

/-- A line is free again: what waited for it goes on (R200). -/
def lineFreed (s : State) (line : Nat) : State :=
  let s1 := (releaseLine s line).onCache (fun c => { c with tagSynd := tabErase c.tagSynd line })
  let s2 := admitWaiting (serveHeldAccesses (lineReturned s1 line) line)
  if s2.cracker.heldRequests = [] then s2 else serveHeld s2

/-- The remote accesses that a line holds are answered with an error: its value is lost (R298). -/
def refuseHeld (s : State) (line : Nat) : State :=
  let mine := fun (x : HeldAccess) => remoteAccess x.who && (linesTouched x.addr x.length).contains line
  (s.prot.heldAccesses.filter mine).foldl (fun t x => tellInitiator t x.who 0x0801 x.addr)
    (s.onProt (fun p => { p with heldAccesses := p.heldAccesses.filter (fun x => !mine x) }))

/-- A word of the line cannot be read: uncorrectable or poisoned. -/
def lineBad (s : State) (line : Nat) : Bool :=
  (List.range 8).any (fun i => match decodeSyndrome (heldSyndrome s.mem s.free (8 * line + i)) with
    | .uncorrectable => true
    | .poison => true
    | _ => false)

/-- LINE_REPAIR: a line that was written anew meanwhile needs nothing; else Hazel writes the line's value once it has it, or asks
for it; a line without a source loses its group (R298). -/
def execLineRepair (line : Nat) (s : State) : Host.Outcome State Fault Refusal :=
  match s.prot.heldLines.find? (fun h => decide (h.1 = line)), groupAt s (64 * line) with
  | some h, some g =>
    if lineBad s line = false then done s (lineFreed s line)
    else match lineValue s g line with
    | some l =>
      let s1 := accessSlices (putMem s (64 * line) l) .hazel (64 * line) 64 true
      done s (lineFreed (s1.onProt (fun p => { p with savedRepairs := p.savedRepairs + 1 })) line)
    | none =>
      match lineSource s g line with
      | .ask n => done s (sendPacket s (controlPacket s n (jobGroup s) 5 (bytesOfNat 8 (64 * line) ++ bytesOfNat 8 s.train.committed)))
      | .later => .next s
      | .none =>
        let s1 := raise ((releaseLine s line).onProt (fun p => { p with lostGroups := setAdd p.lostGroups g.number }))
          (codeOf 8 h.2 0x0806) (64 * line)
        done s (enterHolding (refuseHeld s1 line))
  | some _, none => done s (lineFreed s line)
  | none, _ => .next s

/-- A line of a client's mirror-method group from the GENERATION at a step that the module holds for it. -/
def generationLine (s : State) (node : BitVec 24) (a step : Nat) : Option (List (Byte × Bool)) :=
  let recs := s.resil.mirrored.filter (fun r => decide (r.node = node))
  match recs.find? (fun r => r.kind == 7), recs.find? (fun r => decide (r.kind = 5 ∧ r.step = step)) with
  | some image, some ledger =>
    let t := imageStore image.payload
    let x := ledgerFrom ledger.payload
    let base := fun (g : Group) => if (tabGet GroupLedger.fresh x.groups g.number).liveIsOne then g.base2 else g.slot0
    match (validGroups t).find? (fun g => decide (g.number < 4096 ∧ base g ≤ a ∧ a < base g + g.planeBytes)) with
    | some g =>
      (recs.find? (fun r => decide (r.kind = 6 ∧ r.group = g.number ∧ r.step = step))).map (fun r =>
        (List.range 64).map (fun i =>
          let off := a + i - base g
          let q := off % g.stride
          if off / g.stride < 6 ∧ q < g.planeLen then
            (let i := off / g.stride * g.planeLen + q; (r.payload.getD i 0, r.poison.contains i))
          else (0, false)))
    | none => none
  | _, _ => none

/-- The answer to a line request: status and bytes. -/
def lineAnswer (s : State) (node : BitVec 24) (a step : Nat) : Nat × List Byte × State :=
  let zeros := List.replicate 64 (0 : Byte)
  match generationLine s node a step with
  | some l => if l.any (fun x => x.2) then (1, zeros, s) else (0, l.map (fun x => x.1), s)
  | none =>
    match groupAt s a with
    | some g =>
      if memberSpecific s g.number then (2, zeros, s)
      else if s.train.committed ≠ step then (1, zeros, s)
      else
        let (b, s1) := readThrough s .hazel a 64
        if b.error ∨ b.held ∨ b.poisoned then (1, zeros, s1) else (0, b.bytes, s1)
    | none => (2, zeros, s)

/-- LINE_REQUEST: a peer asks for a committed line (R298, Table 13.5). -/
def execLineRequest (p : Packet) (s : State) : Host.Outcome State Fault Refusal :=
  withPacket s 0xC p (fun t =>
    let v := natOfBytes (p.payload.take 24)
    if bitsAt v 0 64 ≠ 5 then t
    else
      let a := bitsAt v 64 64
      let (status, l, t1) := lineAnswer t p.src a (bitsAt v 128 64)
      sendPacket t1 (controlPacket t1 p.src p.comm 6 (bytesOfNat 8 a ++ bytesOfNat 8 status ++ l)))

/-- LINE_REPLY: the value of a held line arrives, or the peer has none and the next is asked. -/
def execLineReply (p : Packet) (s : State) : Host.Outcome State Fault Refusal :=
  withPacket s 0xC p (fun t =>
    let v := natOfBytes (p.payload.take 24)
    let line := bitsAt v 64 64 / 64
    if bitsAt v 0 64 ≠ 6 ∨ t.prot.heldLines.any (fun h => decide (h.1 = line)) = false then t
    else if bitsAt v 128 64 ≠ 0 then t.onProt (fun q => { q with lineAsked := q.lineAsked ++ [(line, p.src)] })
    else t.onProt (fun q => { q with
      lineValues := q.lineValues.filter (fun x => decide (x.1 ≠ line)) ++ [(line, (p.payload.drop 24).take 64)] }))

end Sys2Proof.Machine
end

