-- ==== Sys2Proof/Machine/Ports.lean ====
section
/-! DEFINITION. The peer ports (R218 to R226): modes, lanes and training, the receiving link layer, liveness probes and hop failures with
their path notices (R232). -/

namespace Sys2Proof.Machine

open Sys2Proof

/-- A link fault of a port: raised, and written into its link fault record (Table 9.6). -/
def linkFault (s : State) (port : Nat) (code : Code) : State :=
  raise (onPort s port (fun p => { p with faultCode := code, faultStep := currentStep s })) code port

/-! ## Hop failures (R225, R232) -/

/-- The payload of a flit, each byte with the poison mark of its word. -/
def markedPayload (f : OutFlit) : List (Byte × Bool) :=
  (padTo 216 f.payload).zipIdx.map (fun x => (x.1, f.poison.contains (x.2 / 8)))

/-- The packet that bytes make. -/
def packetFrom (l : List (Byte × Bool)) : Packet := packetOf (natOfBytes ((l.take 64).map (fun x => x.1))) (l.drop 64)

/-- The numbers of the packets of an outbox of which no flit has been sent, in order. -/
def unsentPackets (l : List OutFlit) : List Nat := (l.filter (fun f => decide (f.pos ≤ 1))).map (fun f => f.packet)

/-- A PATH_NOTICE to the source of a packet between Henelo nodes, naming its destination (R231, R232). -/
def sendNotice (s : State) (ends : BitVec 24 × BitVec 24) : State :=
  if nodeAttach ends.1 ≠ 7 ∨ nodeAttach ends.2 ≠ 7 then s
  else sendPacket s { blankPacket 6 ends.1 with elemOffset := ends.2.toNat }

/-- The hop to the twin fails while the module waits for its late packet: it runs single (R303). -/
def loseTwinHop (s : State) (port : Nat) : State :=
  if port = 6 ∧ paired s = true ∧ s.resil.twinLateRaised = true ∧ s.resil.twinPartner.isNone then
    raise (s.onResil (fun r => { r with twinState := 1 })) 0x080E0B0A (currentStep s)
  else s

/-- A packet of a lost port's outbox of which no flit was sent takes another way: a whole one at once, one that is still arriving
when it has arrived (R228, R229). -/
def takeAnotherWay (l : List OutFlit) (s : State) (n : Nat) : State :=
  let mine := l.filter (fun f => decide (f.packet = n))
  let bytes := mine.flatMap markedPayload
  let whole := mine.any (fun f => decide (f.pos = 0 ∨ f.pos = 3))
  match (mine.filterMap (fun f => f.slot)).head? with
  | none => forward s (packetFrom bytes) none
  | some (q, vc) =>
    if whole then returnCredits (forward s (packetFrom bytes) (some (q, bitAt vc 2))) q vc
    else onPort s q (fun p => { p with
      passing := p.passing.filter (fun x => decide (x.packet ≠ n))
      assembling := p.assembling.filter (fun x => decide (x.1 ≠ vc)) ++ [(vc, bytes)] })

/-- The rest of a packet whose head a lost port has sent is dropped. -/
def dropRest (s : State) (n : Nat) : State :=
  { s with fabric := { s.fabric with ports := s.fabric.ports.map (fun (e : Nat × Port) => (e.1, { e.2 with
      passing := e.2.passing.map (fun x => if x.packet = n then { x with dropped := true } else x) })) } }

/-- A packet cut off while it came in by a port is ended on the port it leaves by with a flit that has abort = 1 (R232). -/
def abortPassing (s : State) (x : Passing) : State :=
  if x.dropped then s else queueFlits s x.out [⟨x.outVc, 3, true, [], [], x.ends, x.packet, none⟩]

/-- The older members that a port leads to: those attached there (R227). -/
def olderAt (s : State) (port : Nat) : List (BitVec 24) :=
  ((s.fabric.groups.flatMap (fun g => g.members)).filter (fun m => decide (m.generation ≠ 2 ∧ nodePosition m.node = ownPosition s ∧
    nodeAttach m.node = port))).map (fun m => m.node) |>.eraseDups

/-- A failed hop to an older member is that member's failure: it is unreachable, and the module holds (R232; that it is treated as
R288 treats a Henelo member is DEDUCED, assumption 70). -/
def loseOlder (s : State) (node : BitVec 24) : State :=
  if s.resil.unreachable.contains node then s
  else enterHolding (raise (s.onResil (fun r => { r with unreachable := r.unreachable ++ [node] })) 0x080A0B01 node.toNat)

/-- A port that was up is lost: the hop is counted as failed, sources of the packets in its replay buffer and of the cut ones are
notified, packets not begun take another way, packets cut off are ended on their way (R225, R229, R232). -/
def failHop (s : State) (port : Nat) (next : Nat) : State :=
  let p := portOf s port
  let whole := unsentPackets p.outbox
  let cut := p.outbox.filter (fun f => !whole.contains f.packet && !f.abort)
  let ends := (p.replay.filterMap (fun f => f.ends) ++ cut.map (fun f => f.ends)).eraseDups
  let s1 := onPort s port (fun p => { p with
    state := next
    hopFailures := p.hopFailures + 1
    replay := []
    outbox := []
    assembling := []
    granted := []
    openOut := []
    passing := []
    discarding := false })
  let s2 := loseTwinHop (linkFault s1 port 0x030B0901) port
  let s3 := (p.openOut.map (fun e => e.2 - 1)).foldl dropRest (ends.foldl sendNotice s2)
  let s4 := (cut.filterMap (fun f => f.slot)).foldl (fun t x => returnCredits t x.1 x.2) s3
  let s5 := p.passing.foldl abortPassing (whole.foldl (takeAnotherWay p.outbox) s4)
  (olderAt s port).foldl loseOlder s5

/-- The port is up and its hop fails, or it is put into a state. -/
def leaveUp (s : State) (port next : Nat) : State :=
  if portUp s port then failHop s port next else onPort s port (fun p => { p with state := next })

/-- port_mode of a port was written: off, or through training (R218, Table 9.3). -/
def applyPortMode (s : State) (port : Nat) : State :=
  let mode := cfgElem s 0x500001 port
  onPort (leaveUp s port (if mode = 0 then 0 else 1)) port (fun p => { p with badLanes := [], spareUsed := false })

/-! ## Lanes and training (R220, R221) -/

/-- LANE_FAIL: the spare of mode 1 takes the lane's place, or the port goes back through training (Table 9.3). -/
def execLaneFail (port lane : Nat) (s : State) : Host.Outcome State Fault Refusal :=
  let p := portOf s port
  let mode := cfgElem s 0x500001 port
  if p.badLanes.contains lane ∨ p.state = 0 ∨ (lane = 8 ∧ mode ≠ 1) then .next s
  else
    let s1 := onPort s port (fun p => { p with badLanes := setAddSorted p.badLanes lane })
    if p.state = 2 ∧ mode = 1 ∧ lane = 8 ∧ p.spareUsed = false then done s s1
    else if p.state = 2 ∧ mode = 1 ∧ lane ≠ 8 ∧ p.spareUsed = false ∧ p.badLanes.contains 8 = false then
      done s (linkFault (onPort s1 port (fun p => { p with spareUsed := true })) port 0x030B0902)
    else done s (leaveUp s1 port 1)

/-- A port comes up: numbering restarts, 8 credits are held for each virtual channel, and held packets leave (R223, R229). -/
def raisePort (s : State) (port state : Nat) : State :=
  releaseReroute (pumpPort (onPort s port (fun p => { p with
    state := state
    txSeq := 0
    rxLast := 0xFFF
    replay := []
    discarding := false
    credits := (List.range 16).map (fun vc => (vc, 8))
    granted := (List.range 16).map (fun vc => (vc, 8))
    assembling := [] })) port)

/-- The outcome of training (Table 9.3). -/
def finishTraining (s : State) (port : Nat) (good : NatSet) (version : Nat) : State :=
  let mode := cfgElem s 0x500001 port
  let lanes := if mode = 1 then 9 else 8
  let ok := (List.range lanes).filter (fun n => good.contains n)
  let s1 := onPort s port (fun p => { p with
    badLanes := (List.range lanes).filter (fun n => !good.contains n)
    spareUsed := decide (mode = 1 ∧ ok.length = 8) && good.contains 8 })
  if version ≠ modeVersion mode then linkFault s1 port 0x030B0905
  else if 8 ≤ ok.length then raisePort s1 port 2
  else if 4 ≤ ok.length then raisePort (linkFault s1 port 0x030B0903) port 3
  else linkFault s1 port 0x030B0904

/-- PORT_TRAINING_DONE: training ends (R221). -/
def execPortTrainingDone (port : Nat) (goodLanes : NatSet) (version : Nat) (s : State) : Host.Outcome State Fault Refusal :=
  if (portOf s port).state ≠ 1 then .next s else done s (finishTraining s port goodLanes version)

/-- TRAINING_RETRY: training of a port that has not come up is repeated every 100 ms, with its outcome (Table 9.3). -/
def execTrainingRetry (port : Nat) (goodLanes : NatSet) (version : Nat) (s : State) : Host.Outcome State Fault Refusal :=
  if (portOf s port).state ≠ 1 then .next s else done s (finishTraining s port goodLanes version)

/-! ## The receiving link layer (R222 to R224) -/

/-- The words of a flit with their syndromes: the header word, then the 27 payload words. -/
def flitWords (l : List Byte) : List (Word64 × BitVec 8) :=
  let words := wordsOfBytes 28 l
  let checks := l.getD 251 0 :: (l.drop 224).take 27
  List.zipWith (fun w c => (w, eccSyndrome w c)) words checks

/-- The CRC of a flit matches and every syndrome is 0x00 or 0xFF (R224). -/
def flitGood (l : List Byte) : Bool :=
  decide (natOfBytes ((l.drop 252).take 4) = (crc32 (l.take 252)).toNat) &&
    (flitWords l).all (fun w => decide (w.2 = 0 ∨ w.2 = 0xFF))

/-- The payload bytes of a flit, each with the poison mark of its word. -/
def flitPayload (l : List Byte) : List (Byte × Bool) :=
  ((flitWords l).drop 1).flatMap (fun w => (bytesOfNat 8 w.1.toNat).map (fun b => (b, decide (w.2 = 0xFF))))

/-- Discard the replay flits up to an acknowledged number. -/
def acknowledge (l : List SentFlit) (ack : Nat) : List SentFlit :=
  match l.findIdx? (fun f => decide (f.seq = ack)) with
  | some i => l.drop (i + 1)
  | none => l

/-- Take the acknowledgement, credits and nak of a received header (R223, R224). -/
def takeHeader (s : State) (port : Nat) (h : LinkHeader) : State :=
  let s1 := onPort s port (fun p => { p with
    replay := acknowledge p.replay h.ack
    credits := tabCount p.credits h.creditVc h.creditCount })
  if h.nak then
    let again := (portOf s1 port).replay
    again.foldl (fun t f => emit t (.flit port f.bytes))
      (s1.onFabric (fun k => { k with retries := tabCount k.retries port again.length }))
  else s1

/-- A packet has arrived whole: for this node, held, or of a reserved type (R228, R230). -/
def arrivePacket (s : State) (port vc : Nat) (bytes : List (Byte × Bool)) : State :=
  let p := packetFrom bytes
  if p.dst = ownNode s ∧ (p.ptype = 0 ∨ 12 < p.ptype) then
    returnCredits (s.onFabric (fun k => { k with discarded := k.discarded + 1 })) port vc
  else forwardFrom s p (some (port, bitAt vc 2)) (some ⟨port, vc, bytes.length / 216⟩)

/-- The flit of a passing packet as its next port sends it; the head of one that takes its detour is marked. -/
def passFlit (h : LinkHeader) (l : List (Byte × Bool)) (ends : BitVec 24 × BitVec 24) (port packet outVc : Nat) (detour : Bool) : OutFlit :=
  let bytes := l.map (fun x => x.1)
  let poison := l.zipIdx.foldl (fun a x => if x.1.2 then setAddSorted a (x.2 / 8) else a) []
  ⟨outVc, h.pos, h.abort, if detour then (bytes.getD 0 0 ||| 0x40) :: bytes.drop 1 else bytes, poison, ends, packet, some (port, h.vc)⟩

/-- The head of a packet for elsewhere has passed its checks: it goes on at once (R228). -/
def startPassing (s : State) (port : Nat) (h : LinkHeader) (l : List (Byte × Bool)) (p : Packet) (out outVc : Nat) (detour : Bool) : State :=
  let n := s.fabric.nextPacket
  let s1 := (countDetour s detour).onFabric (fun k => { k with nextPacket := n + 1 })
  let s2 := if h.pos = 1 ∧ h.abort = false then onPort s1 port (fun q => { q with passing := q.passing ++ [⟨h.vc, out, outVc, n, (p.src, p.dst), false⟩] }) else s1
  queueFlits s2 out [passFlit h l (p.src, p.dst) port n outVc detour]

/-- Accept the payload of a flit in order: send it on where its packet passes, else gather it, end the packet, or discard an
aborted one (R224, R228, R232). -/
def takePayload (s : State) (port : Nat) (h : LinkHeader) (l : List Byte) : State :=
  let q := portOf s port
  let part := flitPayload l
  let ends := decide (h.pos = 0 ∨ h.pos = 3) || h.abort
  let keep := fun (p : Port) => p.assembling.filter (fun x => !(x.1 == h.vc))
  let gather := fun (t : State) =>
    let before := if h.pos = 0 ∨ h.pos = 1 then [] else ((q.assembling.find? (fun x => x.1 == h.vc)).map (fun x => x.2)).getD []
    if h.abort then returnCredits (onPort t port (fun p => { p with assembling := keep p })) port h.vc
    else if ends then arrivePacket (onPort t port (fun p => { p with assembling := keep p })) port h.vc (before ++ part)
    else onPort t port (fun p => { p with assembling := keep p ++ [(h.vc, before ++ part)] })
  if h.pos = 0 ∨ h.pos = 1 then
    let p := packetFrom part
    match routeOf s p (some (port, bitAt h.vc 2)) with
    | .out out vc detour => startPassing s port h part p out vc detour
    | _ => gather s
  else
    match q.passing.find? (fun x => x.vc == h.vc) with
    | none => gather s
    | some x =>
      let s1 := if ends then onPort s port (fun p => { p with passing := p.passing.filter (fun y => !(y.vc == h.vc)) }) else s
      if x.dropped then returnCredits s1 port h.vc
      else queueFlits s1 x.out [passFlit h part x.ends port x.packet x.outVc false]

/-- Answer a flit that is not accepted: nak once, then discard until the replayed flit arrives (R224). -/
def refuseFlit (s : State) (port : Nat) : State :=
  if (portOf s port).discarding then s
  else idleFlit (onPort s port (fun p => { p with discarding := true })) port true 0 0

/-- What the FEC of each lane corrected is counted (R219, 0x5005.04); what one count stands for, a symbol or a codeword, the spec
does not say, and is the command's (DESIGN CHOICE, assumption 20). -/
def countFec (s : State) (port : Nat) (fec : List Nat) : State :=
  s.onFabric (fun k => { k with fecCorrected := fec.zipIdx.foldl (fun (t : Tab Nat) x => tabCount t (9 * port + x.2) x.1) k.fecCorrected })

/-- FLIT_RECEIVE: the link layer checks a flit, accepts it in sequence or answers with a nak, and takes its header's
acknowledgement and credits (R222 to R224). -/
def execFlitReceive (port : Nat) (flit : ReceivedFlit) (s : State) : Host.Outcome State Fault Refusal :=
  let p := portOf s port
  let s0 := countFec s port flit.fec
  if p.state < 2 then .next s
  else if flitGood flit.bytes = false then done s (refuseFlit s0 port)
  else
    let h := linkHeaderOf (natOfBytes (flit.bytes.take 8))
    let s1 := takeHeader s0 port h
    if h.valid = false then done s (pumpPort s1 port)
    else if h.seq ≠ (p.rxLast + 1) % 4096 then done s (pumpPort (refuseFlit s1 port) port)
    else
      let s2 := (onPort s1 port (fun p => { p with
        rxLast := h.seq
        discarding := false
        granted := tabModify 0 p.granted h.vc (· - 1) })).onFabric
        (fun k => { k with flitsReceived := tabCount k.flitsReceived port 1 })
      if h.probe then done s (pumpPort (answerFlit s2 port h.vc) port)
      else done s (pumpPort (answerFlit (takePayload s2 port h flit.bytes) port h.vc) port)

/-! ## Liveness (R225) -/

/-- HOP_DEADLINE: the oldest unacknowledged flit has waited 1.5 µs, or in modes 2 and 3 nothing has arrived for as long (R225). -/
def execHopDeadline (port : Nat) (s : State) : Host.Outcome State Fault Refusal :=
  let p := portOf s port
  if p.state < 2 ∨ (cfgElem s 0x500001 port = 1 ∧ p.replay = []) then .next s else done s (failHop s port 1)

/-- PROBE: a port of mode 1 that has sent no sequenced flit for 0.5 µs sends a probe, which is sequenced, has no payload and takes
a credit of virtual channel 0 (R223, R225). -/
def execProbe (port : Nat) (s : State) : Host.Outcome State Fault Refusal :=
  let p := portOf s port
  if p.state < 2 ∨ cfgElem s 0x500001 port ≠ 1 ∨ 1280 ≤ p.replay.length ∨ tabGet 0 p.credits 0 = 0 then .next s
  else
    let h : LinkHeader := ⟨0, true, false, 0, p.txSeq, p.rxLast, false, true, 0, 0, modeVersion (cfgElem s 0x500001 port)⟩
    let bytes := flitBytes h [] []
    let s1 := onPort s port (fun p => { p with
      txSeq := (p.txSeq + 1) % 4096
      replay := p.replay ++ [⟨p.txSeq, bytes, none⟩]
      credits := tabModify 0 p.credits 0 (· - 1) })
    done s (emit (s1.onFabric (fun k => { k with flitsSent := tabCount k.flitsSent port 1 })) (.flit port bytes))

/-- The counters of 0x5005 are set to zero (R251). -/
def clearFabricCounters (s : State) : State :=
  s.onFabric (fun k => { k with
    flitsSent := []
    flitsReceived := []
    retries := []
    fecCorrected := []
    detours := 0
    resends := 0
    ties := 0 })

end Sys2Proof.Machine
end

