-- ==== Sys2Proof/Machine/PowerCtl.lean ====
section
/-! DEFINITION. Power, pace and heat (chapters 2 and 12): rails, droops and ramps, pace windows, the power sample with its buckets,
gates, throttle reason and energies, thermal control and trips; the vertical interfaces and power clusters of chapter 8. -/

namespace Sys2Proof.Machine

open Sys2Proof

/-! ## Rails and pace (R32, R33, R309, R315, R316) -/

/-- The rail that supplies a layer (Table 12.2). -/
def railOf (layer : Nat) : Nat := if layer = 5 then 0 else if layer = 0 then 5 else layer

/-- The functional floor of a layer's rail, mV (Table 12.2). -/
def floorOf (layer : Nat) : Nat := if layer = 0 then 700 else 600

/-- RAIL_BELOW_FLOOR: the layer's supervisor stops its handshakes (R32, R316). -/
def execRailBelowFloor (layer mv : Nat) (s : State) : Host.Outcome State Fault Refusal :=
  if floorOf layer ≤ mv ∨ s.power.stopped.contains layer then .next s
  else
    done s (raise (s.onPower (fun p => { p with
      stopped := setAddSorted p.stopped layer
      railMv := listSet p.railMv (railOf layer) mv
      floorStops := p.floorStops + 1 })) 0x06110C04 0)

/-- RAIL_ABOVE_FLOOR: the rail is back above the floor and the handshakes run again (R32). -/
def execRailAboveFloor (layer mv : Nat) (s : State) : Host.Outcome State Fault Refusal :=
  if mv ≤ floorOf layer then .next s
  else
    done s (admitWaiting (s.onPower (fun p => { p with
      stopped := setRemove p.stopped layer
      railMv := listSet p.railMv (railOf layer) mv })))

/-- RAIL_BELOW_RETENTION: below 0.45 V the module performs a stack reset with cause 2 (R32, Table 14.3). -/
def execRailBelowRetention (_layer mv : Nat) (s : State) : Host.Outcome State Fault Refusal :=
  if 450 ≤ mv then .next s else resetStack s 2 0

/-- PACE_WINDOW: ring completions of the layers over the window become paces in 10^6 cycles per second (R33). -/
def execPaceWindow (rings : List Nat) (s : State) : Host.Outcome State Fault Refusal :=
  let w := cfg s 0x280004
  let now := rings.map (fun n => n / w)
  done s (s.onPower (fun p => { p with
    paceNow := now
    paceMin := if p.paceCleared then now else List.zipWith min p.paceMin now
    paceMax := if p.paceCleared then now else List.zipWith max p.paceMax now
    paceCleared := false }))

/-- DROOP_BEGIN: a rail falls more than 25 mV below its setpoint (R316). -/
def execDroopBegin (rail mv : Nat) (s : State) : Host.Outcome State Fault Refusal :=
  if s.power.railSet.getD rail 0 ≤ mv + 25 ∨ s.power.droop.contains rail then .next s
  else
    done s (s.onPower (fun p => { p with
      droop := setAddSorted p.droop rail
      droops := tabCount p.droops rail 1
      railMv := listSet p.railMv rail mv }))

/-- The lowest setpoint of rail 0: 0.62 V, and 0.65 V while a compute-die sensor reads below 15 °C (R309, R321). -/
def railMinimum (s : State) : Nat := if (s.power.temps.take 96).any (fun t => decide (t < 150)) then 650 else 620

/-- The setpoint rail 0 moves toward. -/
def railTarget (s : State) : Nat := max (effectiveSetpoint s) (railMinimum s)

/-- The cache rails' setpoint for a setpoint of rail 0 (Table 12.2). -/
def cacheSetpoint (mv : Nat) : Nat := max 650 (min 800 (mv - 50))

/-- Setpoints with rail 0 at `mv` and rails 1 to 4 tracking it, but for those whose step waits for a droop of their own (Table 12.4). -/
def withRail0 (droop : NatSet) (l : List Nat) (mv : Nat) : List Nat :=
  mv :: [1, 2, 3, 4].map (fun k => if droop.contains k then l.getD k 0 else cacheSetpoint mv) ++ l.drop 5

/-- A ramp step meets a droop and waits (R315, R316, Table 12.4): a droop of rail 0, or, on a rise, of a cache rail that is to be
raised before it. -/
def rampHeld (s : State) : Bool :=
  let now := s.power.railSet.headD 0
  s.power.droop.contains 0 || (decide (now < railTarget s) &&
    [1, 2, 3, 4].any (fun k => s.power.droop.contains k && decide (s.power.railSet.getD k 0 < cacheSetpoint (now + 1))))

/-- The predicted power of the next sample at a gate and setpoint (R312, assumption 7). -/
def predicted (s : State) (gate setMv : Nat) : Nat :=
  Config.predictedPower (s.power.samples.headD 0) s.power.powerGate (s.power.railSet.headD 0) gate setMv

/-- The largest gate whose predicted power at a setpoint meets the target. -/
def largestGate (s : State) (setMv target : Nat) : Nat :=
  ((List.range 17).reverse.find? (fun n => decide (predicted s n setMv ≤ target))).getD 0

/-- Move rail 0 one millivolt toward its target; on a fall under a limit the gate rises with it, to 16 at the setpoint
(R312, R315). -/
def applyRamp (s : State) : State :=
  let now := s.power.railSet.headD 0
  let t := railTarget s
  if now = t then s.onPower (fun p => { p with powerGate := if p.powerLimitMv ≤ now then max p.powerGate 16 else p.powerGate })
  else
    let next := if now < t then now + 1 else now - 1
    let gate :=
      if next < now then (if next = t then 16 else max s.power.powerGate (largestGate s next s.power.target)) else s.power.powerGate
    s.onPower (fun p => { p with railSet := withRail0 p.droop p.railSet next, powerGate := gate })

/-- The step that the IVR controller asks for: applied, or made to wait by a droop. -/
def tryRamp (s : State) : State :=
  if rampHeld s then s.onPower (fun p => { p with rampWait := true })
  else applyRamp (s.onPower (fun p => { p with rampWait := false }))

/-- RAMP_STEP: the IVR controller takes a step, unless a droop makes it wait (R315, R316, Table 12.4). -/
def execRampStep (s : State) : Host.Outcome State Fault Refusal := done s (tryRamp s)

/-- A rail's droop is over; a cache rail takes the step that it has waited with (Table 12.4). -/
def endDroop (s : State) (rail mv : Nat) : State :=
  s.onPower (fun p => { p with
    droop := setRemove p.droop rail
    railMv := listSet p.railMv rail mv
    railSet := if 1 ≤ rail ∧ rail ≤ 4 then listSet p.railSet rail (cacheSetpoint (p.railSet.headD 0)) else p.railSet })

/-- DROOP_END: the rail has stayed within 10 mV of its setpoint; a waiting ramp step is applied (R316). -/
def execDroopEnd (rail mv : Nat) (s : State) : Host.Outcome State Fault Refusal :=
  let set := s.power.railSet.getD rail 0
  if s.power.droop.contains rail = false ∨ mv + 10 < set ∨ set + 10 < mv then .next s
  else if s.power.rampWait then done s (tryRamp (endDroop s rail mv))
  else done s (endDroop s rail mv)

/-! ## Heat (R320 to R322) -/

/-- The compute-die sensors that govern tile row y (Table 12.8). -/
def rowSensors (s : State) (y : Nat) : List Int := (s.power.temps.drop (12 * (y / 2))).take 12

/-- The sensors of L0 to L4. -/
def lowerSensors (s : State) : List Int := (s.power.temps.drop 96).take 128

/-- The hottest die sensor, entries 0 to 223. -/
def hottestDie (s : State) : Int := (s.power.temps.take 224).foldl max (-1000)

/-- The rows that a die sensor governs. -/
def governedRows (i : Nat) : List Nat := if i < 96 then [2 * (i / 12), 2 * (i / 12) + 1] else List.range 16

/-- A trip condition of Table 12.9 that a sensor entry meets: 1, 2 or 3, else 0. -/
def tripCause (s : State) (i : Nat) : Nat :=
  let t := s.power.temps.getD i 0
  if i < 224 then
    if 1100 ≤ t then 1
    else if 1050 ≤ t ∧ (governedRows i).all (fun y => decide (rowGate s y = 0)) then 2
    else 0
  else if 1050 ≤ t then 3 else 0

/-- The sensor entry whose trip condition is timed: the hottest of them. -/
def tripSensor (s : State) : Option Nat :=
  ((List.range 236).filter (fun i => decide (tripCause s i ≠ 0))).foldl (fun a i =>
    match a with
    | some j => if s.power.temps.getD j 0 < s.power.temps.getD i 0 then some i else a
    | none => some i) none

/-- A trip condition is being timed. -/
def tripTimed (s : State) : Bool := (tripSensor s).isSome

/-- The pin STATUS_OK is released (R368). -/
def statusOk (s : State) : Bool := decide (s.boot.phase = 8) && !tripTimed s

/-- THERMAL_TRIP: a trip condition has persisted; the trip record is written and the stack resets (R321, R322). -/
def execThermalTrip (s : State) : Host.Outcome State Fault Refusal :=
  match tripSensor s with
  | none => .next s
  | some i =>
    let s1 := s.onFlash (fun f => { f with
      trip := some ⟨tripCause s i, i, nat32 (s.power.temps.getD i 0), f.trips + 1, s.train.committed⟩
      trips := f.trips + 1 })
    if s.power.convertersOn then restarted s (stackResetWith s1 3 0) else .next s

/-- The thermal gate of row y after one step: halved at 105 °C, doubled below 103 °C (Table 12.9). -/
def stepThermalGate (s : State) (y : Nat) : Nat :=
  let l := rowSensors s y ++ lowerSensors s
  let g := tabGet 16 s.power.thermalGates y
  if l.any (fun t => decide (1050 ≤ t)) then g / 2
  else if l.all (fun t => decide (t < 1030)) then (if g = 0 then 1 else min 16 (2 * g))
  else g

/-- THERMAL_LIMIT_STEP: the thermal limit and the junction gates take one step (R321). -/
def execThermalLimitStep (s : State) : Host.Outcome State Fault Refusal :=
  let target : Int := 10 * (cfg s 0x200403 : Int)
  let hot := hottestDie s
  let limit :=
    if target < hot then max 620 (s.power.thermalLimitMv - 5)
    else if hot + 20 ≤ target then min 850 (s.power.thermalLimitMv + 5)
    else s.power.thermalLimitMv
  let gates := (List.range 16).foldl (fun t y => tabSet 16 t y (stepThermalGate s y)) s.power.thermalGates
  let s1 := s.onPower (fun p => { p with thermalLimitMv := limit, thermalGates := gates })
  let junction := (s.power.temps.take 224).any (fun t => decide (1050 ≤ t))
  if junction ∧ s.power.junctionRaised = false then
    done s (raise (s1.onPower (fun p => { p with junctionRaised := true })) 0x06120C05 0)
  else if gates = [] then done s (s1.onPower (fun p => { p with junctionRaised := junction }))
  else done s s1

/-- GATE_RESTART_STEP: a restarting row's gate rises to 8 and then to its controlled value (R314). -/
def execGateRestartStep (row : Nat) (s : State) : Host.Outcome State Fault Refusal :=
  let g := tabGet 16 s.power.restart row
  done s (s.onPower (fun p => { p with restart := tabSet 16 p.restart row (if g < 8 then 8 else 16) }))

/-! ## The power sample (R310 to R312, R317 to R319) -/

/-- A bucket after a sample of power `w` at rate `r`: (w − r) × 8 µs, never below 0, in µJ (R312). -/
def fillBucket (level w r : Nat) : Nat := level + 8 * w - 8 * r

/-- Whether a bucket is active after a sample: at three quarters of its capacity it becomes active, empty it becomes inactive. -/
def bucketActive (was : Bool) (levelUj capacityMj : Nat) : Bool :=
  if levelUj = 0 then false else was || decide (750 * capacityMj ≤ levelUj)

/-- The target power: the sample cap, lowered by each active bucket to 0.99 of its rate. -/
def targetOf (s : State) : Nat :=
  let a := sampleCap s
  let b := if s.power.shortActive then min a (99 * shortRate s / 100) else a
  if s.power.longActive then min b (99 * longRate s / 100) else b

/-- The highest setpoint at which gate 16 meets the target, not below 0.62 V. -/
def highestSetpoint (s : State) (target : Nat) : Nat :=
  (((List.range 231).map (fun k => 850 - k)).find? (fun v => decide (predicted s 16 v ≤ target))).getD 620

/-- Gate and limit after the buckets (R312). -/
def controlSample (s : State) : State :=
  let target := targetOf s
  let s1 := s.onPower (fun p => { p with target := target })
  let now := s.power.railSet.headD 0
  if target < predicted s s.power.powerGate now then
    s1.onPower (fun p => { p with powerGate := largestGate s now target, powerLimitMv := highestSetpoint s target })
  else if s.power.shortActive = false ∧ s.power.longActive = false then
    s1.onPower (fun p => { p with powerLimitMv := cfg s 0x200104 })
  else s1

/-- Conditions of Table 12.5, in order; the sample cap's is that it sets the target and lowers the setpoint for it (assumption 87). -/
def reasonHolds (s : State) (r : Nat) : Bool :=
  let p := s.power
  let bucket := p.shortActive || p.longActive
  match r with
  | 1 => tripTimed s
  | 2 => p.thermalGates.any (fun g => decide (g.2 < 16))
  | 3 => decide (p.thermalLimitMv < cfg s 0x200104) && decide (p.thermalLimitMv ≤ p.powerLimitMv)
  | 4 => converterLoss s && bucket
  | 5 => decide (p.inputMv < 32000) && bucket
  | 6 => p.shortActive && decide (p.target = 99 * shortRate s / 100)
  | 7 => p.longActive && decide (0 < cfg s 0x200006 ∧ cfg s 0x200006 < 3200)
  | 8 => p.longActive && decide (p.target = 99 * longRate s / 100)
  | 9 => decide (p.target = sampleCap s ∧ p.powerLimitMv < cfg s 0x200104)
  | 10 => p.restart.any (fun g => decide (g.2 < 16))
  | 11 => decide (p.railSet.headD 0 < railTarget s)
  | 12 => p.rampWait
  | _ => false

/-- The reason of a throttled sample, 0 when it is not throttled (R317). A sample that meets none of the conditions falls to the sample
cap, which then sets the target. -/
def throttleReasonOf (s : State) : Nat :=
  if effectiveSetpoint s < cfg s 0x200104 ∨ (List.range 16).any (fun y => decide (rowGate s y < 16)) then
    ((List.range 13).find? (reasonHolds s)).getD 9
  else 0

/-- The physical tile that serves a logical tile. -/
def physicalOf (s : State) (n : Nat) : Nat := s.stack.tileMap.getD n 0xFFFF

/-- The grid row of a logical tile (R11). -/
def rowOf (s : State) (n : Nat) : Nat := physicalOf s n / 24

/-- Add to an entry of queue_energy. -/
def addQueueEnergy (t : Tab Nat) (q mj : Nat) : Tab Nat := tabCount t q mj

/-- The queue whose DISPATCH a tile is running, or 64. -/
def queueOfTile (s : State) (n : Nat) : Nat :=
  match (tileOf s n).program with
  | some p => p.queue
  | none => 64

/-- Divide energy among tiles in proportion to their load in the sample, each share to the tile's queue, the rest to entry 64
(R319). -/
def divideEnergy (s : State) (t : Tab Nat) (mj : Nat) (load : List (Nat × Nat)) : Tab Nat :=
  let total := load.foldl (fun a e => a + e.2) 0
  let shares := load.map (fun e => (queueOfTile s e.1, if total = 0 then 0 else mj * e.2 / total))
  let given := shares.foldl (fun a e => a + e.2) 0
  addQueueEnergy (shares.foldl (fun t e => addQueueEnergy t e.1 e.2) t) 64 (mj - given)

/-- Divide the Cracker's energy among queues in proportion to their sector requests. -/
def divideCracker (s : State) (t : Tab Nat) (mj : Nat) : Tab Nat :=
  let total := s.cracker.queueLoad.foldl (fun a e => a + e.2) 0
  let shares := s.cracker.queueLoad.map (fun e => (e.1, if total = 0 then 0 else mj * e.2 / total))
  let given := shares.foldl (fun a e => a + e.2) 0
  addQueueEnergy (shares.foldl (fun t e => addQueueEnergy t e.1 e.2) t) 64 (mj - given)

/-- queue_energy after a sample (R319). -/
def queueEnergyAfter (s : State) (x : PowerReading) : Tab Nat :=
  let rows := (List.range 16).foldl (fun t y =>
    divideEnergy s t (x.energyMj.getD y 0) (s.power.tileLoad.filter (fun e => decide (rowOf s e.1 = y)))) s.power.queueEnergy
  let cache := (List.range 4).foldl (fun t k => divideEnergy s t (x.energyMj.getD (16 + k) 0) s.power.tileLoad) rows
  let part := min x.crackerMj (x.energyMj.getD 20 0)
  addQueueEnergy (divideCracker s cache part) 64 (x.energyMj.getD 20 0 - part)

/-- The energy counters after a sample (R318). -/
def energyAfter (t : Tab Nat) (x : PowerReading) : Tab Nat :=
  let t1 := (x.energyMj.take 43).zipIdx.foldl (fun t e => tabCount t e.2 e.1) t
  let t2 := tabCount t1 44 x.moduleMj
  let sum := (List.range 43).foldl (fun a i => a + tabGet 0 t2 i) 0
  tabSet 0 t2 43 (tabGet 0 t2 44 - sum)

/-- What the sensors and the input give (R307, R310, R320, R321). -/
def readSensors (s : State) (x : PowerReading) : State :=
  let s1 := s.onPower (fun p => { p with
    inputMv := x.inputMv
    samples := (x.inputW :: p.samples).take 125
    railMv := x.railMv
    railMa := x.railMa
    temps := x.temps
    tempMax := List.zipWith max p.tempMax x.temps })
  let hot := (List.range 12).filter (fun k => decide (950 ≤ x.temps.getD (224 + k) 0))
  let s2 := hot.foldl (fun t k => if s.power.hbmHot.contains k then t else raise t 0x06120C06 k) s1
  let s3 := { s2 with
    power := { s2.power with hbmHot := hot }
    cache := { s2.cache with
      refreshRate := (List.range 12).foldl (fun t k => tabSet 1 t k (if 850 < x.temps.getD (224 + k) 0 then 2 else 1))
        s2.cache.refreshRate } }
  if x.inputMv < 32000 then
    if s.power.lowInput then s3 else raise (s3.onPower (fun p => { p with lowInput := true })) 0x06110C03 0
  else s3.onPower (fun p => { p with lowInput := false })

/-- POWER_SAMPLE: every 8 µs (R310, R312, R317 to R321). -/
def execPowerSample (x : PowerReading) (s : State) : Host.Outcome State Fault Refusal :=
  let s1 := readSensors s x
  let shortUj := fillBucket s1.power.shortUj x.inputW (shortRate s1)
  let longUj := fillBucket s1.power.longUj x.inputW (longRate s1)
  let s2 := s1.onPower (fun p => { p with
    shortUj := shortUj
    longUj := longUj
    shortActive := bucketActive p.shortActive shortUj 400
    longActive := bucketActive p.longActive longUj (longCapacity s1) })
  let s3 := controlSample s2
  let reason := throttleReasonOf s3
  let s4 := s3.onPower (fun p => { p with
    throttleReason := reason
    throttleTime := if reason = 0 then p.throttleTime else tabCount p.throttleTime reason 8
    queueEnergy := queueEnergyAfter s3 x
    energy := energyAfter p.energy x
    tileLoad := [] })
  done s (s4.onCracker (fun c => { c with queueLoad := [] }))

/-! ## Vertical interfaces (R196, R210 to R213) -/

/-- The retirements that the loss of interface `f` decides (Table 8.8). -/
def decideRetirements (k : Stack) (f : Nat) : Stack :=
  let k1 := if tileLost f ∧ k.retired.contains (f / 5) = false then { k with retiring := setAdd k.retiring (f / 5) } else k
  let lost := (slicesLost f).filter (fun i => decide (tabGet 0 k.slices i ≠ 1))
  { k1 with sliceRetiring := setUnion k1.sliceRetiring lost }

/-- The interface becomes degraded: event and decision (R211, R212). -/
def degradeInterface (s : State) (f : Nat) : State :=
  if tabGet 0 s.stack.interfaces f = 0 then
    raise (s.onStack (fun k => decideRetirements { k with interfaces := tabSet 0 k.interfaces f 1 } f)) 0x08070807 f
  else s

/-- The interface is cut: event, decision and withheld cut (R213). -/
def cutInterface (s : State) (f : Nat) : State :=
  if tabGet 0 s.stack.interfaces f = 2 then s
  else
    withholdCut (raise (s.onStack (fun k => decideRetirements { k with interfaces := tabSet 0 k.interfaces f 2 } f)) 0x08070808 f)

/-- Spares tried until one passes its test: how many were used up, and whether one passed. -/
def trySpares : Nat → List Bool → Nat × Bool
  | 0, _ => (0, false)
  | n + 1, t =>
    match t with
    | [] => (1, true)
    | true :: _ => (1, true)
    | false :: l => let (k, ok) := trySpares n l; (k + 1, ok)

/-- A signal TSV of an interface fails: a spare takes its place, or the interface is degraded, or cut for a control TSV
(R210, R211). -/
def failTsv (s : State) (f : Nat) (control : Bool) (tests : List Bool) : State :=
  let left := tsvSpares f - tabGet 0 s.stack.tsvUsed f
  let (used, ok) := trySpares left tests
  let s1 := s.onStack (fun k => { k with tsvUsed := tabCount k.tsvUsed f used })
  if ok then s1 else if control then cutInterface s1 f else degradeInterface s1 f

/-- The TSVs that the words of an attempt name. -/
def attemptNames (a : TransferAttempt) : NatSet :=
  a.words.zipIdx.filterMap (fun w => namedTsv w.2 (eccSyndrome w.1.1 w.1.2))

/-- An attempt's words all have syndrome 0x00 or 0xFF, and its control group holds. -/
def attemptClean (a : TransferAttempt) : Bool :=
  a.controlOk && a.words.all (fun w => decide (eccSyndrome w.1 w.2 = 0 ∨ eccSyndrome w.1 w.2 = 0xFF))

/-- An attempt's words all are clean, poison, or name one bit (a degraded interface corrects those in flight). -/
def attemptCorrectable (a : TransferAttempt) : Bool :=
  a.controlOk && a.words.all (fun w =>
    match decodeSyndrome (eccSyndrome w.1 w.2) with
    | .uncorrectable => false
    | _ => true)

/-- A word as a degraded interface delivers it. -/
def correctInFlight (w : Word64 × Byte) : Word64 × Byte :=
  match decodeSyndrome (eccSyndrome w.1 w.2) with
  | .dataBit i => (w.1 ^^^ BitVec.ofNat 64 (2 ^ i), eccCheck (w.1 ^^^ BitVec.ofNat 64 (2 ^ i)))
  | .checkBit _ => (w.1, eccCheck w.1)
  | _ => w

/-- A word delivered as poison. -/
def poisonWord (w : Word64 × Byte) : Word64 × Byte := (w.1, eccCheck w.1 ^^^ 0xFF)

/-- The attempts before the first that is accepted, and that one; at most four are made (R196). -/
def splitAttempts (good : TransferAttempt → Bool) : Nat → List TransferAttempt → List TransferAttempt × Option TransferAttempt
  | 0, _ => ([], none)
  | _, [] => ([], none)
  | n + 1, a :: l =>
    if good a then ([], some a) else let (b, r) := splitAttempts good n l; (a :: b, r)

/-- Count the namings of failed attempts and fail the TSVs that reach 8, or that two attempts name (R210). -/
def countNamings (s : State) (f : Nat) (failed : List TransferAttempt) (tests : List Bool) : State :=
  let names := failed.flatMap attemptNames
  let s1 := s.onStack (fun k => { k with tsvCounts := names.foldl (fun t n => tabCount t (4096 * f + n) 1) k.tsvCounts })
  let bad := (names.foldl setAdd []).filter (fun n =>
    decide (8 ≤ tabGet 0 s1.stack.tsvCounts (4096 * f + n) ∨ 2 ≤ (failed.filter (fun a => (attemptNames a).contains n)).length))
  let s2 := bad.foldl (fun s n => failTsv (s.onStack (fun k => { k with tsvCounts := tabSet 0 k.tsvCounts (4096 * f + n) 0 })) f
    false tests) s1
  if failed.any (fun a => !a.controlOk) then failTsv s2 f true tests else s2

/-- A layer that an interface joins is stopped: its handshakes wait (R32). Interface `i` of a column joins layers 5 − i and 4 − i. -/
def interfaceStopped (s : State) (interface : Nat) : Bool :=
  s.power.stopped.contains (5 - interface) || s.power.stopped.contains (4 - interface)

/-- Everything that reaches Husk only through an interface that is not in its normal state is retired: the interface is not used
again (R211, R212). -/
def interfaceRetired (s : State) (f : Nat) : Bool :=
  decide (tabGet 0 s.stack.interfaces f ≠ 0) && (!tileLost f || s.stack.retired.contains (f / 5)) &&
    (slicesLost f).all (fun i => decide (tabGet 0 s.stack.slices i = 1))

/-- The words of the last attempt of a list. -/
def lastWords (attempts : List TransferAttempt) : List (Word64 × Byte) := (attempts.getLast?.map (fun a => a.words)).getD []

/-- What a transfer comes to that no attempt has carried: a degraded interface delivers a last attempt that it can correct in
flight, and is cut by another; a normal one repeats the transfer once a spare has taken the place of a TSV, and delivers
nothing before (assumption 40). -/
def failedTransfer (s : State) (f used : Nat) (last : TransferAttempt) : State :=
  let send := fun (t : State) (l : List (Word64 × Byte)) => emit t (.vertical (f / 5) (f % 5) l)
  if tabGet 0 s.stack.interfaces f = 0 ∧ tabGet 0 s.stack.tsvUsed f ≠ used then s
  else if tabGet 0 s.stack.interfaces f = 1 && attemptCorrectable last then send s (last.words.map correctInFlight)
  else send (cutInterface s f) (last.words.map poisonWord)

/-- VERTICAL_TRANSFER: the attempts of one transfer over interface `interface` of a column as the receiver sees them
(R196, R210, R211, R213). -/
def execVerticalTransfer (column interface : Nat) (attempts : List TransferAttempt) (spareTests : List Bool) (s : State) :
    Host.Outcome State Fault Refusal :=
  let f := 5 * column + interface
  let st := tabGet 0 s.stack.interfaces f
  if interfaceStopped s interface || interfaceRetired s f then .next s
  else if st = 2 then done s (emit s (.vertical column interface ((lastWords attempts).map poisonWord)))
  else
    let (failed, taken) := splitAttempts (if st = 0 then attemptClean else attemptCorrectable) 4 attempts
    let repeats := if taken.isSome then failed.length else failed.length - 1
    let s1 := s.onStack (fun k => { k with tsvRepeats := tabCount k.tsvRepeats f repeats })
    let s2 := countNamings s1 f failed spareTests
    match taken, failed.getLast? with
    | some a, _ => done s (emit s2 (.vertical column interface (if st = 0 then a.words else a.words.map correctInFlight)))
    | none, some a => done s (failedTransfer s2 f (tabGet 0 s1.stack.tsvUsed f) a)
    | none, none => done s s2

/-! ## Power clusters (R216) -/

/-- Decide the retirement of physical tile `p`. -/
def decideTile (s : State) (p : Nat) : State :=
  if s.stack.retired.contains p then s else s.onStack (fun k => { k with retiring := setAdd k.retiring p })

/-- POWER_CLUSTER_FAIL: a physical tile's supply stays more than 60 mV below the rail for 100 µs (R216). -/
def execPowerClusterFail (tile : Nat) (s : State) : Host.Outcome State Fault Refusal :=
  if tabGet 0 s.stack.clusters tile = 1 then .next s
  else
    let s1 := (s.onStack (fun k => { k with clusters := tabSet 0 k.clusters tile 1 })).onPower
      (fun p => { p with tileSlow := setAdd p.tileSlow tile })
    done s (decideTile (raise s1 0x0811080B tile) tile)

/-- TILE_SUPPLY_BELOW_FLOOR: the tile's own supervisor stops its handshakes (R216). -/
def execTileSupplyBelowFloor (tile mv : Nat) (s : State) : Host.Outcome State Fault Refusal :=
  if 600 ≤ mv then .next s else done s (s.onPower (fun p => { p with tileFloor := setAdd p.tileFloor tile }))

/-- TILE_SUPPLY_RESTORED: the stopped tile's supply is back above the floor (R216). -/
def execTileSupplyRestored (tile mv : Nat) (s : State) : Host.Outcome State Fault Refusal :=
  if mv ≤ 600 then .next s else done s (s.onPower (fun p => { p with tileFloor := setRemove p.tileFloor tile }))

/-- TILE_FLOOR_TIMEOUT: the stop has lasted longer than 100 µs; the cut is withheld and the tile's retirement decided (R216). -/
def execTileFloorTimeout (tile : Nat) (s : State) : Host.Outcome State Fault Refusal :=
  if s.power.tileFloor.contains tile then done s (decideTile (withholdCut (raise s 0x0811080C tile)) tile)
  else .next s

/-! ## Clears (R33, R323) -/

/-- pace_clear: the next window restarts the minimum and maximum. -/
def clearPace (s : State) : State := s.onPower (fun p => { p with paceCleared := true })

/-- energy_clear. -/
def clearEnergy (s : State) : State := s.onPower (fun p => { p with energy := [], queueEnergy := [] })

/-- throttle_clear. -/
def clearThrottle (s : State) : State := s.onPower (fun p => { p with throttleTime := [] })

/-- temp_clear: the highest readings restart from the present ones. -/
def clearTemps (s : State) : State := s.onPower (fun p => { p with tempMax := p.temps })

end Sys2Proof.Machine
end

