-- ==== Sys2Proof/Machine/Security.lean ====
section
/-! DEFINITION. Image upload and the firmware floor (R349, R351), attestation (R357 to R359), test states and margining (R360, R361),
built-in test run again (R360), and the exchange that opens a session (R356). -/

namespace Sys2Proof.Machine

open Sys2Proof

/-! ## Images (R349, R351) -/

/-- The copy that upload_target names: the one that is not running; copy A while none runs. -/
def targetCopy (s : State) : Option Nat :=
  match s.boot.uploadTarget with
  | 1 => some (if s.boot.firmwareRunning = 0 then 1 else 0)
  | 2 => some (if s.boot.userRunning = 0 then 3 else 2)
  | _ => none

/-- An image copy of the flash. -/
def copyOf (s : State) (c : Nat) : FlashCopy := s.flash.copies.getD c ⟨0, []⟩

/-- An image copy of the flash, replaced. -/
def setCopy (s : State) (c : Nat) (x : FlashCopy) : State := s.onFlash (fun f => { f with copies := listSet f.copies c x })

/-- A write of upload_target: the copy it names is erased (R351, 1). -/
def writeUploadTarget (s : State) (v : Nat) : State :=
  let s1 := s.onBoot (fun b => { b with uploadTarget := v })
  match targetCopy s1 with
  | some c => setCopy s1 c ⟨3, []⟩
  | none => s1

/-- Program bytes of a copy from offset `off`; none when one has been programmed since the erase. -/
def programBytes : Tab Byte → Nat → List Byte → Option (Tab Byte)
  | t, _, [] => some t
  | t, off, b :: l => if (tabFind t off).isSome then none else programBytes (tabInsert t off b) (off + 1) l

/-- A write of upload_data (R351, 2). -/
def uploadBytes (s : State) (off : Nat) (l : List Byte) : Except Code State :=
  match targetCopy s with
  | none => .error 0x07130E09
  | some c =>
    if (copyOf s c).state ≠ 3 then .error 0x07130E09
    else
      match programBytes (copyOf s c).bytes off l with
      | none => .error 0x07130E09
      | some t => .ok (setCopy s c ⟨3, t⟩)

/-- A write of upload_verify (R351, 3). -/
def verifyUpload (s : State) : Except Code State :=
  match targetCopy s with
  | none => .error 0x07130E06
  | some c =>
    if imageValid s c then .ok (setCopyState s c 1)
    else .ok (raise (setCopyState s c 2) (if c < 2 ∧ imageSigned s c = true then 0x07130E07 else 0x07130E06) c)

/-- A write of floor_commit: the floor rises to the running firmware's security_version (R349). -/
def commitFloor (s : State) : State :=
  if 2 ≤ s.boot.firmwareRunning then s
  else s.onFlash (fun f => { f with floor := max f.floor (bitsAt (imageHeader s s.boot.firmwareRunning) 64 32) })

/-! ## Attestation (R357 to R359) -/

/-- The whole value of an object, in its dictionary encoding. -/
def objectBytes (s : State) (key : Nat) : List Byte :=
  match objFind key with
  | some o => viewBytes s key (viewOf s o) 0 (viewOf s o).length
  | none => []

/-- SHAKE256 of a copy's header and payload. -/
def copyDigest (s : State) (c : Nat) : List Byte := shake256 (copyBytes s c 0 (256 + payloadLength s c)) 32

/-- A digest of 32 zero bytes. -/
def zeroDigest : List Byte := List.replicate 32 0

/-- The attestation report's body (Table 14.10). -/
def reportBody (s : State) (nonce : List Byte) (index : Nat) : List Byte :=
  bytesOfNat 8 1 ++ nonce ++ bytesOfNat 8 s.train.committed ++ bytesOfNat 8 s.train.boundarySeq
    ++ (if s.boot.firmwareRunning < 2 then copyDigest s s.boot.firmwareRunning else zeroDigest)
    ++ (if s.boot.userRunning < 2 then copyDigest s (2 + s.boot.userRunning) else zeroDigest)
    ++ shake256 ([0x300703, 0x300704, 0x300705, 0x300706, 0x400001, 0x400002, 0x400003, 0x400004, 0x400005, 0x600401].flatMap (objectBytes s)) 32
    ++ bytesOfNat 2 s.stack.tileMap.length ++ bytesOfNat 2 s.stack.spare.length ++ bytesOfNat 2 s.stack.retired.length
    ++ bytesOfNat 1 (cfg s 0x480001) ++ bytesOfNat 1 (modeInForce s)
    ++ configDigest s.dict.values s.fabric.groups ++ bytesOfNat 5 index ++ List.replicate 59 0

/-- Reserve 1,024 indices: the stored value plus 1,024 goes into the older copy of the counter (R358). -/
def reserveIndices (f : Flash) : Flash :=
  let v := max f.sigA.2 f.sigB.2 + 1024
  if f.sigA.1 ≤ f.sigB.1 then { f with sigA := (f.sigB.1 + 1, v) } else { f with sigB := (f.sigA.1 + 1, v) }

/-- A write of attest_request (R358, R359). -/
def requestReport (s : State) (nonce : List Byte) : Except Code State :=
  if s.boot.attestState = 1 then .error 0x07150E0A
  else
    let s1 := if sigReserved s ≤ s.boot.sigIndex ∧ sigReserved s < 2 ^ 40 then s.onFlash reserveIndices else s
    if 2 ^ 40 ≤ sigReserved s1 then .ok (raise s1 0x07150E0B 0)
    else
      .ok (s1.onBoot (fun b => { b with
        attestState := 1
        attestBody := reportBody s nonce b.sigIndex
        sigIndex := b.sigIndex + 1 }))

/-- ATTEST_READY: signing ends and the report is written whole (R359). -/
def execAttestReady (s : State) : Host.Outcome State Fault Refusal :=
  if s.boot.attestState ≠ 1 then .next s
  else
    let body := s.boot.attestBody
    let index := bitsAt (natOfBytes body) 1536 40
    done s (s.onBoot (fun b => { b with
      attestState := 2
      attestReport := body ++ (List.range 9893).map (Config.xmssmtSign index body)
      attestBody := [] }))

/-! ## Test states (R360, R361) -/

/-- What the built-in tests find when they run again. -/
abbrev Findings := BistFinding × HbmFinding

/-- Tests that find nothing. -/
def Findings.nothing : Findings := (⟨false, [], [], [], [], []⟩, ⟨[], []⟩)

/-- Some queue is enabled. -/
def queueInUse (s : State) : Bool := s.front.queues.any (fun q => decide (q.2.state ≠ 0))

/-- Enter a test state: all memory counts as never written. -/
def enterTest (s : State) (v : Nat) : Except Code State :=
  if s.fabric.groups ≠ [] ∨ queueInUse s = true then .error 0x01100E10
  else
    .ok { s with
      boot := { s.boot with testState := v, phase := 10 }
      mem := Memory.neverWritten
      banks := Memory.neverWritten
      rowMasks := []
      colMasks := []
      cache := { s.cache with
        sets := [], fills := [], writebacks := [], waiting := [], blocked := [], hbmQueue := [], busBursts := [], tagSynd := [] }
      prot := { s.prot with heldLines := [], lineValues := [], lineAsked := [], heldAccesses := [] } }

/-- A margin request breaks Table 14.11. -/
def marginMalformed (v : Nat) : Bool :=
  let lo := signed 8 (bitsAt v 48 8)
  let hi := signed 8 (bitsAt v 56 8)
  decide (11 < bitsAt v 0 4 ∨ 4 < bitsAt v 4 4 ∨ bitsAt v 8 8 ≠ 0 ∨ hi < lo ∨ (bitsAt v 4 4 = 4 ∧ (lo < -10 ∨ 10 < hi)) ∨
    bitsAt v 64 32 = 0 ∨ bitsAt v 96 32 = 0 ∨ bitsAt v 128 128 ≠ 0)

/-- Run tests 1 to 7 again; tiles found are retired as in a running module, since no spare mapping follows (R13, R15, R360). -/
def rerunTests (s : State) (found : Findings) : State :=
  let (s1, a) := bistTests { s with boot := { s.boot with bistReport := [] } } found.1
  let (s2, b) := bistHbm s1 found.2
  let new := s2.stack.retired.filter (fun p => !s.stack.retired.contains p)
  let s3 := new.foldl retireTile (s2.onStack (fun k => { k with retired := s.stack.retired }))
  if a && b then s3 else stopModule s3

/-- A write of margin_request (R360, R361). -/
def requestMargin (s : State) (found : Findings) (l : List Byte) : Except Code State :=
  if s.boot.testState = 2 then .ok (rerunTests s found)
  else if s.boot.testState ≠ 1 ∨ s.boot.marginState = 1 ∨ marginMalformed (natOfBytes l) = true then .error 0x01100E11
  else .ok (s.onBoot (fun b => { b with marginState := 1, marginRequest := l }))

/-- The steps of a request. -/
def marginSteps (v : Nat) : List Int :=
  let lo := signed 8 (bitsAt v 48 8)
  let hi := signed 8 (bitsAt v 56 8)
  (List.range (hi - lo + 1).toNat).map (fun n => lo + (n : Int))

/-- The entry of margin_results of a channel and a step. -/
def marginEntry (c : Nat) (step : Int) : Nat := 256 * c + (step + 128).toNat

/-- A signed step in 8 bits. -/
def stepByte (step : Int) : Nat := (step % 256).toNat

/-- The lowest and highest step that passed, as margin_summary holds them. -/
def marginSummaryOf (passed : List Int) : Nat :=
  match passed, passed.getLast? with
  | lo :: _, some hi => stepByte lo + 256 * stepByte hi
  | _, _ => 0x8080

/-- One channel's results. -/
def marginChannel (failed : List (Nat × Nat)) (steps : List Int) (b : Boot) (c : Nat) : Boot :=
  let count := fun (step : Int) =>
    match failed.find? (fun e => e.1 == marginEntry c step) with
    | some e => e.2
    | none => 0
  { b with
    marginResults := steps.foldl (fun t step => tabSet 0 t (marginEntry c step) (count step)) b.marginResults
    marginSummary := tabSet 0x8080 b.marginSummary c (marginSummaryOf (steps.filter (fun step => decide (count step = 0)))) }

/-- MARGIN_SWEEP_END: the sweep ends; `failed` gives the bursts in error by entry, `lost` the channels whose training was lost,
which have no result (R361). -/
def execMarginSweepEnd (failed : List (Nat × Nat)) (lost : NatSet) (s : State) : Host.Outcome State Fault Refusal :=
  if s.boot.marginState ≠ 1 then .next s
  else
    let v := natOfBytes s.boot.marginRequest
    let channels := (List.range 32).filter (fun c => bitAt v (16 + c) && !lost.contains c)
    let b := channels.foldl (marginChannel failed (marginSteps v)) s.boot
    done s { s with boot := { b with marginState := 2 } }

/-! ## Sessions (R329, R356) -/

/-- The operator keys of section type 2: slot, role, key. -/
def keyEntries : Nat → List Byte → List (Nat × Nat × List Byte)
  | 0, _ => []
  | n + 1, l =>
    if l.length < 48 then []
    else ((l.headD 0).toNat, ((l.drop 1).headD 0).toNat, (l.drop 16).take 32) :: keyEntries n (l.drop 48)

/-- The operator keys of the user image in force. -/
def operatorKeys (s : State) : List (Nat × Nat × List Byte) :=
  if 2 ≤ s.boot.userRunning then []
  else ((imageSections s (2 + s.boot.userRunning)).getD []).flatMap (fun x => if x.kind = 2 then keyEntries 8 x.body else [])

/-- The role and key of a slot. -/
def slotKey (s : State) (slot : Nat) : Option (Nat × List Byte) :=
  ((operatorKeys s).find? (fun e => decide (e.1 = slot ∧ (e.2.1 = 1 ∨ e.2.1 = 2)))).map (fun e => e.2)

/-- Bytes of one draw of the entropy source. -/
def drawBytes (draw n : Nat) : List Byte := (List.range n).map (Config.entropy draw)

/-- The first session number from `v` on that is neither zero nor in use. -/
def freeNumber (used : List (BitVec 64)) : Nat → BitVec 64 → BitVec 64
  | 0, v => v
  | n + 1, v => if v = 0 ∨ used.contains v = true then freeNumber used n (v + 1) else v

/-- user_root is zero. -/
def rootZero (s : State) : Bool := s.flash.userRoot.all (fun b => decide (b = 0))

/-- HELLO: a new session, and nonce_m; a provision session is open at once (R356). -/
def openHello (s : State) (l : List Byte) : Except Code (State × BitVec 64 × List Byte) :=
  let slot := ((l.drop 1).headD 0).toNat
  let role := if slot = 0xFF then (if rootZero s then some 3 else none) else (slotKey s slot).map (fun k => k.1)
  if s.dict.lockout then .error 0x07150E04
  else if 16 ≤ s.dict.sessions.length then .error 0x07150E15
  else
    match role with
    | none => .error 0x07150E02
    | some role =>
      let d := s.dict
      let number := freeNumber (d.sessions.map (fun x => x.number)) 18 (BitVec.ofNat 64 (natOfBytes (drawBytes d.draws 8)))
      let nonce := shake256 (drawBytes (d.draws + 1) 32) 32
      let x : Session := ⟨number, slot, role, decide (slot ≠ 0xFF), (l.drop 32).take 32, nonce, [], [], s.power.refPeriods⟩
      .ok (s.onDict (fun d => { d with sessions := d.sessions ++ [x], draws := d.draws + 2 }), number, nonce)

/-- A session's entry, changed. -/
def onSession (s : State) (number : BitVec 64) (f : Session → Session) : State :=
  s.onDict (fun d => { d with sessions := d.sessions.map (fun x => if x.number = number then f x else x) })

/-- A session is gone, with its open batches. -/
def dropSession (s : State) (number : BitVec 64) : State :=
  s.onDict (fun d => { d with
    sessions := d.sessions.filter (fun x => decide (x.number ≠ number))
    batches := d.batches.filter (fun b => decide (b.session ≠ number)) })

/-- The string that both tags of a session cover. -/
def sessionString (x : Session) : List Byte := x.nonceC ++ x.nonceM ++ bytesOfNat 8 x.number.toNat

/-- A failed PROVE: the pending session is discarded; 8 failures in 60 s lock HELLO out. -/
def failProve (s : State) (x : Session) : State :=
  let now := s.power.refPeriods
  let recent := s.dict.recentFailures.filter (fun t => decide (now - t < 9375000000)) ++ [now]
  raise ((dropSession s x.number).onDict (fun d => { d with
    authFailures := d.authFailures + 1
    recentFailures := recent
    lockout := d.lockout || decide (8 ≤ recent.length) })) 0x07150E03 0

/-- PROVE on a pending session: the client's tag is checked and the module's returned. -/
def proveSession (s : State) (x : Session) (l : List Byte) : State × Except Code (List Byte) :=
  let key := match slotKey s x.slot with
    | some k => k.2
    | none => []
  if (l.drop 32).take 32 = kmac256 key (sessionString x) "HNL open c" then
    (onSession s x.number (fun y => { y with pending := false, lastUse := s.power.refPeriods }),
      .ok (kmac256 key (sessionString x) "HNL open m"))
  else (failProve s x, .error 0x07150E03)

/-- SESSION_EXPIRE: a HELLO without PROVE expires, or an idle session closes. -/
def execSessionExpire (session : BitVec 64) (s : State) : Host.Outcome State Fault Refusal :=
  if s.dict.sessions.any (fun x => decide (x.number = session)) then done s (dropSession s session) else .next s

/-- HELLO_LOCKOUT_END: HELLOs are accepted again. -/
def execHelloLockoutEnd (s : State) : Host.Outcome State Fault Refusal :=
  if s.dict.lockout then done s (s.onDict (fun d => { d with lockout := false, recentFailures := [] })) else .next s

/-- BATCH_EXPIRE: a batch that received no part for 10 s is abandoned (R330). -/
def execBatchExpire (session : BitVec 64) (batch : Nat) (s : State) : Host.Outcome State Fault Refusal :=
  if s.dict.batches.any (fun b => decide (b.session = session ∧ b.number = batch)) then
    done s (s.onDict (fun d => { d with batches := d.batches.filter (fun b => !decide (b.session = session ∧ b.number = batch)) }))
  else .next s

end Sys2Proof.Machine
end

