-- ==== Sys2Proof/Machine/Server.lean ====
section
/-! DEFINITION. The dictionary server (chapter 13): the actions of WO objects, the checks and effects of RW writes, staging, batches,
views, sessions, kept replies, relay, and the answer to every request. -/

namespace Sys2Proof.Machine

open Sys2Proof

/-! ## Refusals -/

/-- A refusal as its reply carries it: a failure whose first claimant is 0 has a code alone; any other is a cross-object refusal,
whose record follows the code (Tables 13.4, 13.7). -/
abbrev Refused := Failure

/-- A refusal that is its code alone. -/
def codeOnly (c : Code) : Refused := ⟨c, 0, 0, 0, 0⟩

/-- A refusal on acceptance of an object as a whole: a value check gives the code alone, any other check is a cross-object one
(R326). -/
def crossRefusal (c : Code) (key : Nat) : Refused := if c = 0x01000001 then codeOnly c else failOne c key wholeObject

/-- An action's answer with its code turned into a refusal of the object. -/
def acted (key : Nat) (x : Except Code State) : Except Refused State :=
  match x with
  | .ok s => .ok s
  | .error c => .error (crossRefusal c key)

/-! ## WO objects -/

/-- prot_counters_clear (R217). -/
def clearProtCounters (s : State) : State :=
  (s.onProt (fun p => { p with
    corrected := []
    uncorrectable := []
    poisoned := []
    narrow := []
    savedRepairs := 0
    reexecutions := 0 })).onStack (fun k => { k with tsvRepeats := [] })

/-- Some entry of class 0x08 has an ordinal above `v`. -/
def newerResilience (s : State) (v : Nat) : Bool :=
  s.dict.events.any (fun e => decide (codeClass e.2.code = 8 ∧ v < e.2.ordinal))

/-- A write of event_ack (R338). -/
def ackEvents (s : State) (v : Nat) : State :=
  if newerResilience s v then s else s.onDict (fun d => { d with resiliencePending := false })

/-- snapshot_take: every telemetry counter is copied (R340). -/
def takeSnapshot (s : State) : State :=
  s.onDict (fun d => { d with
    snapshot := (objects.filter (fun o => o.counter)).map (fun o => (o.key, viewOf s o))
    snapshotOrdinal := d.snapshotOrdinal + 1 })

/-- The actions of WO objects of type BOOL, on a write of 1. -/
def boolAction (s : State) (key : Nat) : Except Code State :=
  match key with
  | 0x180005 => .ok (commitFloor s)
  | 0x180203 => verifyUpload s
  | 0x200203 => .ok (clearEnergy s)
  | 0x200303 => .ok (clearThrottle s)
  | 0x200404 => .ok (clearTemps s)
  | 0x280005 => .ok (clearPace s)
  | 0x300406 => .ok (clearMemCounters s)
  | 0x300508 => .ok (clearProtCounters s)
  | 0x380309 => .ok (clearCrackerCounters s)
  | 0x400401 => .ok (clearTileCounters s)
  | 0x500508 => .ok (clearFabricCounters s)
  | 0x58120C => .ok (clearFeCounters s)
  | 0x600009 => .ok (s.onResil (fun r => { r with baseNext := true }))
  | 0x680001 => .ok (takeSnapshot s)
  | _ => .ok s

/-- A write of fe_port_reset (R273). -/
def portResetWrite (s : State) (v : Nat) : Except Code State := if 1 < v then .error 0x01000001 else .ok (resetFePort s v)

/-- The action of a write to a WO object (R325). A write of 0 to a BOOL is accepted and does nothing. stack_reset is carried out
when the request has been answered. -/
def woAction (found : Findings) (s : State) (o : Obj) (off : Nat) (data : List Byte) (applyAt : Nat) : Except Refused State :=
  let v := natOfBytes data
  acted o.key (
    if o.typ = 1 then (if v = 1 then boolAction s o.key else .ok s)
    else
      match o.key with
      | 0x110105 => .ok (ackEvents s v)
      | 0x180202 => uploadBytes s off data
      | 0x481102 => abortStep s v
      | 0x481305 => .ok (clearSilent s v)
      | 0x500203 => acceptEpoch s data applyAt
      | 0x580007 => portResetWrite s v
      | 0x580203 => connControl s v
      | 0x581002 => queueControl s v
      | 0x600201 => writeRecovery s data
      | 0x600204 => resumeModule s v
      | 0x600205 => .ok (submitRecord s v)
      | 0x700201 => requestReport s data
      | 0x701002 => requestMargin s found data
      | _ => .ok s)

/-! ## RW objects -/

/-- The first entry of a list with a failure. -/
def firstFailure (l : List Nat) (f : Nat → Option Refused) : Option Refused :=
  match l with
  | [] => none
  | i :: r =>
    match f i with
    | some x => some x
    | none => firstFailure r f

/-- Refuse an entry of an object when `bad` holds. -/
def entryCheck (bad : Bool) (c : Code) (key i : Nat) : Option Refused := if bad then some (failOne c key i) else none

/-- A region record's key is that of another valid record (R255). -/
def duplicateKey (t : Tab Byte) (i : Nat) : Option Refused :=
  let r := rdmaRegionOf (storeNat t 0x580301 (32 * i) 32)
  if r.valid = false then none
  else
    match (listedElems t 0x580301).find? (fun j =>
      let q := rdmaRegionOf (storeNat t 0x580301 (32 * j) 32)
      decide (j ≠ i) && q.valid && decide (q.rkey = r.rkey)) with
    | some j => some ⟨0x01100A03, 0x580301, min i j, 0x580301, max i j⟩
    | none => none

/-- An egress target's connection is ready while an unfinished export names it (R270). -/
def targetBusy (s : State) (i : Nat) : Bool :=
  decide ((connOf s (targetNow s i).conn).state = 1) && s.front.exports.any (fun x => decide (x.target = i))

/-- A ring of a queue overlaps another claim (R261). -/
def ringOverlap (s : State) (q : Nat) : Option Refused :=
  (allClaimFailures s.dict.values (claimsOf s s.dict.values)).find? (fun f =>
    decide (f.code = 0x01100A05 ∧ ((f.aKey = 0x581001 ∧ f.aEntry = q) ∨ (f.bKey = 0x581001 ∧ f.bEntry = q))))

/-- The cross-object checks of an RW write that leaves the values `t`, on the entries it covers (R218, R227, R254, R255, R261,
R270). -/
def rwCheck (s : State) (t : Tab Byte) (key : Nat) (entries : List Nat) : Option Refused :=
  match key with
  | 0x500001 => if storeNat t key 6 1 ≤ 1 then none else some (codeOnly 0x01000001)
  | 0x500101 => entryCheck (decide (s.fabric.groups ≠ [])) 0x01100908 key wholeObject
  | 0x500102 => entryCheck (decide (s.fabric.groups ≠ [])) 0x01100908 key wholeObject
  | 0x580201 => firstFailure entries (fun i =>
      entryCheck (decide ((connOf s i).state ≠ 0) || connMalformed (storeNat t key (64 * i) 64)) 0x01100A01 key i)
  | 0x580301 => firstFailure entries (fun i =>
      match entryCheck (regionMalformed (storeNat t key (32 * i) 32)) 0x01100A02 key i with
      | some x => some x
      | none => duplicateKey t i)
  | 0x580401 => firstFailure entries (fun i =>
      entryCheck (targetBusy s i || targetMalformed (storeNat t key (32 * i) 32)) 0x01100A07 key i)
  | 0x581001 => firstFailure entries (fun i =>
      if (queueOf s i).state ≠ 0 ∨ (queueOf s i).released ≠ (queueOf s i).accepted then some (failOne 0x01100A06 key i)
      else
        match entryCheck (queueMalformed (storeNat t key (32 * i) 32)) 0x01100A04 key i with
        | some x => some x
        | none => ringOverlap { s with dict := { s.dict with values := t } } i)
  | _ => none

/-- What follows the acceptance of an RW write: actions on ports, transfers, routes; a changed slot image is sent (R218, R228,
R252, R282, R284, Table 11.5). -/
def rwAfter (s : State) (key : Nat) (entries : List Nat) : State :=
  let s1 :=
    match key with
    | 0x500001 => entries.foldl applyPortMode s
    | 0x500103 => releaseReroute s
    | 0x580001 => entries.foldl retrainPort s
    | 0x580006 => entries.foldl resumePort s
    | 0x600001 => startTransfer s
    | 0x600007 => exportDue s
    | _ => s
  if inImage key then saveImage s1 else s1

/-- RW objects whose values stand in flash or in the start-up state. -/
def typedRw (key : Nat) : Bool := [0x180001, 0x180101, 0x180201, 0x700001, 0x701001].contains key

/-- A write of such an object (R349, R351, R356, R360). A write of 0 to test_state is a stack reset, carried out when the request
has been answered. -/
def typedWrite (s : State) (key off : Nat) (data : List Byte) : Except Code State :=
  let v := natOfBytes data
  match key with
  | 0x180001 => .ok (s.onFlash (fun f => { f with bootSelect := v }))
  | 0x180101 => .ok (s.onFlash (fun f => { f with userSelect := v }))
  | 0x180201 => .ok (writeUploadTarget s v)
  | 0x700001 =>
    if rootZero s then
      .ok (s.onFlash (fun f => { f with userRoot := List.replicate off 0 ++ data ++ List.replicate (68 - (off + data.length)) 0 }))
    else .error 0x07150E0C
  | _ => if v = 0 then .ok s else enterTest s v

/-- An RW write takes effect (R325): its checks, the value, the source (2, or 9 for that of start-up), what follows. -/
def rwWrite (s : State) (o : Obj) (off : Nat) (data : List Byte) (source : Nat) : Except Refused State :=
  let entries := coveredEntries o.key off data.length
  let marked := fun (t : State) => t.onDict (fun d => { d with source := markSources d.startSource d.source ⟨0, 0, o.key, off, data, source⟩ })
  if typedRw o.key then
    match acted o.key (typedWrite s o.key off data) with
    | .ok t => .ok (marked t)
    | .error e => .error e
  else
    let t := storeWrite s.dict.values o.key off data
    match rwCheck s t o.key entries with
    | some e => .error e
    | none => .ok (rwAfter (marked (s.onDict (fun d => { d with values := t }))) o.key entries)

/-- The value that start-up would give an object (R337). Values that flash holds stay as they are. -/
def startData (s : State) (o : Obj) : List Byte :=
  match o.key with
  | 0x180001 => bytesOfNat 1 s.flash.bootSelect
  | 0x180101 => bytesOfNat 1 s.flash.userSelect
  | 0x180201 => [0]
  | 0x700001 => if s.flash.userRoot = [] then List.replicate 68 0 else s.flash.userRoot
  | 0x701001 => [0]
  | _ => storeBytes s.dict.startValues o.key 0 (o.size * o.count)

/-! ## Staging (R44, R45) -/

/-- The effective step of an RWS write with an apply-at step (0 for none), or the code of its refusal. -/
def stagedStep (s : State) (applyAt : Nat) : Except Code Nat :=
  if applyAt = 0 then .ok (nextCut s + 1)
  else if applyAt ≤ nextCut s then .error 0x01100201
  else if s.train.committed + 2 < applyAt ∧ 256 ≤ futureWrites s then .error 0x01100203
  else .ok applyAt

/-- One part, or a whole write, with its object: what is written where. -/
structure PartWrite where
  obj : Obj
  off : Nat
  data : List Byte
  source : Nat
  deriving DecidableEq, Repr

/-- A write takes effect, acts, or joins its staged set, at write ordinal `n`. -/
def writePart (found : Findings) (n applyAt : Nat) (s : State) (x : PartWrite) : Except Refused State :=
  match x.obj.access with
  | 2 => rwWrite s x.obj x.off x.data x.source
  | 3 => .ok (s.onDict (fun d => { d with staged := d.staged ++ [⟨n, applyAt, x.obj.key, x.off, x.data, x.source⟩] }))
  | _ => woAction found s x.obj x.off x.data applyAt

/-- Writes one after the other; the first refusal refuses all. -/
def writeParts (found : Findings) (n applyAt : Nat) : State → List PartWrite → Except Refused State
  | s, [] => .ok s
  | s, x :: l =>
    match writePart found n applyAt s x with
    | .ok t => writeParts found n applyAt t l
    | .error e => .error e

/-- The cause of the stack reset that written parts ask for (R344, R360). -/
def resetAsked (l : List PartWrite) : Option Nat :=
  if l.any (fun x => decide (x.obj.key = 0x181003 ∧ natOfBytes x.data = 1)) then some 1
  else if l.any (fun x => decide (x.obj.key = 0x701001 ∧ natOfBytes x.data = 0)) then some 5
  else none

/-- Accept writes at one write ordinal (R328): the state, the effective step and the ordinal. -/
def acceptWrites (found : Findings) (s : State) (applyAt : Nat) (l : List PartWrite) : Except Refused (State × Nat × Nat) :=
  let step := if l.any (fun x => x.obj.staged) then stagedStep s applyAt else .ok 0
  match step with
  | .error c => .error (codeOnly c)
  | .ok eff =>
    let n := s.dict.ordinal + 1
    match writeParts found n applyAt (s.onDict (fun d => { d with ordinal := n })) l with
    | .error e => .error e
    | .ok t => .ok (t, eff, n)

/-! ## Checks of a write (R325 to R327, R330, R356) -/

/-- A role may write an object (R356). -/
def roleMayWrite (role index sub : Nat) : Bool :=
  match role with
  | 1 => !decide ((0x1800 ≤ index ∧ index ≤ 0x1810) ∨ (0x7000 ≤ index ∧ index ≤ 0x77FF))
  | 2 => true
  | _ => decide ((index = 0x7000 ∧ sub = 1) ∨ (index = 0x1800 ∧ sub = 1) ∨ (index = 0x1801 ∧ sub = 1) ∨ index = 0x1802)

/-- The object's length is not fixed: epoch_write and recovery_write. -/
def Obj.variable (o : Obj) : Bool := decide (o.size = 0)

/-- Offset and length of a write fit the object; `part` for a part of a batch (code 0x0110_0D04). -/
def extentOk (o : Obj) (off len : Nat) (part : Bool) : Bool :=
  let total := o.size * o.count
  if o.access = 4 then
    if o.variable then part || decide (off = 0)
    else if part || decide (o.key = 0x180202) then decide (off + len ≤ total)
    else decide (off = 0 ∧ len = total)
  else if o.typ % 16 = 11 then decide (off + len ≤ total ∧ off % o.size = 0 ∧ len % o.size = 0)
  else decide (off + len ≤ total)

/-- The value that a write of part of a scalar is laid over. -/
def oldValue (s : State) (o : Obj) : List Byte :=
  if o.elemType = 10 ∨ o.access = 4 ∨ o.typ % 16 = 11 then []
  else storeBytes (if o.staged then stagedValues s else s.dict.values) o.key 0 o.size

/-- The object that a WRITE or REVERT may write, or the code of refusal. -/
def checkWrite (s : State) (x : Session) (r : Request) (revert part : Bool) : Except Code Obj :=
  match objFind (r.index * 256 + r.sub) with
  | none => .error 0x01100D01
  | some o =>
    if o.access ≤ 1 ∨ (revert = true ∧ o.access = 4) then .error 0x01100D02
    else if r.typ.toNat ≠ o.typ then .error 0x01100D03
    else if roleMayWrite x.role r.index r.sub = false then .error 0x07150E01
    else if r.applyAt ≠ 0 ∧ o.staged = false ∧ o.key ≠ 0x500203 then .error 0x01100D05
    else if revert then .ok o
    else if extentOk o r.offset r.data.length part = false then .error 0x01100D04
    else if (part && decide (o.access = 4)) || valueOk o (oldValue s o) r.offset r.data then .ok o
    else .error 0x01000001

/-! ## Replies -/

/-- The first reply to a request: done, with no data. -/
def replyTo (op : Nat) (r : Request) : Reply where
  op := op
  requestId := r.requestId
  session := r.session
  status := 0
  source := 0
  index := r.index
  sub := r.sub
  typ := match objFind (r.index * 256 + r.sub) with
    | some o => BitVec.ofNat 8 o.typ
    | none => 0
  effectiveStep := 0
  ordinal := 0
  data := []

/-- A refused reply: the code, and the record of a cross-object refusal (Table 13.4). -/
def refuse (s : State) (op : Nat) (r : Request) (e : Refused) : Reply :=
  { replyTo op r with
    status := 1
    data := bytesOfNat 4 e.code.toNat ++
      (if e.aKey = 0 then []
       else bytesOfNat 32 (RefusalRecord.nat ⟨e.code, currentStep s, e.aKey, e.aEntry, e.bKey, e.bEntry⟩)) }

/-- What a request comes to: the state, the reply, and the cause of a stack reset it asks for. -/
structure Answer where
  state : State
  reply : Reply
  reset : Option Nat
  deriving DecidableEq, Repr

/-- An answer that changes nothing but what `s` already holds, refused with a code. -/
def refusedWith (s : State) (op : Nat) (r : Request) (c : Code) : Answer := ⟨s, refuse s op r (codeOnly c), none⟩

/-! ## Batches (R330) -/

/-- The open batch of a session. -/
def openBatch (s : State) (session : BitVec 64) (number : Nat) : Option Batch :=
  s.dict.batches.find? (fun b => decide (b.session = session ∧ b.number = number))

/-- The state without a session's open batch. -/
def removeBatch (s : State) (session : BitVec 64) (number : Nat) : State :=
  s.onDict (fun d => { d with batches := d.batches.filter (fun b => !decide (b.session = session ∧ b.number = number)) })

/-- A part enters its batch, which it opens if it is the first. -/
def holdPart (s : State) (session : BitVec 64) (number applyAt : Nat) (p : Part) : State :=
  match openBatch s session number with
  | some b =>
    s.onDict (fun d => { d with batches := d.batches.map (fun c => if c = b then { c with parts := c.parts ++ [p] } else c) })
  | none =>
    onSession (s.onDict (fun d => { d with batches := d.batches ++ [⟨session, number, applyAt, [p]⟩] })) session
      (fun x => { x with usedBatches := setAdd x.usedBatches number })

/-- The code with which a part is turned away: its batch is over, or a limit is reached. -/
def partTurned (s : State) (x : Session) (number bytes : Nat) : Option Code :=
  match openBatch s x.number number with
  | some _ => if 33554432 < batchBytes s + bytes then some 0x01100D06 else none
  | none =>
    if x.usedBatches.contains number then some 0x01100D07
    else if 4 ≤ (s.dict.batches.filter (fun b => decide (b.session = x.number))).length ∨ 33554432 < batchBytes s + bytes then some 0x01100D06
    else none

/-- A WRITE or REVERT with a batch number: checked, and held as a part. A part that fails its checks is refused in its own reply
and remembered, so that SEAL refuses the batch. -/
def batchPart (s : State) (x : Session) (op : Nat) (r : Request) (revert : Bool) : Answer :=
  match partTurned s x r.batch r.data.length with
  | some c => refusedWith s op r c
  | none =>
    match checkWrite s x r revert true with
    | .ok o => ⟨holdPart s x.number r.batch r.applyAt ⟨o.key, revert, r.offset, r.data, r.applyAt, 0⟩, replyTo op r, none⟩
    | .error c => refusedWith (holdPart s x.number r.batch r.applyAt ⟨r.index * 256 + r.sub, revert, r.offset, r.data, r.applyAt, c⟩) op r c

/-- The bytes of its object that a part covers. -/
def partRange (p : Part) : Nat × Nat := if p.revert then (0, 2 ^ 32) else (p.offset, p.offset + p.data.length)

/-- Two parts of one object overlap. -/
def partsMeet (p q : Part) : Bool :=
  decide (p.key = q.key ∧ (partRange p).1 < (partRange q).2 ∧ (partRange q).1 < (partRange p).2)

/-- The code of the first failing part, in part order. -/
def failingPart : List Part → List Part → Option Code
  | _, [] => none
  | before, p :: l =>
    if p.code ≠ 0 then some p.code
    else if before.any (partsMeet p) then some 0x01100D04
    else failingPart (before ++ [p]) l

/-- Insert a part before the first of a greater key. -/
def insertByKey (p : Part) : List Part → List Part
  | [] => [p]
  | q :: l => if p.key < q.key then p :: q :: l else q :: insertByKey p l

/-- Insert a part by offset. -/
def insertByOffset (p : Part) : List Part → List Part
  | [] => [p]
  | q :: l => if p.offset < q.offset then p :: q :: l else q :: insertByOffset p l

/-- The value that contiguous parts give from offset 0; none when they are not contiguous. -/
def assemble : Nat → List Part → Option (List Byte)
  | _, [] => some []
  | at_, p :: l => if p.offset = at_ then (assemble (at_ + p.data.length) l).map (fun r => p.data ++ r) else none

/-- The writes of parts in ascending index.sub; the parts of a WO object as one value from offset 0. -/
def batchWrites (s : State) (l : List Part) : Except Code (List PartWrite) :=
  let sorted := l.foldl (fun a p => insertByKey p a) []
  (sorted.map (fun p => p.key)).eraseDups.foldl (fun (a : Except Code (List PartWrite)) k =>
    match a, objFind k with
    | .error c, _ => .error c
    | .ok _, none => .error 0x01100D01
    | .ok w, some o =>
      let own := sorted.filter (fun p => p.key == k)
      if o.access ≠ 4 then
        .ok (w ++ own.map (fun p => if p.revert then ⟨o, 0, startData s o, 9⟩ else ⟨o, p.offset, p.data, 2⟩))
      else
        match assemble 0 (own.foldl (fun a p => insertByOffset p a) []) with
        | none => .error 0x01100D04
        | some v =>
          if extentOk o 0 v.length false = false then .error 0x01100D04
          else if valueOk o [] 0 v then .ok (w ++ [⟨o, 0, v, 2⟩])
          else .error 0x01000001) (.ok [])

/-- SEAL: every part of the batch at one write ordinal, or none (R330). The batch is over either way. -/
def sealBatch (found : Findings) (s : State) (x : Session) (r : Request) : Answer :=
  match openBatch s x.number r.batch with
  | none => refusedWith s 4 r 0x01100D07
  | some b =>
    let s1 := removeBatch s x.number r.batch
    match failingPart [] b.parts with
    | some c => refusedWith s1 4 r c
    | none =>
      if b.parts.any (fun p => decide (p.applyAt ≠ r.applyAt)) then refusedWith s1 4 r 0x01100D05
      else
        match batchWrites s1 b.parts with
        | .error c => refusedWith s1 4 r c
        | .ok l =>
          match acceptWrites found s1 r.applyAt l with
          | .error e => ⟨s1, refuse s1 4 r e, none⟩
          | .ok (t, eff, n) => ⟨t, { replyTo 4 r with effectiveStep := eff, ordinal := n }, resetAsked l⟩

/-- ABANDON: the batch is over and nothing of it is accepted (R330). -/
def abandonBatch (s : State) (x : Session) (r : Request) : Answer :=
  match openBatch s x.number r.batch with
  | none => refusedWith s 5 r 0x01100D07
  | some _ => ⟨removeBatch s x.number r.batch, replyTo 5 r, none⟩

/-! ## WRITE and REVERT -/

/-- A WRITE or REVERT of a session (R325 to R328, R337). -/
def writeRequest (found : Findings) (s : State) (x : Session) (op : Nat) (r : Request) : Answer :=
  let revert := decide (op = 3)
  if r.batch ≠ 0 then batchPart s x op r revert
  else
    match checkWrite s x r revert false with
    | .error c => refusedWith s op r c
    | .ok o =>
      let w : PartWrite := if revert then ⟨o, 0, startData s o, 9⟩ else ⟨o, r.offset, r.data, 2⟩
      match acceptWrites found s r.applyAt [w] with
      | .error e => ⟨s, refuse s op r e, none⟩
      | .ok (t, eff, n) => ⟨t, { replyTo op r with effectiveStep := eff, ordinal := n }, resetAsked [w]⟩

/-! ## READ, DESCRIBE, ENUMERATE -/

/-- The value that a READ asks for (R327, R340). -/
def readView (s : State) (o : Obj) (r : Request) : View :=
  if r.viewStaged then viewWith s (stagedValues s) o
  else if r.viewPending then viewWith s (pendingValues s r.applyAt) o
  else if r.viewSnapshot then
    match s.dict.snapshot.find? (fun e => e.1 == o.key) with
    | some e => e.2
    | none => .bytes (List.replicate (viewOf s o).length 0)
  else viewOf s o

/-- The source of an entry of an object (R337). -/
def sourceOf (s : State) (o : Obj) (entry : Nat) : Nat :=
  if o.access = 1 then 3 else tabGet 0 s.dict.source (o.key * 65536 + entry % 65536)

/-- READ (R327, R328). -/
def readRequest (s : State) (r : Request) : Answer :=
  match objFind (r.index * 256 + r.sub) with
  | none => refusedWith s 1 r 0x01100D01
  | some o =>
    if o.access = 4 then refusedWith s 1 r 0x01100D02
    else if r.typ.toNat ≠ o.typ then refusedWith s 1 r 0x01100D03
    else if r.viewSnapshot = true ∧ o.counter = false then refusedWith s 1 r 0x01100D01
    else
      let v := readView s o r
      if v.length < r.offset + r.length then refusedWith s 1 r 0x01100D04
      else
        ⟨s, { replyTo 1 r with
          source := sourceOf s o (r.offset / elemSize o.key)
          effectiveStep := tabGet 0 s.dict.change o.key
          ordinal := s.train.boundarySeq
          data := viewBytes s o.key v r.offset r.length }, none⟩

/-- DESCRIBE (Table 13.4). -/
def describeRequest (s : State) (r : Request) : Answer :=
  match objFind (r.index * 256 + r.sub) with
  | none => refusedWith s 6 r 0x01100D01
  | some o =>
    let place := match mirrorObjects.find? (fun m => m.1 == o.key) with
      | some m => m.2
      | none => 0
    let len := if o.access = 4 then o.size * o.count else (viewOf s o).length
    ⟨s, { replyTo 6 r with
      source := sourceOf s o 0
      data := bytesOfNat 1 o.typ ++ bytesOfNat 1 o.access ++ bytesOfNat 1 o.digest ++ bytesOfNat 1 (natOfBool o.mirror)
        ++ bytesOfNat 4 len ++ bytesOfNat 4 place ++ bytesOfNat 4 o.size }, none⟩

/-- ENUMERATE (Table 13.4). -/
def enumerateRequest (s : State) (r : Request) : Answer :=
  match objects.find? (fun o => decide (r.index * 256 + r.sub < o.key)) with
  | some o => ⟨s, { replyTo 7 r with data := bytesOfNat 2 (o.key / 256) ++ bytesOfNat 2 (o.key % 256) }, none⟩
  | none => ⟨s, { replyTo 7 r with data := bytesOfNat 4 0xFFFFFFFF }, none⟩

/-! ## SESSION (R329, R356) -/

/-- The session of a number. -/
def sessionOf (s : State) (number : BitVec 64) : Option Session :=
  if number = 0 then none else s.dict.sessions.find? (fun x => decide (x.number = number))

/-- The SESSION operation. -/
def sessionRequest (s : State) (r : Request) : Answer :=
  match (r.data.headD 0).toNat with
  | 1 =>
    if r.session ≠ 0 then refusedWith s 8 r 0x01100D08
    else
      match openHello s r.data with
      | .error c => refusedWith s 8 r c
      | .ok (t, number, nonce) => ⟨t, { replyTo 8 r with session := number, data := nonce }, none⟩
  | 2 =>
    match sessionOf s r.session with
    | none => refusedWith s 8 r 0x01100D08
    | some x =>
      if x.pending = false then refusedWith s 8 r 0x01100D08
      else
        match proveSession s x r.data with
        | (t, .ok tag) => ⟨t, { replyTo 8 r with data := tag }, none⟩
        | (t, .error c) => refusedWith t 8 r c
  | 3 =>
    match sessionOf s r.session with
    | none => refusedWith s 8 r 0x01100D08
    | some x => if x.pending then refusedWith s 8 r 0x01100D08 else ⟨dropSession s x.number, replyTo 8 r, none⟩
  | _ => refusedWith s 8 r 0x01100D0D

/-! ## The answer to a request -/

/-- Start-up serves the reduced dictionary: before phase 8, and in phase 9 (R352, R355). -/
def reducedDictionary (s : State) : Bool := decide (s.boot.phase < 8 ∨ s.boot.phase = 9)

/-- The objects of the reduced dictionary (R352). -/
def earlyIndex (index : Nat) : Bool := decide (index = 0x1000 ∨ (0x1800 ≤ index ∧ index ≤ 0x1810) ∨ index = 0x7000)

/-- The code with which an operation is refused before its object is looked at: op and subop, view flags, session, start-up
(R327, R329, R352). -/
def requestRefusal (s : State) (op : Nat) (r : Request) : Option Code :=
  let views := natOfBool r.viewStaged + natOfBool r.viewPending + natOfBool r.viewSnapshot
  let open_ := match sessionOf s r.session with
    | some x => !x.pending
    | none => false
  if op = 0 ∨ 8 < op then some 0x01100D0D
  else if views ≠ 0 ∧ (op ≠ 1 ∨ 1 < views) then some 0x01100D0E
  else if op = 1 ∧ r.viewPending = true ∧ r.applyAt = 0 then some 0x01100D0E
  else if op = 8 then none
  else if r.session = 0 ∧ op ≠ 1 ∧ op ≠ 6 ∧ op ≠ 7 then some 0x01100D08
  else if r.session ≠ 0 ∧ open_ = false then some 0x01100D08
  else if reducedDictionary s = true ∧ (op = 4 ∨ op = 5 ∨ op = 7 ∨ earlyIndex r.index = false) then some 0x07100E0D
  else none

/-- One request performed (Table 13.4). -/
def perform (found : Findings) (s : State) (op : Nat) (r : Request) : Answer :=
  match requestRefusal s op r with
  | some c => refusedWith s op r c
  | none =>
    match op, sessionOf s r.session with
    | 1, _ => readRequest s r
    | 6, _ => describeRequest s r
    | 7, _ => enumerateRequest s r
    | 8, _ => sessionRequest s r
    | 4, some x => sealBatch found s x r
    | 5, some x => abandonBatch s x r
    | _, some x => writeRequest found s x op r
    | _, none => refusedWith s op r 0x01100D08

/-- `k` is above `id` in serial-number order. -/
def serialAbove (k id : BitVec 32) : Bool := decide (0 < (k - id).toNat ∧ (k - id).toNat < 2 ^ 31)

/-- A request on a session: the kept reply again, too old, or performed and its reply kept (R329). -/
def performKept (found : Findings) (s : State) (op : Nat) (r : Request) : Answer :=
  match sessionOf s r.session with
  | none => perform found s op r
  | some x =>
    match x.replies.find? (fun k => decide (k.requestId = r.requestId)) with
    | some k => ⟨touch s x, k, none⟩
    | none =>
      if x.replies ≠ [] ∧ x.replies.all (fun k => serialAbove k.requestId r.requestId) = true then
        refusedWith (touch s x) op r 0x01100D09
      else
        let a := perform found (touch s x) op r
        { a with state := onSession a.state r.session (fun y =>
            { y with replies := (y.replies ++ [a.reply]).drop ((y.replies.length + 1) - 64) }) }
where
  touch (s : State) (x : Session) : State :=
    if x.pending then s else onSession s x.number (fun y => { y with lastUse := s.power.refPeriods })

/-- The datagram is not the header plus the data that its operation carries: discarded without reply (R327). -/
def discarded (op : Nat) (r : Request) : Bool :=
  match op with
  | 1 => decide (r.data ≠ [] ∨ 1024 < r.length)
  | 2 => decide (r.data.length ≠ r.length ∨ 1024 < r.length)
  | 8 => decide (r.data.length ≠ 64 ∨ r.length ≠ 64)
  | _ => decide (r.data ≠ [])

/-- The bytes of a request's message (Table 13.3). -/
def requestMessage (op : Nat) (r : Request) : List Byte :=
  bytesOfNat 64 (r.version + op * 2 ^ 8 + natOfBool r.viewStaged * 2 ^ 24 + natOfBool r.viewPending * 2 ^ 25
    + natOfBool r.viewSnapshot * 2 ^ 26 + r.requestId.toNat * 2 ^ 32 + r.session.toNat * 2 ^ 64 + r.target.toNat * 2 ^ 128
    + r.index * 2 ^ 160 + r.sub * 2 ^ 176 + r.typ.toNat * 2 ^ 184 + r.offset * 2 ^ 192 + r.length * 2 ^ 224 + r.applyAt * 2 ^ 256
    + r.batch * 2 ^ 320) ++ r.data

/-- The operation and request that a message holds (Table 13.3). -/
def requestOf (l : List Byte) : Nat × Request :=
  let v := natOfBytes (l.take 64)
  (bitsAt v 8 8,
    { version := bitsAt v 0 8
      requestId := BitVec.ofNat 32 (bitsAt v 32 32)
      session := BitVec.ofNat 64 (bitsAt v 64 64)
      target := BitVec.ofNat 24 (bitsAt v 128 24)
      index := bitsAt v 160 16
      sub := bitsAt v 176 8
      typ := BitVec.ofNat 8 (bitsAt v 184 8)
      offset := bitsAt v 192 32
      length := bitsAt v 224 16
      applyAt := bitsAt v 256 64
      batch := bitsAt v 320 16
      viewStaged := bitAt v 24
      viewPending := bitAt v 25
      viewSnapshot := bitAt v 26
      data := l.drop 64 })

/-- The bytes of a reply's message (Table 13.3). -/
def replyMessage (y : Reply) : List Byte :=
  bytesOfNat 64 (1 + y.op * 2 ^ 8 + y.status * 2 ^ 16 + y.requestId.toNat * 2 ^ 32 + y.session.toNat * 2 ^ 64 + y.source * 2 ^ 152
    + y.index * 2 ^ 160 + y.sub * 2 ^ 176 + y.typ.toNat * 2 ^ 184 + y.data.length * 2 ^ 224 + y.effectiveStep * 2 ^ 384
    + y.ordinal * 2 ^ 448) ++ y.data

/-- The reply that a message holds (Table 13.3). -/
def replyOf (l : List Byte) : Reply :=
  let v := natOfBytes (l.take 64)
  { op := bitsAt v 8 8
    requestId := BitVec.ofNat 32 (bitsAt v 32 32)
    session := BitVec.ofNat 64 (bitsAt v 64 64)
    status := bitsAt v 16 8
    source := bitsAt v 152 8
    index := bitsAt v 160 16
    sub := bitsAt v 176 8
    typ := BitVec.ofNat 8 (bitsAt v 184 8)
    effectiveStep := bitsAt v 384 64
    ordinal := bitsAt v 448 64
    data := (l.drop 64).take (bitsAt v 224 16) }

/-- A request for another node (R331). -/
def forAnother (s : State) (r : Request) : Bool := decide (r.target ≠ 0xFFFFFF ∧ r.target ≠ ownNode s)

/-- Relay a request; what its client receives after 1 ms without a reply is kept (R331). -/
def relayRequest (s : State) (op : Nat) (r : Request) : State :=
  sendPacket (s.onDict (fun d => { d with relayed := d.relayed ++ [refuse s op r (codeOnly 0x01100D0B)] }))
    (controlPacket s r.target (jobGroup s) 1 (requestMessage op r))

/-- The module's own answer to a request that is not discarded. -/
def answerOwn (found : Findings) (s : State) (op : Nat) (r : Request) : Answer :=
  if r.version ≠ 1 then refusedWith s op r 0x01100D0C else performKept found s op r

/-- A stack reset that a request asked for, after its reply (R344, R360). -/
def afterReply (s : State) (reset : Option Nat) : State :=
  match reset with
  | some cause => stackResetWith s cause 0
  | none => s

/-- The outcome of a command that carried a request: a stack reset restarts the module. -/
def finishRequest (s t : State) (reset : Option Nat) : Host.Outcome State Fault Refusal :=
  if reset.isSome then restarted s (afterReply t reset) else done s t

/-- A request at the management port (R327). -/
def serve (found : Findings) (op : Nat) (r : Request) (s : State) : Host.Outcome State Fault Refusal :=
  if s.power.convertersOn = false ∨ discarded op r = true then .next s
  else if forAnother s r = true ∧ r.version = 1 then
    if reducedDictionary s then done s (emit s (.reply (refuse s op r (codeOnly 0x07100E0D))))
    else done s (relayRequest s op r)
  else
    let a := answerOwn found s op r
    finishRequest s (emit a.state (.reply a.reply)) a.reset

/-- A WRITE of one object, which the row names; another object has a row of its own. -/
def serveWrite (key : Nat) (found : Findings) (r : Request) (s : State) : Host.Outcome State Fault Refusal :=
  if r.index * 256 + r.sub = key then serve found 2 r s else .next s

end Sys2Proof.Machine
end

