-- ==== Sys2Proof/Machine/Defaults.lean ====
section
/-! DEFINITION. The defaults of start-up (R336, R337, R353, R355): the user image's entries checked as one staged set, the fall back to the
other image and to factory defaults, and phase 8. -/

namespace Sys2Proof.Machine

open Sys2Proof

/-- An entry of an image's defaults: key, offset, value. -/
abbrev DefaultEntry := Nat × Nat × List Byte

/-- The values that stand before any entry is applied: factory defaults, the unit's fe_mac, and hbm_granule as phase 6 set it. -/
def baseValues (s : State) : Tab Byte :=
  storeWrite (storeWrite [] 0x580003 0 (s.flash.feMac.flatMap (bytesOfNat 8))) 0x300005 0 (cfgBytes s 0x300005 0 1)

/-- Check one entry and lay it over the values `t` (R326, R336). Entries for values that flash or start-up holds change nothing;
hbm_granule has been taken at phase 6. -/
def placeEntry (s : State) (t : Tab Byte) (e : DefaultEntry) : Except Refused (Tab Byte) :=
  match objFind e.1 with
  | none => .error (failOne 0x01100D01 e.1 wholeObject)
  | some o =>
    if o.access ≠ 2 ∧ o.access ≠ 3 ∧ o.key ≠ 0x300005 then .error (failOne 0x01100D02 e.1 wholeObject)
    else if extentOk o e.2.1 e.2.2.length false = false then .error (failOne 0x01100D04 e.1 wholeObject)
    else if valueOk o (if o.elemType = 10 ∨ o.typ % 16 = 11 then [] else storeBytes t e.1 0 o.size) e.2.1 e.2.2 = false then
      .error (failOne 0x01000001 e.1 wholeObject)
    else if typedRw o.key ∨ o.key = 0x300005 then .ok t
    else
      let u := storeWrite t e.1 e.2.1 e.2.2
      match (if o.access = 2 then rwCheck { s with dict := { s.dict with values := u } } u e.1 (coveredEntries e.1 e.2.1 e.2.2.length) else none) with
      | some f => .error f
      | none => .ok u

/-- Lay entries over values, in order; the first failure ends it. -/
def placeEntries (s : State) : Tab Byte → List DefaultEntry → Except Refused (Tab Byte)
  | t, [] => .ok t
  | t, e :: l =>
    match placeEntry s t e with
    | .ok u => placeEntries s u l
    | .error f => .error f

/-- The values that an image's defaults leave, or the first failure: its entries one by one, then the checks of the staged set
(R333). -/
def imageValues (s : State) (entries : List DefaultEntry) : Except Refused (Tab Byte) :=
  match placeEntries s (baseValues s) entries with
  | .error f => .error f
  | .ok t =>
    match stagedFailures { s with dict := { s.dict with values := t } } s.fabric.groups t with
    | [] => .ok t
    | f :: _ => .error f

/-- The sources that an image's entries leave (R337). -/
def imageSources (entries : List DefaultEntry) : Tab Nat :=
  entries.foldl (fun t e => markSources [] t ⟨0, 0, e.1, e.2.1, e.2.2, 1⟩) []

/-- The defaults of an image failed their check (R336). -/
def refuseImage (s : State) (f : Refused) : State :=
  (raise s 0x01100D0A 0).onDict (fun d => { d with
    refusal := ⟨f.code, currentStep s, f.aKey, f.aEntry, f.bKey, f.bEntry⟩ })

/-- Values and sources of start-up take force, with the number of the user image in use. -/
def takeDefaults (s : State) (t : Tab Byte) (sources : Tab Nat) (running : Nat) : State :=
  let s1 := (s.onDict (fun d => { d with values := t, startValues := t, source := sources, startSource := sources })).onBoot
    (fun b => { b with userRunning := running })
  s1.onTrain (fun x => { x with history := recordRange s1 x.history })

/-- The first copy of a list whose image is valid and whose defaults pass; factory defaults alone when none does. A copy that is not
valid is skipped (R349). -/
def chooseDefaults : List Nat → State → State
  | [], s => takeDefaults s (baseValues s) [] 0xFF
  | c :: l, s =>
    match chooseCopy [c] s with
    | (none, t) => chooseDefaults l t
    | (some _, t) =>
      match imageDefaults t c with
      | none => chooseDefaults l (refuseImage t (codeOnly 0x07130E05))
      | some entries =>
        match imageValues t entries with
        | .ok v => takeDefaults t v (imageSources entries) (c - 2)
        | .error f => chooseDefaults l (refuseImage t f)

/-- The user copies that DEFAULTS_APPLY tries: the one chosen, and the other where it has not been found invalid already (R336). -/
def defaultOrder (s : State) : List Nat :=
  match s.boot.userRunning with
  | 0 => if s.flash.userSelect = 0 then [2, 3] else [2]
  | 1 => if s.flash.userSelect = 0 then [3] else [3, 2]
  | _ => []

/-- Phase 8: the events of the start-up are raised in occurrence order, the module awaits a job, its peer ports train (R353,
Tables 14.6, 14.7, 9.3). -/
def becomeReady (s : State) : State :=
  let s1 := (s.onBoot (fun b => { b with phase := 8, held := [] })).onResil (fun r => { r with state := 1 })
  let s2 := s.boot.held.foldl (fun t e => logEvent t e.1 e.2) s1
  (List.range 7).foldl applyPortMode s2

/-- DEFAULTS_APPLY: the user image chosen at start-up, then the other, then factory defaults (R336, R355). -/
def execDefaultsApply (s : State) : Host.Outcome State Fault Refusal :=
  if s.boot.phase ≠ 7 then .next s
  else
    let s1 := chooseDefaults (defaultOrder s) s
    if s1.stack.tileMap.length < logicalTiles s1 then done s (unserviceable s1 8) else done s (becomeReady s1)

end Sys2Proof.Machine
end

