-- ==== Sys2Proof/Machine/Matrix.lean ====
section
/-! DEFINITION. The matrix engine (R62, R98 to R102, R113): checks of a MATMUL, operand reads with quantisation and block scales, and
its meaning. -/

namespace Sys2Proof.Machine

open Sys2Proof

/-- One operand of a MATMUL: A with its rows m, or B with its columns n; `lines` of `depth` elements along k. -/
structure Operand where
  addr : Nat
  fmt : Nat
  transposed : Bool
  stride : Int
  scaleAddr : Nat
  scaleStride : Int
  eng : Nat
  mx : Bool
  lines : Nat
  depth : Nat
  deriving DecidableEq, Repr

/-- A MATMUL descriptor (Table 4.7). -/
structure Mat where
  a : Operand
  b : Operand
  bank : Nat
  init : Bool
  deriving DecidableEq, Repr

/-- An operand whose fields start at bit `lo` of the descriptor, with its engine format and mx bit. A is stored by rows of m when
its transpose bit is 0; B is stored by rows of n when its transpose bit is 1 (R99). -/
def operandOf (t : Tile) (d lo lines depth eng : Nat) (mx isA : Bool) : Operand :=
  ⟨baseOffset t (bitsAt d lo 4) (bitsAt d (lo + 4) 48), bitsAt d (lo + 52) 4, (if isA then bitAt d (lo + 56) else !bitAt d (lo + 56)),
    signed 32 (bitsAt d (lo + 64) 32), baseOffset t (bitsAt d (lo + 128) 4) (bitsAt d (lo + 132) 48), signed 32 (bitsAt d (lo + 96) 32),
    eng, mx, lines, depth⟩

/-- The MATMUL that a descriptor describes. -/
def matOf (t : Tile) (d : Nat) : Mat :=
  let k := bitsAt d 462 24
  ⟨operandOf t d 64 (bitsAt d 448 7 + 1) k (bitsAt d 488 4) (bitAt d 496) true,
   operandOf t d 256 (bitsAt d 455 7 + 1) k (bitsAt d 492 4) (bitAt d 497) false, bitsAt d 486 1, bitAt d 487⟩

/-- Stored formats that an engine format may be read from (Table 4.8). -/
def storedFormats (eng : Nat) : List Nat :=
  match eng with
  | 1 => [1, 5, 7]
  | 2 => [2, 5, 7]
  | 3 => [3, 5, 7]
  | 4 => [4]
  | 5 => [5, 7]
  | 6 => [6, 7]
  | 7 => [7]
  | _ => []

/-- The operand's pair of formats is allowed (Table 4.8). -/
def Operand.pairOk (x : Operand) : Bool := (storedFormats x.eng).contains x.fmt

/-- The mx bit matches the engine format (R100). -/
def Operand.mxOk (x : Operand) : Bool := if x.eng = 1 then x.mx else !x.mx || decide (x.eng = 2 ∨ x.eng = 3)

/-- The operand's scales are stored beside it: it is read directly and carries MX scales. -/
def Operand.scaled (x : Operand) : Bool := x.mx && x.fmt == x.eng

/-- The two engine formats form an allowed combination (Table 4.9). -/
def combinationOk (a b : Nat) : Bool := decide (a = b ∨ ((a = 2 ∨ a = 3) ∧ (b = 2 ∨ b = 3)))

/-- A reserved bit of a MATMUL is set (Table 4.7). -/
def matReserved (d : Nat) : Bool :=
  decide (bitsAt d 121 7 ≠ 0 ∨ bitsAt d 244 12 ≠ 0 ∨ bitsAt d 313 7 ≠ 0 ∨ bitsAt d 436 12 ≠ 0 ∨ bitsAt d 498 14 ≠ 0)

/-- The code of a MATMUL that breaks R52, R78 or R98 to R100; none when it is right. The spec gives no order among these checks,
and no alignment of MATMUL operands: testing the profile last and reading unaligned elements are the model's choices (DESIGN
CHOICE, assumptions 62 and 65). -/
def checkMatmul (profile : Nat) (m : Mat) : Option Code :=
  let fmts := [m.a.fmt, m.a.eng, m.b.fmt, m.b.eng]
  if fmts.any fmtReserved then some 0x05020102
  else if m.a.depth = 0 then some (malformed 0x04)
  else if m.a.pairOk = false ∨ m.b.pairOk = false ∨ combinationOk m.a.eng m.b.eng = false then some (malformed 0x06)
  else if m.a.mxOk = false ∨ m.b.mxOk = false then some (malformed 0x0B)
  else if fmts.any (fun f => !profileAllows profile f) then some 0x05020101
  else none

/-- Address of element `k` of line `i` of an operand (R99). -/
def Operand.at (x : Operand) (i k : Nat) : Nat :=
  let (r, p) := if x.transposed then (k, i) else (i, k)
  wrapAddr ((x.addr : Int) + (r : Int) * x.stride + (if x.fmt = 1 then ((p / 2 : Nat) : Int) else ((p * fmtBytes x.fmt : Nat) : Int)))

/-- Address of the block scale of element `k` of line `i` (R99). -/
def Operand.scaleAt (x : Operand) (i k : Nat) : Nat := wrapAddr ((x.scaleAddr : Int) + (i : Int) * x.scaleStride + ((k / 32 : Nat) : Int))

/-- The remainder word's address of a weight operand in wide state mode: the operand is a BF16 element of plane 0 of a dense
group's live slot, and both tensors are read (R72). -/
def weightRemainder (s : State) (fmt a : Nat) : Option Nat :=
  if fmt = 5 ∧ modeInForce s = 1 then
    ((validGroups s.dict.values).find? (fun g =>
      decide (g.number < 4096 ∧ liveSlot s g ≤ a ∧ a < liveSlot s g + 2 * g.elements))).map (fun g => a + g.stride)
  else none

/-- Read a stored element: its value, its poison, and whether it is a joined binary32 weight. -/
def readStored (n : Nat) (x : Operand) (i k : Nat) (s : State) : Got (FNum × Bool × Bool) × State :=
  let a := x.at i k
  Got.andThen (readFor (.pip n) 2 a (elemBytes x.fmt) s) (fun b s1 =>
    let p := if x.transposed then i else k
    let bits := if x.fmt = 1 then b.nat / 16 ^ (p % 2) % 16 else b.nat
    match weightRemainder s1 x.fmt a with
    | some r =>
      Got.andThen (readFor (.pip n) 2 r 2 s1) (fun b2 s2 =>
        (.ok (decodeNum 7 (joinPair b.nat b2.nat), b.poisoned || b2.poisoned, true), s2))
    | none => (.ok (decodeNum x.fmt bits, b.poisoned, false), s1))

/-- Apply `f` to consecutive parts of 32 elements of a line; `n` at least the number of parts. -/
def byBlocks (f : List FNum → List FNum) : Nat → List FNum → List FNum
  | 0, _ => []
  | n + 1, l => if l = [] then [] else f (l.take 32) ++ byBlocks f n (l.drop 32)

/-- Quantise a line on read (R60, R61, R100). -/
def quantizeLine (x : Operand) (l : List FNum) : List FNum :=
  if x.mx then
    byBlocks (fun b => let (sc, e) := mxBlock x.eng b; e.map (mxValue x.eng sc)) (l.length / 32 + 1) l
  else l.map (roundNum x.eng)

/-- A line of an operand as the engine multiplies it (under profile F an operand that is quantised on read is tested for
subnormals after quantisation, in the engine format: R55 does not say which, DESIGN CHOICE, assumption 65), and whether
anything it depends on is poisoned (R55, R99, R100, R113). -/
def readLine (n profile : Nat) (x : Operand) (i : Nat) (s : State) : Got (List FNum × Bool) × State :=
  Got.andThen (Got.each (fun k s1 => readStored n x i k s1) (List.range x.depth) s) (fun l s2 =>
  Got.andThen (Got.each (fun q s3 => Got.andThen (readFor (.pip n) 2 (x.scaleAt i (32 * q)) 1 s3) (fun b s4 => (.ok (b.nat, b.poisoned), s4)))
      (if x.scaled then List.range ((x.depth + 31) / 32) else []) s2) (fun sc s5 =>
    let values := l.map (fun e => e.1)
    let joined := l.any (fun e => e.2.2)
    let direct :=
      if x.scaled then values.zipIdx.map (fun v =>
        if (sc.getD (v.2 / 32) (0, false)).1 = 0xFF then .nan
        else (flushInput profile x.eng v.1).scale (((sc.getD (v.2 / 32) (0, false)).1 : Int) - 127))
      else if x.fmt = x.eng ∧ joined = false then values.map (flushInput profile x.eng)
      else (quantizeLine x values).map (flushInput profile x.eng)
    (.ok (direct, l.any (fun e => e.2.1) || sc.any (fun e => e.2)), s5)))

/-- A product of two operands; a product of INT8 operands is an integer, whose zero has no sign (R62). -/
def product (int : Bool) (x y : FNum) : FNum := if int && (x.mul y).isZero then .fin false 0 0 else x.mul y

/-- The accumulator value after the products of a line of A and a line of B, in groups of G along k (R62); `n` at least the number
of groups. -/
def accumulate (int : Bool) (g : Nat) : Nat → FNum → List FNum → List FNum → FNum
  | 0, acc, _, _ => acc
  | n + 1, acc, a, b =>
    if a = [] then acc
    else
      let x := exactSum (acc :: List.zipWith (product int) (a.take g) (b.take g))
      accumulate int g n (roundNum 7 x) (a.drop g) (b.drop g)

/-- The starting accumulator of an element: +0 with init, else the bank's own value with its word's poison mark (R101, R113). -/
def startValue (n : Nat) (m : Mat) (off : Nat) (s : State) : Got (FNum × Bool) × State :=
  if m.init then (.ok (.fin false 0 0, false), s)
  else
    match readBankWord s (bankAt n m.bank off / 8) with
    | (.good d, s1) => (.ok (decodeNum 7 (if off % 8 = 0 then d.toNat % 2 ^ 32 else d.toNat / 2 ^ 32), false), s1)
    | (.poison d, s1) => (.ok (decodeNum 7 (if off % 8 = 0 then d.toNat % 2 ^ 32 else d.toNat / 2 ^ 32), true), s1)
    | (_, s1) => (.fault 0x02020801, s1)

/-- Bits of a list of flags, bit i from entry i. -/
def maskOf (l : List Bool) : Nat := l.zipIdx.foldl (fun a x => if x.1 then a + 2 ^ x.2 else a) 0

/-- The masks of a bank after a MATMUL: init clears those of the region, poisoned lines set theirs (R113). -/
def setMask (old lines : Nat) (init : Bool) (marks : List Bool) : Nat :=
  let kept := if init then old / 2 ^ lines * 2 ^ lines else old
  kept ||| maskOf marks

/-- What a MATMUL computes: bank elements by place div 4, and the poison of the lines of A and B. -/
def matmulOuts (n : Nat) (m : Mat) (x : Context) (s : State) : Got (Tab (Nat × Bool) × List Bool × List Bool) × State :=
  let g := groupSize x.profile m.a.eng
  Got.andThen (Got.each (fun i s1 => readLine n x.profile m.a i s1) (List.range m.a.lines) s) (fun as s2 =>
  Got.andThen (Got.each (fun j s3 => readLine n x.profile m.b j s3) (List.range m.b.lines) s2) (fun bs s4 =>
  Got.andThen (Got.each (fun ij s5 =>
      let (i, j) := ij
      Got.andThen (startValue n m (512 * i + 4 * j) s5) (fun acc s6 =>
        let v := accumulate (m.a.eng == 4) g m.a.depth acc.1 (as.getD i ([], false)).1 (bs.getD j ([], false)).1
        (.ok (bankAt n m.bank (512 * i + 4 * j) / 4, encodeNum 7 v, acc.2), s6)))
      ((List.range m.a.lines).flatMap (fun i => (List.range m.b.lines).map (fun j => (i, j)))) s4) (fun r s7 =>
    (.ok (r.map (fun e => (e.1, e.2.1, e.2.2)), as.map (fun e => e.2), bs.map (fun e => e.2)), s7))))

/-- Handshake cycles of one k step times 2 (Table 4.10, R102): the slower of the array and of the operand paths. -/
def halfCycles (m : Mat) : Nat :=
  let array := match m.a.eng with
    | 1 => 1
    | 2 => 2
    | 3 => 2
    | 4 => 2
    | 7 => 32
    | _ => 4
  let path := fun (x : Operand) => if x.fmt = x.eng then 0 else if x.fmt = 5 then 4 else 8
  max array (max (path m.a) (path m.b))

/-- The counters of a MATMUL (Table 4.18, R319). -/
def countMatmul (n : Nat) (m : Mat) (s : State) : State :=
  let macs := m.a.lines * m.b.lines * m.a.depth
  (onTile s n (fun t => { t with matrixBusy := t.matrixBusy + (m.a.depth * halfCycles m + 1) / 2, matrixMacs := t.matrixMacs + macs })).onPower
    (fun p => { p with tileLoad := tabCount p.tileLoad n macs })

/-- Forget the region of a MATMUL that faulted (R115). -/
def forgetRegion (n : Nat) (m : Mat) (s : State) : State :=
  { s with banks := (List.range m.a.lines).foldl (fun b i =>
      let p := bankAt n m.bank (512 * i)
      forget b p (p + 4 * m.b.lines)) s.banks }

/-- Run a checked MATMUL. -/
def runMatmul (n : Nat) (m : Mat) (s : State) : Got Unit × State :=
  match matmulOuts n m (contextOf s n) s with
  | (.fault c, s1) => (.fault c, forgetRegion n m (countMatmul n m s1))
  | (.wait, s1) => (.wait, s1)
  | (.ok (r, rows, cols), s1) =>
    let key := 2 * n + m.bank
    let s2 := { s1 with
      rowMasks := tabModify 0 s1.rowMasks key (fun o => setMask o m.a.lines m.init rows)
      colMasks := tabModify 0 s1.colMasks key (fun o => setMask o m.b.lines m.init cols) }
    match writeBankElems s2 r with
    | (s3, true) => (.fault 0x02020801, forgetRegion n m (countMatmul n m s3))
    | (s3, false) => (.ok (), countMatmul n m s3)

/-- Bytes of a stored row of `count` elements. -/
def packedBytes (fmt count : Nat) : Nat := if fmt = 1 then (count + 1) / 2 else count * fmtBytes fmt

/-- The byte interval of `rows` rows of `bytes` bytes, `stride` apart, as a footprint. -/
def rowsFoot (n addr rows bytes : Nat) (stride : Int) : List Interval :=
  let far := ((rows : Int) - 1) * stride
  storePart n ((addr : Int) + min 0 far) ((addr : Int) + max 0 far + (bytes : Int) - 1) false

/-- The footprint of an operand with its scales. -/
def Operand.foot (n : Nat) (x : Operand) : List Interval :=
  let (rows, len) := if x.transposed then (x.depth, x.lines) else (x.lines, x.depth)
  rowsFoot n x.addr rows (packedBytes x.fmt len) x.stride ++
    (if x.scaled then rowsFoot n x.scaleAddr x.lines ((x.depth + 31) / 32) x.scaleStride else [])

/-- What the engine reads of an operand: its stored rows, then its scales (R99). -/
def Operand.runs (x : Operand) : List Run :=
  let (rows, len) := if x.transposed then (x.depth, x.lines) else (x.lines, x.depth)
  (List.range rows).map (fun i => ⟨wrapAddr ((x.addr : Int) + (i : Int) * x.stride), packedBytes x.fmt len⟩) ++
    (if x.scaled then (List.range x.lines).map (fun i => ⟨x.scaleAt i 0, (x.depth + 31) / 32⟩) else [])

/-- The issue of a checked MATMUL. -/
def matmulIssue (n : Nat) (m : Mat) : Issue :=
  ⟨0, 0, ⟨1 + m.bank, 0, 65535, true⟩ :: Operand.foot n m.a ++ Operand.foot n m.b, [], [], m.a.runs ++ m.b.runs, [],
    (List.range m.a.lines).map (fun i => ⟨bankAt n m.bank (512 * i), 4 * m.b.lines⟩), runMatmul n m⟩

/-- Check a MATMUL descriptor. -/
def prepMatmul (n d : Nat) (s : State) : Got Issue × State :=
  let m := matOf (tileOf s n) d
  if matReserved d then (.fault (malformed 0x02), s)
  else
    match checkMatmul (contextOf s n).profile m with
    | some c => (.fault c, s)
    | none => (.ok (matmulIssue n m), s)

/-- MATMUL: C += A × B in an accumulator bank (R98 to R102). -/
def execMatmul (tile : Nat) (s : State) : Host.Outcome State Fault Refusal :=
  done s (runDescriptor tile (opIs 0x10) (prepMatmul tile) s)

end Sys2Proof.Machine
end

