-- ==== Sys2Proof/Machine/Requests.lean ====
section
/-! DEFINITION. The commands that carry dictionary requests: one meaning per row, each a request that the one server of Server.lean
answers; relayed requests and replies (R331). A row for the write of one object takes a request for that object only; any other request
is not that row's command, and changes nothing. -/

namespace Sys2Proof.Machine

open Sys2Proof

/-- STACK_RESET_WRITE: a write of stack_reset (R344). -/
def execStackResetWrite (r : Request) (s : State) : Host.Outcome State Fault Refusal := serveWrite 0x181003 Findings.nothing r s

/-- PACE_CLEAR: a write of pace_clear (R33). -/
def execPaceClear (r : Request) (s : State) : Host.Outcome State Fault Refusal := serveWrite 0x280005 Findings.nothing r s

/-- ENERGY_CLEAR: a write of energy_clear (R323). -/
def execEnergyClear (r : Request) (s : State) : Host.Outcome State Fault Refusal := serveWrite 0x200203 Findings.nothing r s

/-- THROTTLE_CLEAR: a write of throttle_clear (R323). -/
def execThrottleClear (r : Request) (s : State) : Host.Outcome State Fault Refusal := serveWrite 0x200303 Findings.nothing r s

/-- TEMP_CLEAR: a write of temp_clear (R323). -/
def execTempClear (r : Request) (s : State) : Host.Outcome State Fault Refusal := serveWrite 0x200404 Findings.nothing r s

/-- TILE_COUNTERS_CLEAR: a write of tile_counters_clear (R117). -/
def execTileCountersClear (r : Request) (s : State) : Host.Outcome State Fault Refusal := serveWrite 0x400401 Findings.nothing r s

/-- CRACKER_COUNTERS_CLEAR: a write of cracker_counters_clear (R192). -/
def execCrackerCountersClear (r : Request) (s : State) : Host.Outcome State Fault Refusal := serveWrite 0x380309 Findings.nothing r s

/-- ABORT_STEP: a write of abort_step (R143). -/
def execAbortStep (r : Request) (s : State) : Host.Outcome State Fault Refusal := serveWrite 0x481102 Findings.nothing r s

/-- SILENT_CLEAR: a write of silent_clear (R144). -/
def execSilentClear (r : Request) (s : State) : Host.Outcome State Fault Refusal := serveWrite 0x481305 Findings.nothing r s

/-- PORT_MODE: a write of port_mode (R218). -/
def execPortMode (r : Request) (s : State) : Host.Outcome State Fault Refusal := serveWrite 0x500001 Findings.nothing r s

/-- EPOCH_WRITE: a write of epoch_write, whole in one request or as a part of a batch (R234). -/
def execEpochWrite (r : Request) (s : State) : Host.Outcome State Fault Refusal := serveWrite 0x500203 Findings.nothing r s

/-- FABRIC_COUNTERS_CLEAR: a write of fabric_counters_clear (R251). -/
def execFabricCountersClear (r : Request) (s : State) : Host.Outcome State Fault Refusal := serveWrite 0x500508 Findings.nothing r s

/-- FE_MODE: a write of fe_mode (R252). -/
def execFeMode (r : Request) (s : State) : Host.Outcome State Fault Refusal := serveWrite 0x580001 Findings.nothing r s

/-- FE_PORT_RESET: a write of fe_port_reset (R273). -/
def execFePortReset (r : Request) (s : State) : Host.Outcome State Fault Refusal := serveWrite 0x580007 Findings.nothing r s

/-- CONN_ENABLE: a write of conn_control, whose action field says enable (R254). -/
def execConnEnable (r : Request) (s : State) : Host.Outcome State Fault Refusal := serveWrite 0x580203 Findings.nothing r s

/-- CONN_RESET: a write of conn_control, whose action field says reset (R254). -/
def execConnReset (r : Request) (s : State) : Host.Outcome State Fault Refusal := serveWrite 0x580203 Findings.nothing r s

/-- QUEUE_ENABLE: a write of queue_control, whose action field says enable (R261). -/
def execQueueEnable (r : Request) (s : State) : Host.Outcome State Fault Refusal := serveWrite 0x581002 Findings.nothing r s

/-- QUEUE_DISABLE: a write of queue_control, whose action field says disable (R261). -/
def execQueueDisable (r : Request) (s : State) : Host.Outcome State Fault Refusal := serveWrite 0x581002 Findings.nothing r s

/-- FE_COUNTERS_CLEAR: a write of fe_counters_clear (R274). -/
def execFeCountersClear (r : Request) (s : State) : Host.Outcome State Fault Refusal := serveWrite 0x58120C Findings.nothing r s

/-- BUDDY: a write of buddy (R282). -/
def execBuddy (r : Request) (s : State) : Host.Outcome State Fault Refusal := serveWrite 0x600001 Findings.nothing r s

/-- SNAPSHOT_BASE: a write of snapshot_base (R285). -/
def execSnapshotBase (r : Request) (s : State) : Host.Outcome State Fault Refusal := serveWrite 0x600009 Findings.nothing r s

/-- RECOVERY_WRITE: a write of recovery_write, whole in one request or as a part of a batch (R290). -/
def execRecoveryWrite (r : Request) (s : State) : Host.Outcome State Fault Refusal := serveWrite 0x600201 Findings.nothing r s

/-- RESTORE_SUBMIT: a write of restore_submit (R295). -/
def execRestoreSubmit (r : Request) (s : State) : Host.Outcome State Fault Refusal := serveWrite 0x600205 Findings.nothing r s

/-- RESUME: a write of resume (R299). -/
def execResume (r : Request) (s : State) : Host.Outcome State Fault Refusal := serveWrite 0x600204 Findings.nothing r s

/-- EVENT_ACK: a write of event_ack (R338). -/
def execEventAck (r : Request) (s : State) : Host.Outcome State Fault Refusal := serveWrite 0x110105 Findings.nothing r s

/-- SNAPSHOT_TAKE: a write of snapshot_take (R340). -/
def execSnapshotTake (r : Request) (s : State) : Host.Outcome State Fault Refusal := serveWrite 0x680001 Findings.nothing r s

/-- MEM_COUNTERS_CLEAR: a write of mem_counters_clear (R171). -/
def execMemCountersClear (r : Request) (s : State) : Host.Outcome State Fault Refusal := serveWrite 0x300406 Findings.nothing r s

/-- PROT_COUNTERS_CLEAR: a write of prot_counters_clear (R217). -/
def execProtCountersClear (r : Request) (s : State) : Host.Outcome State Fault Refusal := serveWrite 0x300508 Findings.nothing r s

/-- FLOOR_COMMIT: a write of floor_commit (R349). -/
def execFloorCommit (r : Request) (s : State) : Host.Outcome State Fault Refusal := serveWrite 0x180005 Findings.nothing r s

/-- UPLOAD_TARGET: a write of upload_target (R351). -/
def execUploadTarget (r : Request) (s : State) : Host.Outcome State Fault Refusal := serveWrite 0x180201 Findings.nothing r s

/-- UPLOAD_DATA: a write of upload_data (R351). -/
def execUploadData (r : Request) (s : State) : Host.Outcome State Fault Refusal := serveWrite 0x180202 Findings.nothing r s

/-- UPLOAD_VERIFY: a write of upload_verify (R351). -/
def execUploadVerify (r : Request) (s : State) : Host.Outcome State Fault Refusal := serveWrite 0x180203 Findings.nothing r s

/-- ATTEST_REQUEST: a write of attest_request (R359). -/
def execAttestRequest (r : Request) (s : State) : Host.Outcome State Fault Refusal := serveWrite 0x700201 Findings.nothing r s

/-- TEST_STATE_ENTER: a write of test_state, with a value that enters a test state (R360). -/
def execTestStateEnter (r : Request) (s : State) : Host.Outcome State Fault Refusal := serveWrite 0x701001 Findings.nothing r s

/-- TEST_STATE_EXIT: a write of test_state, with the value that leaves it (R360). -/
def execTestStateExit (r : Request) (s : State) : Host.Outcome State Fault Refusal := serveWrite 0x701001 Findings.nothing r s

/-- MARGIN_SWEEP: a write of margin_request (R361). -/
def execMarginSweep (r : Request) (s : State) : Host.Outcome State Fault Refusal := serveWrite 0x701002 Findings.nothing r s

/-- BIST_RERUN: a write of margin_request in test state 2, with what the tests find (R360). -/
def execBistRerun (r : Request) (found : BistFinding) (hbm : HbmFinding) (s : State) : Host.Outcome State Fault Refusal :=
  serveWrite 0x701002 (found, hbm) r s

/-- READ (R327, R328). -/
def execRead (r : Request) (s : State) : Host.Outcome State Fault Refusal := serve Findings.nothing 1 r s

/-- WRITE of any object (R326, R328). -/
def execWrite (r : Request) (s : State) : Host.Outcome State Fault Refusal := serve Findings.nothing 2 r s

/-- REVERT (R337). -/
def execRevert (r : Request) (s : State) : Host.Outcome State Fault Refusal := serve Findings.nothing 3 r s

/-- SEAL (R330). -/
def execSeal (r : Request) (s : State) : Host.Outcome State Fault Refusal := serve Findings.nothing 4 r s

/-- ABANDON (R330). -/
def execAbandon (r : Request) (s : State) : Host.Outcome State Fault Refusal := serve Findings.nothing 5 r s

/-- DESCRIBE (R327). -/
def execDescribe (r : Request) (s : State) : Host.Outcome State Fault Refusal := serve Findings.nothing 6 r s

/-- ENUMERATE (R327). -/
def execEnumerate (r : Request) (s : State) : Host.Outcome State Fault Refusal := serve Findings.nothing 7 r s

/-- HELLO: the SESSION operation; its data byte 0 holds the subop, 1 (R356). -/
def execHello (r : Request) (s : State) : Host.Outcome State Fault Refusal := serve Findings.nothing 8 r s

/-- PROVE: the SESSION operation, subop 2 (R356). -/
def execProve (r : Request) (s : State) : Host.Outcome State Fault Refusal := serve Findings.nothing 8 r s

/-- CLOSE: the SESSION operation, subop 3 (R356). -/
def execClose (r : Request) (s : State) : Host.Outcome State Fault Refusal := serve Findings.nothing 8 r s

/-! ## Relay (R331) -/

/-- A relayed request is answered as the module's own and the reply returned as subtype 2. -/
def answerRelayed (s : State) (p : Packet) : State × Option Nat :=
  let (op, r) := requestOf (p.payload.drop 8)
  if natOfBytes (p.payload.take 8) ≠ 1 ∨ p.payload.length < 72 ∨ discarded op r = true then (s, none)
  else
    let a := answerOwn Findings.nothing s op r
    (sendPacket a.state (controlPacket a.state p.src p.comm 2 (replyMessage a.reply)), a.reset)

/-- RELAYED_REQUEST: a CONTROL packet of subtype 1 (R331). -/
def execRelayedRequest (p : Packet) (s : State) : Host.Outcome State Fault Refusal :=
  if huskStopped s then .next s
  else match takePacket s 0xC p with
  | none => done s (dropPacket s p)
  | some t => finishRequest s (answerRelayed t p).1 (answerRelayed t p).2

/-- The reply of a relayed request is in: its client receives it. -/
def returnReply (s : State) (y : Reply) : State :=
  match s.dict.relayed.find? (fun x => decide (x.requestId = y.requestId ∧ x.op = y.op ∧ (x.session = y.session ∨ x.op = 8))) with
  | none => s
  | some x => emit (s.onDict (fun d => { d with relayed := d.relayed.erase x })) (.reply y)

/-- RELAYED_REPLY: a CONTROL packet of subtype 2 (R331). -/
def execRelayedReply (p : Packet) (s : State) : Host.Outcome State Fault Refusal :=
  withPacket s 0xC p (fun t =>
    if natOfBytes (p.payload.take 8) ≠ 2 ∨ p.payload.length < 72 then t else returnReply t (replyOf (p.payload.drop 8)))

/-- RELAY_TIMEOUT: no reply within 1 ms; the request is refused (R331). -/
def execRelayTimeout (requestId : BitVec 32) (s : State) : Host.Outcome State Fault Refusal :=
  match s.dict.relayed.find? (fun x => decide (x.requestId = requestId)) with
  | none => .next s
  | some x => done s (emit (s.onDict (fun d => { d with relayed := d.relayed.erase x })) (.reply x))

end Sys2Proof.Machine
end

