-- ==== Sys2Proof/Machine/Scrub.lean ====
section
/-! DEFINITION. The patrol scrubber (R208, R209) and the row repairs that it asks for (R276). -/

namespace Sys2Proof.Machine

open Sys2Proof

/-- Addresses of the words of pinned partition number `i` of a list, as a word of the concatenation of all: the address of word
`n`. -/
def pinnedWord : List Pinned → Nat → Option Nat
  | [], _ => none
  | p :: l, n => if n < p.bytes / 8 then some (pinnedBase + p.start + 8 * n) else pinnedWord l (n - p.bytes / 8)

/-- The lines that the slices hold, in the order of their sets. -/
def heldLinesOf (s : State) : List Nat := s.cache.sets.flatMap (fun e => e.2.map (fun l => l.line))

/-- What a scrub read reads: a word at an address, or one copy of a word of Husk state storage. -/
inductive ScrubWord where
  | memory (a : Nat)
  | husk (copy : Nat)
  deriving DecidableEq, Repr

/-- Words of Husk state storage: at least one (Table 8.2; their number is the unit's, assumption 78). -/
def huskCount : Nat := Config.huskWords + 1

/-- Word `n` of the pass over Husk's stores: both copies of every word of Husk state storage, then the doorbell pages, the status
mirror and the range reserved to Hazel, which count with it (R217). -/
def huskWord (n : Nat) : Option ScrubWord :=
  let m := n - 2 * huskCount
  if n < 2 * huskCount then some (.husk n)
  else if m < 0x8000 then some (.memory (doorbellBase + 8 * m))
  else if m < 0x208000 then some (.memory (mirrorBase + 8 * (m - 0x8000)))
  else if hazelBase + 8 * (m - 0x208000) < 2 ^ 48 then some (.memory (hazelBase + 8 * (m - 0x208000)))
  else none

/-- The address of word `n` of the pass of a store that is addressed whole (R208; the order within a pass is the model's): tile
stores by logical tile; pinned lines, then the lines held in slices; HBM. -/
def scrubAddress (s : State) (store n : Nat) : Option Nat :=
  match store with
  | 0 => if n / 0x30000 < logicalTiles s then some (tileBase + n / 0x30000 * 0x200000 + n % 0x30000 * 8) else none
  | 2 =>
    match pinnedWord (pinnedNow s) n with
    | some a => some a
    | none =>
      let m := n - (pinnedNow s).foldl (fun a p => a + p.bytes / 8) 0
      ((heldLinesOf s)[m / 8]?).map (fun l => 64 * l + m % 8 * 8)
  | 3 => if 8 * n < hbmEnd then some (8 * n) else none
  | _ => none

/-- Word `n` of a store's pass. -/
def scrubTarget (s : State) (store n : Nat) : Option ScrubWord := if store = 4 then huskWord n else (scrubAddress s store n).map .memory

/-- The number of a store in the scrub log (R209). -/
def scrubStore (store : Nat) : Nat := if store = 0 then 0 else store - 1

/-- Write an entry of the scrub log: address, store, kind, step (R209). -/
def scrubNote (s : State) (a store kind : Nat) : State :=
  s.onProt (fun p => { p with
    scrubLog := tabInsert p.scrubLog p.scrubNext (a, scrubStore store, kind, currentStep s)
    scrubNext := (p.scrubNext + 1) % 64 })

/-- A word of an HBM row was corrected by the scrubber: repaired when the pass before corrected one too (R276). -/
def scrubRow (s : State) (a store : Nat) : State :=
  if store ≠ 3 then s
  else
    let k := bankKey s a * 32768 + rowNumber s a
    let s1 := if s.prot.scrubRows.contains (2 * k) then repairRowAt s a else s
    s1.onProt (fun p => { p with scrubRows := setAdd p.scrubRows (2 * k + 1) })

/-- What a scrub read of one word of memory does (R208). -/
def scrubMemory (s0 : State) (a store : Nat) : State :=
  let s := lookupTags s0 a 8
  let w := a / 8
  let d := heldWord s.mem s.free w
  let corrected := fun (x : Word64) =>
    scrubRow (scrubNote { s.onProt (fun p => { p with corrected := countStore p.corrected store }) with
      mem := putWord s.mem w x false } a store 1) a store
  let uncorrectable := s.onProt (fun p => { p with uncorrectable := countStore p.uncorrectable store })
  let detected := s.onProt (fun p => { p with poisoned := countStore p.poisoned store })
  if isDetect s a then
    match decodeSyndrome (heldSyndrome s.mem s.free w) with
    | .clean => s
    | .poison => scrubNote detected a store 3
    | _ => scrubNote detected a store 4
  else
    match decodeSyndrome (heldSyndrome s.mem s.free w) with
    | .clean => s
    | .dataBit i => corrected (d ^^^ BitVec.ofNat 64 (2 ^ i))
    | .checkBit _ => corrected d
    | .poison => scrubNote uncorrectable a store 3
    | .uncorrectable => if inSavedState s a then holdLine uncorrectable a else scrubNote uncorrectable a store 2

/-- What a scrub read of one copy of a word of Husk state storage does: a single-bit error is corrected, another error counted and
logged (R208). -/
def scrubHusk (s : State) (copy : Nat) : State :=
  let pair := tabGet ((0 : Byte), (0 : Byte)) s.prot.huskSynd (copy / 2)
  let fixed := if copy % 2 = 0 then ((0 : Byte), pair.2) else (pair.1, (0 : Byte))
  let corrected := scrubNote (s.onProt (fun p => { p with
    corrected := countStore p.corrected 4, huskSynd := tabSet ((0 : Byte), (0 : Byte)) p.huskSynd (copy / 2) fixed })) (Config.huskAddress copy) 4 1
  let uncorrectable := s.onProt (fun p => { p with uncorrectable := countStore p.uncorrectable 4 })
  match decodeSyndrome (if copy % 2 = 0 then pair.1 else pair.2) with
  | .clean => s
  | .dataBit _ => corrected
  | .checkBit _ => corrected
  | .poison => scrubNote uncorrectable (Config.huskAddress copy) 4 3
  | .uncorrectable => scrubNote uncorrectable (Config.huskAddress copy) 4 2

/-- What a scrub read of one word does (R208). -/
def scrubWord (s : State) (x : ScrubWord) (store : Nat) : State :=
  match x with
  | .memory a => scrubMemory s a store
  | .husk copy => scrubHusk s copy

/-- The interval object of a store's pass is 0: its scrubbing is off (Table 8.9). -/
def scrubOff (s : State) (store : Nat) : Bool :=
  decide (store = 1 ∨ 5 ≤ store) || (if store = 3 then decide (cfg s 0x300601 = 0) else decide (cfg s 0x300602 = 0))

/-- The end of a pass of a store: counted, and the rows corrected in it kept for the next (R276). -/
def endScrubPass (s : State) (store : Nat) : State :=
  s.onProt (fun p => { p with
    scrubPasses := tabCount p.scrubPasses store 1
    scrubAt := tabErase p.scrubAt store
    scrubRows := if store = 3 then p.scrubRows.filterMap (fun k => if k % 2 = 1 then some (k - 1) else none) else p.scrubRows })

/-- PATROL_SCRUB: the scrubber reads the next word of a store (R208). -/
def execPatrolScrub (store : Nat) (s : State) : Host.Outcome State Fault Refusal :=
  if scrubOff s store then .next s
  else
    let n := tabGet 0 s.prot.scrubAt store
    match scrubTarget s store n with
    | none => done s (endScrubPass s store)
    | some a =>
      let s1 := (scrubWord s a store).onProt (fun p => { p with scrubAt := tabInsert p.scrubAt store (n + 1) })
      done s (if (scrubTarget s1 store (n + 1)).isNone then endScrubPass s1 store else s1)

end Sys2Proof.Machine
end

