-- ==== Sys2Proof/Machine/Stalls.lean ====
section
/-! DEFINITION. The tick of the reference period: stall causes (R169, R170), phase attribution (R145), idle rows (R314), and the times
counted in reference periods. -/

namespace Sys2Proof.Machine

open Sys2Proof

/-- A cache request of a tile missed and has not returned. -/
def tileMissing (s : State) (n : Nat) : Bool :=
  s.cache.fills.any (fun f => decide (f.who = .pip n)) || s.cache.waiting.any (fun w => decide (w.1 = .pip n))

/-- The cause for which the sequencer of a tile is stalled, the first that applies in the order of R170. -/
def sequencerCause (s : State) (n : Nat) (t : Tile) : Option Nat :=
  if t.program = none then none
  else if t.trap ≠ none ∨ t.hold = some 10 then some 10
  else if gateOpen s n = false then some 9
  else match t.hold with
    | some 1 => if tileMissing s n then some 2 else some 1
    | h => h

/-- An engine's item waits for an error correction: for a line held for repair, or on a halted channel (Table 6.13, cause 10). -/
def itemHeld (s : State) (t : Tile) (d : Issued) : Bool :=
  t.trap.isSome || (d.engine == 2 && (tabFind t.halts d.channel).isSome) ||
    d.waits.any (fun r => s.prot.heldLines.any (fun h => decide (h.1 = r.lo / 64)))

/-- The cause for which an engine of a tile is stalled (0 matrix, 1 vector, 2 stream unit): what its oldest unfinished item waits
for, the first that applies in the order of R170. An item that waits for nothing is being executed. -/
def engineCause (s : State) (n engine : Nat) (t : Tile) : Option Nat :=
  match t.issued.find? (fun d => d.engine == engine) with
  | none => none
  | some d =>
    if itemHeld s t d then some 10
    else if d.reads = [] ∧ d.waits = [] ∧ d.writes ≠ [] then some 5
    else if d.waits.any (fun r => r.index) || (d.reads.head?.map (fun r => r.index)).getD false then some 3
    else if d.waits ≠ [] ∨ (d.reads ≠ [] ∧ tileMissing s n) then some 2
    else if d.reads ≠ [] then some 1
    else none

/-- Add a period to a cause of an engine of a tile. -/
def countStall (t : Tile) (engine : Nat) (cause : Option Nat) : Tile :=
  match cause with
  | some c => { t with stalls := tabCount t.stalls (11 * engine + c) 1 }
  | none => t

/-- A tile runs a program whose entry carries a phase tag (Table 10.8). -/
def phaseRuns (s : State) (phase : Nat) : Bool :=
  s.tiles.any (fun e => match e.2.program with
    | some p => match entryAt s p.queue p.seq with
      | some x => x.field 24 2 == phase
      | none => false
    | none => false)

/-- The sweep is running: begun and not every listed row written (Table 5.7). -/
def sweepRuns (s : State) : Bool :=
  s.train.sweepBegun && (validGroups s.dict.values).any (fun g => decide (4096 ≤ g.number) && !sweepDone s g)

/-- A built-in check or update is under way: a reduced gradient still to be checked or, of a dense group, to be applied (R128 to
R130). -/
def updateRuns (s : State) : Bool :=
  (validGroups s.dict.values).any (fun g =>
    let w := workOf s g.number
    w.reduced && (!w.checked || (decide (g.number < 4096) && !w.updated)))

/-- A contribution of the step has been issued and its result has not returned. -/
def reductionWaits (s : State) : Bool :=
  s.train.work.any (fun w => w.2.issued && !(if w.1 < 4096 then w.2.reduced
    else match bindingOfGroup s w.1 with
      | some b => (bindingOf s b).exchanged
      | none => true))

/-- Acorn is saving committed state. -/
def acornSaves (s : State) : Bool :=
  decide (s.resil.gate ≠ [] ∨ s.resil.transfer ≠ []) || s.front.exports.any (fun x => x.entry.isNone)

/-- The phase of the present instant (Table 5.7). -/
def phaseNow (s : State) : Nat :=
  if phaseRuns s 2 then 0 else if phaseRuns s 1 then 1 else if updateRuns s || sweepRuns s then 2 else if reductionWaits s then 3
  else if acornSaves s then 4 else 5

/-- Acorn's gate holds a READY, the staging cut, or a DELTA copy, for which the boundary waits (R286). -/
def gateHolds (s : State) : Bool :=
  s.fabric.colls.any (fun c => decide (c.step = currentStep s ∧ c.readySent = false) && memberSpecific s c.key.group &&
    (workOf s c.key.group).issued && contribHeld s c.key.group c.step) ||
  (match carrierNow s with
    | some g => !s.train.cut && cutReady s g && !cutGateOpen s
    | none => false) ||
  (s.train.decision.isSome && deltaDue s (currentStep s) && deltaExporting s)

/-- The intake of a Cracker channel is held by a limit of R183. -/
def quotaHolds (s : State) (c : Nat) (x : Channel) : Bool := (firstWindow x.batches).any (fun b => !batchFits s c b.2)

/-- Every tile of a grid row is idle (R314). -/
def rowIsIdle (s : State) (y : Nat) : Bool :=
  s.tiles.all (fun e => decide (s.stack.tileMap.getD e.1 0 / 24 ≠ y ∨ e.2.state = 0))

/-- STALL_SAMPLE: one reference period passes; every engine's stall is counted once (R170). -/
def execStallSample (s : State) : Host.Outcome State Fault Refusal :=
  let s1 := s.onPower (fun p => { p with
    refPeriods := p.refPeriods + 1
    rowIdle := (List.range 16).foldl (fun (t : Tab Nat) y => tabSet 0 t y (if rowIsIdle s y then min 1563 (tabGet 0 p.rowIdle y + 1) else 0))
      p.rowIdle })
  let tiles := s.tiles.map (fun (e : Nat × Tile) => (e.1,
    countStall ((List.range 3).foldl (fun (t : Tile) (k : Nat) => countStall t k (engineCause s e.1 k e.2)) e.2) 3 (sequencerCause s e.1 e.2)))
  let s2 := { s1 with tiles := tiles }
  let s3 := s2.onTrain (fun t => { t with phasePeriods := tabCount t.phasePeriods (phaseNow s) 1 })
  let s4 := if gateHolds s then s3.onResil (fun r => { r with gateWait := r.gateWait + 1 }) else s3
  let s5 := s4.onCracker (fun k => { k with
    channels := k.channels.map (fun (e : Nat × Channel) =>
      (e.1, if quotaHolds s e.1 e.2 then { e.2 with quotaHeld := e.2.quotaHeld + 1 } else e.2)) })
  done s (s5.onFront (fun f => { f with flushWait := f.flushWait + (f.conns.foldl (fun (a : Nat) (c : Nat × Conn) => a + c.2.held.length) 0) }))

end Sys2Proof.Machine
end

