-- ==== Sys2Proof/Machine/Streams.lean ====
section
/-! DEFINITION. The stream unit (R97, R162 to R167): checks of a stream descriptor, run-ahead, LOAD, STORE, GATHER, SCATTER and FILL. -/

namespace Sys2Proof.Machine

open Sys2Proof

/-- A code of Table 6.15 for streams. -/
def streamCode (d : Nat) : Code := codeOf 4 4 (0x0100 + d)

/-- A checked stream: kind, index width in bytes, run-ahead lines, far, near and index tensors, pattern. -/
structure Stream where
  kind : Nat
  indexBytes : Nat
  ahead : Nat
  far : Tensor
  near : Tensor
  index : Tensor
  pattern : Nat
  deriving DecidableEq, Repr

/-- A tensor of five extents of 1 at address 0, for an operand that a kind does not take. -/
def noTensor : Tensor := ⟨0, 0, false, 0, [1, 1, 1, 1, 1], [0, 0, 0, 0, 0]⟩

/-- The tensor of a stream's pointer; `none` where the pointer is not needed, absent, or its descriptor is malformed. -/
def streamTensor (n : Nat) (t : Tile) (pointer : Nat) (s : State) : Got (Option Tensor) × State :=
  Got.andThen (fetch64 n (baseOffset t (bitsAt pointer 0 4) (bitsAt pointer 4 48)) s) (fun v s1 =>
    match tensorOf t v false with
    | .ok x => (.ok (if x.acc then none else some x), s1)
    | .error _ => (.ok none, s1))

/-- A kind takes the near tensor. -/
def takesNear (k : Nat) : Bool := decide (k ≠ 5)

/-- A kind takes the index descriptor. -/
def takesIndex (k : Nat) : Bool := decide (k = 3 ∨ k = 4)

/-- The code of stream fields that break Table 6.9 before any tensor is read; none when they are right. -/
def checkFields (v : Nat) : Option Code :=
  let k := bitsAt v 0 8
  let ptr := fun (b : Nat) (used : Bool) => used && !bitAt v (b + 63)
  if k = 0 ∨ 5 < k then some (streamCode 0x01)
  else if bitsAt v 9 7 ≠ 0 ∨ bitsAt v 28 36 ≠ 0 ∨ bitsAt v 320 192 ≠ 0 ∨ bitsAt v 116 11 ≠ 0 ∨
      (takesNear k ∧ bitsAt v 180 11 ≠ 0) ∨ (takesIndex k ∧ bitsAt v 244 11 ≠ 0) then some (streamCode 0x02)
  else if ptr 64 true || ptr 128 (takesNear k) || ptr 192 (takesIndex k) then some (streamCode 0x07)
  else none

/-- The tensor lies wholly within the tile's own tile-store window. -/
def ownWindow (n : Nat) (x : Tensor) : Bool :=
  decide ((ownBase n : Int) ≤ x.span.1 ∧ x.span.2 < (ownBase n : Int) + 0x180000)

/-- The code of a stream whose tensors break R163 to R166; none when they are right. -/
def checkTensors (n : Nat) (x : Stream) : Option Code :=
  let fmts := x.far.fmt :: (if takesNear x.kind then [x.near.fmt] else [])
  if takesIndex x.kind ∧ (x.far.ext.drop 2 ≠ [1, 1, 1] ∨ x.index.fmt ≠ 0 ∨ x.index.extent 4 ≠ 1) then some (streamCode 0x03)
  else if fmts.any (fun f => decide (9 ≤ f)) then some 0x05040102
  else if fmts.any (fun f => decide (f ≤ 1 ∨ f ≠ x.far.fmt)) then some (streamCode 0x04)
  else if (x.kind = 1 ∨ x.kind = 2) ∧ x.far.ext ≠ x.near.ext then some (streamCode 0x04)
  else if takesIndex x.kind ∧ (x.near.extent 0 ≠ x.far.extent 0 ∨ x.near.ext.drop 1 ≠ x.index.ext.take 4) then some (streamCode 0x04)
  else if takesNear x.kind ∧ ownWindow n x.near = false then some (streamCode 0x05)
  else none

/-- Every element address of a stream is aligned (R104). -/
def streamAligned (x : Stream) : Bool :=
  x.far.aligned && (!takesNear x.kind || x.near.aligned) &&
    (!takesIndex x.kind || (decide (x.index.addr % x.indexBytes = 0) &&
      (List.zipWith (fun (e : Nat) (k : Int) => decide (e ≤ 1 ∨ k % (x.indexBytes : Int) = 0)) x.index.ext x.index.stride).all id))

/-! ## Moving elements -/

/-- Where the stream stands after some moves: how they ended, and the bytes gathered for writing. -/
structure Moved where
  result : Got Unit
  bytes : Bundle

/-- Move elements of `es` bytes: from an address, or zero bits, to an address. -/
def moveElems (n es : Nat) : List (Option Nat × Nat) → Bundle → State → Moved × State
  | [], b, s => (⟨.ok (), b⟩, s)
  | (none, d) :: l, b, s => moveElems n es l (bundlePut b d (bytesOfNat es 0) false) s
  | (some a, d) :: l, b, s =>
    match readFor (.pip n) 4 a es s with
    | (.ok r, s1) => moveElems n es l (bundlePut b d r.bytes r.poisoned) s1
    | (.fault c, s1) => (⟨.fault c, b⟩, s1)
    | (.wait, s1) => (⟨.wait, b⟩, s1)

/-- The moves of one row under its index: far row to near row, or back for SCATTER; none for an index out of range. -/
def indexedRow (x : Stream) (c : List Nat) (i : Nat) : Option (List (Option Nat × Nat)) :=
  let es := List.range (x.far.extent 0)
  let far := fun e => x.far.at [e, i, 0, 0, 0]
  let near := fun e => x.near.at (e :: c)
  if i = 256 ^ x.indexBytes - 1 then some (if x.kind = 3 then es.map (fun e => (none, near e)) else [])
  else if x.far.extent 1 ≤ i then none
  else some (es.map (fun e => if x.kind = 3 then (some (far e), near e) else (some (near e), far e)))

/-- The rows of a GATHER or SCATTER in iteration order (R165). A poisoned index is a fetch of poison. -/
def moveRows (n : Nat) (x : Stream) : List (List Nat) → Bundle → State → Moved × State
  | [], b, s => (⟨.ok (), b⟩, s)
  | c :: l, b, s =>
    let a := wrapAddr ((x.index.addr : Int) + strideSum 0 c x.index.stride)
    match readFor (.pip n) 4 a x.indexBytes s with
    | (.fault e, s1) => (⟨.fault e, b⟩, s1)
    | (.wait, s1) => (⟨.wait, b⟩, s1)
    | (.ok r, s1) =>
      if r.poisoned then (⟨.fault 0x02040802, b⟩, s1)
      else
        match indexedRow x c r.nat with
        | none => (⟨.fault (streamCode 0x06), b⟩, s1)
        | some m =>
          match moveElems n (elemBytes x.far.fmt) m b s1 with
          | (⟨.ok _, b1⟩, s2) => moveRows n x l b1 s2
          | r2 => r2

/-- The moves of a stream. -/
def moveStream (n : Nat) (x : Stream) (s : State) : Moved × State :=
  let es := elemBytes x.far.fmt
  match x.kind with
  | 1 => moveElems n es ((coords x.far.ext).map (fun c => (some (x.far.at c), x.near.at c))) [] s
  | 2 => moveElems n es ((coords x.far.ext).map (fun c => (some (x.near.at c), x.far.at c))) [] s
  | 5 => (⟨.ok (), (coords x.far.ext).foldl (fun b c => bundlePut b (x.far.at c) (bytesOfNat es x.pattern) false) []⟩, s)
  | _ => moveRows n x (coords (x.index.ext.take 4)) [] s

/-! ## Run-ahead (R162) -/

/-- Lines in order, each once where it repeats. -/
def lineRuns : List Nat → List Nat
  | [] => []
  | a :: l =>
    match lineRuns l with
    | b :: r => if a / 64 = b then b :: r else (a / 64) :: b :: r
    | [] => [a / 64]

/-- The far addresses that a LOAD or GATHER reads, in element order; those of a GATHER follow its indices as they arrive, and end
where one halts the stream. -/
def farReads (n : Nat) (x : Stream) (s : State) : List Nat :=
  match x.kind with
  | 1 => (coords x.far.ext).map x.far.at
  | 3 => rowReads n x s (coords (x.index.ext.take 4))
  | _ => []
where
  /-- The far addresses of rows in turn, up to an index that halts the stream. -/
  rowReads (n : Nat) (x : Stream) (s : State) : List (List Nat) → List Nat
    | [] => []
    | c :: l =>
      let a := wrapAddr ((x.index.addr : Int) + strideSum 0 c x.index.stride)
      if accessDetail s (.pip n) false a x.indexBytes ≠ none then []
      else
        let b := (readBytes s a x.indexBytes).1
        if b.error ∨ b.held ∨ b.poisoned then []
        else match indexedRow x c b.nat with
          | some m => m.filterMap (fun e => e.1) ++ rowReads n x s l
          | none => []

/-- One run-ahead request: dropped where the access is forbidden, else a fill of a line that its home slice does not hold. -/
def aheadLine (n line : Nat) (s : State) : State :=
  if (accessDetail s (.pip n) false (64 * line) 64).isSome then s.onCache (fun c => { c with runaheadDropped := c.runaheadDropped + 1 })
  else runAheadFill s (.pip n) line 0xFF

/-- The run-ahead of a LOAD or GATHER whose far side lies in the HBM range: every line after the first, up to `ahead` lines beyond
the first that may not be read. -/
def runAhead (n : Nat) (x : Stream) (s : State) : State :=
  if x.ahead = 0 ∨ (x.kind ≠ 1 ∧ x.kind ≠ 3) ∨ regionOf x.far.addr ≠ some .hbm then s
  else
    let lines := lineRuns (farReads n x s)
    let good := (lines.takeWhile (fun l => (accessDetail s (.pip n) false (64 * l) 64).isNone)).length
    ((lines.take (good + x.ahead)).drop 1).foldl (fun s l => aheadLine n l s) s

/-! ## Running a stream -/

/-- The permitted part of a bundle forgotten: what a halted stream had written is undefined (R167). -/
def forgetMoved (n : Nat) (b : Bundle) (s : State) : State :=
  forgetBundle s (b.filter (fun e => (byteDetail s (.pip n) true e.1).isNone))

/-- A channel that has halted, or on which an issued stream has a fault: later streams are discarded. -/
def channelStopped (t : Tile) (ch : Nat) : Bool :=
  decide (tabGet 0 t.halts ch ≠ 0) || t.issued.any (fun d => d.engine == 2 && d.channel == ch && d.fault.isSome)

/-- Count the bytes that a stream moved (Table 4.18, R319). -/
def countStream (n bytes : Nat) (s : State) : State :=
  (onTile s n (fun t => { t with streamBytes := t.streamBytes + bytes })).onPower (fun p => { p with tileLoad := tabCount p.tileLoad n bytes })

/-- Run a checked stream on its channel. -/
def runStream (n ch : Nat) (x : Stream) (s : State) : Got Unit × State :=
  if channelStopped (tileOf s n) ch then (.ok (), s)
  else
    match moveStream n x (runAhead n x s) with
    | (⟨.wait, _⟩, s1) => (.wait, s1)
    | (⟨.fault c, b⟩, s1) => (.fault c, forgetMoved n b s1)
    | (⟨.ok _, b⟩, s1) =>
      match writeFor (.pip n) 4 b s1 with
      | (.ok _, s2) => (.ok (), countStream n b.length s2)
      | (.fault c, s2) => (.fault c, forgetMoved n b s2)
      | (.wait, s2) => (.wait, s2)

/-- Halt at the channel's turn with a code. -/
def haltStream (n ch : Nat) (c : Code) (s : State) : Got Unit × State :=
  if channelStopped (tileOf s n) ch then (.ok (), s) else (.fault c, s)

/-- The footprint of a stream: its operands in the tile's own tile store (R89, R97, R164 to R166). -/
def streamFoot (n : Nat) (x : Stream) : List Interval :=
  let writesNear := decide (x.kind = 1 ∨ x.kind = 3)
  footprintOf n x.far 0 (!writesNear) ++ (if takesNear x.kind then footprintOf n x.near 0 writesNear else []) ++
    (if takesIndex x.kind then
      let w := { x.index with fmt := if x.indexBytes = 8 then 8 else 7 }
      footprintOf n w 0 false
    else [])

/-- The far rows of a GATHER or SCATTER that its indices name, those that memory holds plainly and that name a row. -/
def indexedRuns (x : Stream) (s : State) : List Run :=
  mergeRuns ((coords (x.index.ext.take 4)).flatMap (fun c =>
    let i := (readBytes s (wrapAddr ((x.index.addr : Int) + strideSum 0 c x.index.stride)) x.indexBytes).1.nat
    if i = 256 ^ x.indexBytes - 1 ∨ x.far.extent 1 ≤ i then []
    else (List.range (x.far.extent 0)).map (fun e => (⟨x.far.at [e, i, 0, 0, 0], elemBytes x.far.fmt⟩ : Run))))

/-- The index elements of a stream. -/
def indexRuns (x : Stream) : List Run :=
  if takesIndex x.kind then
    mergeRuns ((coords x.index.ext).map (fun c => ⟨wrapAddr ((x.index.addr : Int) + strideSum 0 c x.index.stride), x.indexBytes⟩))
  else []

/-- What a stream reads and writes beside its indices. -/
def streamRuns (x : Stream) (s : State) : List Run × List Run :=
  match x.kind with
  | 1 => (x.far.runs, x.near.runs)
  | 2 => (x.near.runs, x.far.runs)
  | 3 => (indexedRuns x s, x.near.runs)
  | 4 => (x.near.runs, indexedRuns x s)
  | _ => ([], x.far.runs)

/-- The issue of a checked stream on its channel; a stream that its halted channel discards touches nothing (R167). -/
def streamIssue (n ch : Nat) (named : List Nat) (x : Stream) (s : State) : Issue :=
  let stopped := channelStopped (tileOf s n) ch
  let (reads, writes) := streamRuns x s
  ⟨2, ch, streamFoot n x, named, if stopped then [] else indexRuns x, if stopped then [] else reads, if stopped then [] else writes, [],
    runStream n ch x⟩

/-- The addresses of the descriptors that a STREAM names: that of its stream `v` of kind `k`, and those of its tensors. -/
def streamNames (t : Tile) (d v k : Nat) : List Nat :=
  let place := fun (p : Nat) => baseOffset t (bitsAt p 0 4) (bitsAt p 4 48)
  baseOffset t (bitsAt d 64 4) (bitsAt d 68 48) :: place (bitsAt v 64 64) ::
    ((if takesNear k then [place (bitsAt v 128 64)] else []) ++ (if takesIndex k then [place (bitsAt v 192 64)] else []))

/-- Fetch and check a STREAM descriptor and the stream it names (R97, R163 to R167). -/
def prepStream (n d : Nat) (s : State) : Got Issue × State :=
  let t := tileOf s n
  let ch := bitsAt d 116 2
  let halt := fun (c : Code) (s1 : State) => ((Got.ok (⟨2, ch, [], [], [], [], [], [], haltStream n ch c⟩ : Issue)), s1)
  if bitsAt d 118 10 ≠ 0 ∨ bitsAt d 128 384 ≠ 0 then (.fault (malformed 0x02), s)
  else
    match fetch64 n (baseOffset t (bitsAt d 64 4) (bitsAt d 68 48)) s with
    | (.fault c, s1) => (.fault c, s1)
    | (.wait, s1) => (.wait, s1)
    | (.ok v, s1) =>
      let k := bitsAt v 0 8
      match checkFields v with
      | some c => halt c s1
      | none =>
        Got.andThen (streamTensor n t (bitsAt v 64 64) s1) (fun far s2 =>
        Got.andThen (if takesNear k then streamTensor n t (bitsAt v 128 64) s2 else (.ok (some noTensor), s2)) (fun near s3 =>
        Got.andThen (if takesIndex k then streamTensor n t (bitsAt v 192 64) s3 else (.ok (some noTensor), s3)) (fun index s4 =>
          match far, near, index with
          | some f, some m, some i =>
            let x : Stream := ⟨k, if bitAt v 8 then 8 else 4, bitsAt v 16 12, f, m, i, bitsAt v 256 64⟩
            match checkTensors n x with
            | some c => halt c s4
            | none =>
              if streamAligned x then (.ok (streamIssue n ch (streamNames t d v k) x s4), s4) else (.fault (malformed 0x0C), s4)
          | _, _, _ => halt (streamCode 0x03) s4)))

/-- The stream that a STREAM names is of a kind, or of no kind that the spec defines, or is not reached: the row of another kind
does not take it. -/
def streamIs (n kind d : Nat) (s : State) : Bool :=
  match fetch64 n (baseOffset (tileOf s n) (bitsAt d 64 4) (bitsAt d 68 48)) s with
  | (.ok v, _) => decide (bitsAt v 0 8 = kind ∨ bitsAt v 0 8 = 0 ∨ 5 < bitsAt v 0 8)
  | _ => true

/-- A STREAM of one kind on a tile. -/
def streamRow (kind tile : Nat) (s : State) : Host.Outcome State Fault Refusal :=
  done s (runDescriptor tile (fun d => opIs 0x08 d && streamIs tile kind d s) (prepStream tile) s)

/-- LOAD (R164). -/
def execLoad (tile : Nat) (s : State) : Host.Outcome State Fault Refusal := streamRow 1 tile s

/-- STORE (R164). -/
def execStore (tile : Nat) (s : State) : Host.Outcome State Fault Refusal := streamRow 2 tile s

/-- GATHER of the stream unit (R165). -/
def execStreamGather (tile : Nat) (s : State) : Host.Outcome State Fault Refusal := streamRow 3 tile s

/-- SCATTER of the stream unit (R165). -/
def execStreamScatter (tile : Nat) (s : State) : Host.Outcome State Fault Refusal := streamRow 4 tile s

/-- FILL of the stream unit (R166). -/
def execStreamFill (tile : Nat) (s : State) : Host.Outcome State Fault Refusal := streamRow 5 tile s

end Sys2Proof.Machine
end

