-- ==== Sys2Proof/Machine/Dispatch.lean ====
section
/-! DEFINITION. Dispatch: one arm per command, each one direct call of its meaning. -/

namespace Sys2Proof.Machine

open Sys2Proof

/-- The effect of a command on everything but the queue of waiting commands. -/
def exec (i : Instr) (s : State) : Host.Outcome State Fault Refusal :=
  match i with
  | .powerOn inputMv => Sys2Proof.Machine.execPowerOn inputMv s
  | .inputStop inputMv => Sys2Proof.Machine.execInputStop inputMv s
  | .converterFail converter => Sys2Proof.Machine.execConverterFail converter s
  | .shutdownAssert => Sys2Proof.Machine.execShutdownAssert s
  | .shutdownRelease => Sys2Proof.Machine.execShutdownRelease s
  | .moduleInsert => Sys2Proof.Machine.execModuleInsert s
  | .moduleRemove => Sys2Proof.Machine.execModuleRemove s
  | .stackReset cause code => Sys2Proof.Machine.execStackReset cause code s
  | .stackResetWrite r => Sys2Proof.Machine.execStackResetWrite r s
  | .watchdogExpiry hazelCore => Sys2Proof.Machine.execWatchdogExpiry hazelCore s
  | .romVerify => Sys2Proof.Machine.execRomVerify s
  | .hazelBoot => Sys2Proof.Machine.execHazelBoot s
  | .railsUp => Sys2Proof.Machine.execRailsUp s
  | .builtInTest found => Sys2Proof.Machine.execBuiltInTest found s
  | .serviceFill => Sys2Proof.Machine.execServiceFill s
  | .hbmTraining found => Sys2Proof.Machine.execHbmTraining found s
  | .defaultsApply => Sys2Proof.Machine.execDefaultsApply s
  | .mgmtLinkLoss => Sys2Proof.Machine.execMgmtLinkLoss s
  | .railBelowFloor layer mv => Sys2Proof.Machine.execRailBelowFloor layer mv s
  | .railAboveFloor layer mv => Sys2Proof.Machine.execRailAboveFloor layer mv s
  | .railBelowRetention layer mv => Sys2Proof.Machine.execRailBelowRetention layer mv s
  | .paceWindow rings => Sys2Proof.Machine.execPaceWindow rings s
  | .paceClear r => Sys2Proof.Machine.execPaceClear r s
  | .powerSample x => Sys2Proof.Machine.execPowerSample x s
  | .rampStep => Sys2Proof.Machine.execRampStep s
  | .droopBegin rail mv => Sys2Proof.Machine.execDroopBegin rail mv s
  | .droopEnd rail mv => Sys2Proof.Machine.execDroopEnd rail mv s
  | .gateRestartStep row => Sys2Proof.Machine.execGateRestartStep row s
  | .thermalLimitStep => Sys2Proof.Machine.execThermalLimitStep s
  | .thermalTrip => Sys2Proof.Machine.execThermalTrip s
  | .energyClear r => Sys2Proof.Machine.execEnergyClear r s
  | .throttleClear r => Sys2Proof.Machine.execThrottleClear r s
  | .tempClear r => Sys2Proof.Machine.execTempClear r s
  | .verticalTransfer column interface attempts spareTests => Sys2Proof.Machine.execVerticalTransfer column interface attempts spareTests s
  | .powerClusterFail tile => Sys2Proof.Machine.execPowerClusterFail tile s
  | .tileFloorTimeout tile => Sys2Proof.Machine.execTileFloorTimeout tile s
  | .homeSliceAccess who addr length write => Sys2Proof.Machine.execHomeSliceAccess who addr length write s
  | .sliceFillReturn line onDieFail => Sys2Proof.Machine.execSliceFillReturn line onDieFail s
  | .lineRepair line => Sys2Proof.Machine.execLineRepair line s
  | .hbmRefresh stack busNs => Sys2Proof.Machine.execHbmRefresh stack busNs s
  | .patrolScrub store => Sys2Proof.Machine.execPatrolScrub store s
  | .hbmChannelFail stack channel => Sys2Proof.Machine.execHbmChannelFail stack channel s
  | .stallSample => Sys2Proof.Machine.execStallSample s
  | .tileProgramStart tile => Sys2Proof.Machine.execTileProgramStart tile s
  | .nop tile => Sys2Proof.Machine.execNop tile s
  | .loop tile => Sys2Proof.Machine.execLoop tile s
  | .setb tile => Sys2Proof.Machine.execSetb tile s
  | .loadb tile => Sys2Proof.Machine.execLoadb tile s
  | .matmul tile => Sys2Proof.Machine.execMatmul tile s
  | .endProgram tile => Sys2Proof.Machine.execEndProgram tile s
  | .copy tile => Sys2Proof.Machine.execCopy tile s
  | .fill tile => Sys2Proof.Machine.execFill tile s
  | .add tile => Sys2Proof.Machine.execAdd tile s
  | .sub tile => Sys2Proof.Machine.execSub tile s
  | .mul tile => Sys2Proof.Machine.execMul tile s
  | .fma tile => Sys2Proof.Machine.execFma tile s
  | .div tile => Sys2Proof.Machine.execDiv tile s
  | .sqrt tile => Sys2Proof.Machine.execSqrt tile s
  | .rsqrt tile => Sys2Proof.Machine.execRsqrt tile s
  | .exp tile => Sys2Proof.Machine.execExp tile s
  | .log tile => Sys2Proof.Machine.execLog tile s
  | .tanh tile => Sys2Proof.Machine.execTanh tile s
  | .logistic tile => Sys2Proof.Machine.execLogistic tile s
  | .sin tile => Sys2Proof.Machine.execSin tile s
  | .cos tile => Sys2Proof.Machine.execCos tile s
  | .max tile => Sys2Proof.Machine.execMax tile s
  | .min tile => Sys2Proof.Machine.execMin tile s
  | .abs tile => Sys2Proof.Machine.execAbs tile s
  | .cmpgt tile => Sys2Proof.Machine.execCmpgt tile s
  | .select tile => Sys2Proof.Machine.execSelect tile s
  | .axpb tile => Sys2Proof.Machine.execAxpb tile s
  | .addsr tile => Sys2Proof.Machine.execAddsr tile s
  | .rsum tile => Sys2Proof.Machine.execRsum tile s
  | .rmax tile => Sys2Proof.Machine.execRmax tile s
  | .rsumsq tile => Sys2Proof.Machine.execRsumsq tile s
  | .rmaxabs tile => Sys2Proof.Machine.execRmaxabs tile s
  | .mxpack tile => Sys2Proof.Machine.execMxpack tile s
  | .mxunpack tile => Sys2Proof.Machine.execMxunpack tile s
  | .update tile => Sys2Proof.Machine.execUpdate tile s
  | .load tile => Sys2Proof.Machine.execLoad tile s
  | .store tile => Sys2Proof.Machine.execStore tile s
  | .streamGather tile => Sys2Proof.Machine.execStreamGather tile s
  | .streamScatter tile => Sys2Proof.Machine.execStreamScatter tile s
  | .streamFill tile => Sys2Proof.Machine.execStreamFill tile s
  | .descriptorComplete tile number => Sys2Proof.Machine.execDescriptorComplete tile number s
  | .trap tile => Sys2Proof.Machine.execTrap tile s
  | .tileCountersClear r => Sys2Proof.Machine.execTileCountersClear r s
  | .crackerGather channel => Sys2Proof.Machine.execCrackerGather channel s
  | .crackerScatter channel => Sys2Proof.Machine.execCrackerScatter channel s
  | .grad channel => Sys2Proof.Machine.execGrad channel s
  | .flatGather channel => Sys2Proof.Machine.execFlatGather channel s
  | .batchRelease channel => Sys2Proof.Machine.execBatchRelease channel s
  | .sectorDone channel sector => Sys2Proof.Machine.execSectorDone channel sector s
  | .mergePass binding => Sys2Proof.Machine.execMergePass binding s
  | .sweepFeed binding => Sys2Proof.Machine.execSweepFeed binding s
  | .stagedRowReady binding row => Sys2Proof.Machine.execStagedRowReady binding row s
  | .crackerCountersClear r => Sys2Proof.Machine.execCrackerCountersClear r s
  | .denseCheckUpdate group => Sys2Proof.Machine.execDenseCheckUpdate group s
  | .stagingCut => Sys2Proof.Machine.execStagingCut s
  | .sweepRow group row => Sys2Proof.Machine.execSweepRow group row s
  | .sweepWriteAck group row => Sys2Proof.Machine.execSweepWriteAck group row s
  | .sweepResume => Sys2Proof.Machine.execSweepResume s
  | .stepBoundary durationPeriods => Sys2Proof.Machine.execStepBoundary durationPeriods s
  | .abortStep r => Sys2Proof.Machine.execAbortStep r s
  | .silentClear r => Sys2Proof.Machine.execSilentClear r s
  | .portMode r => Sys2Proof.Machine.execPortMode r s
  | .laneFail port lane => Sys2Proof.Machine.execLaneFail port lane s
  | .portTrainingDone port goodLanes version => Sys2Proof.Machine.execPortTrainingDone port goodLanes version s
  | .trainingRetry port goodLanes version => Sys2Proof.Machine.execTrainingRetry port goodLanes version s
  | .flitReceive port flit => Sys2Proof.Machine.execFlitReceive port flit s
  | .hopDeadline port => Sys2Proof.Machine.execHopDeadline port s
  | .probe port => Sys2Proof.Machine.execProbe port s
  | .data p => Sys2Proof.Machine.execData p s
  | .ready p => Sys2Proof.Machine.execReady p s
  | .go p => Sys2Proof.Machine.execGo p s
  | .result p => Sys2Proof.Machine.execResult p s
  | .ack p => Sys2Proof.Machine.execAck p s
  | .pathNotice p => Sys2Proof.Machine.execPathNotice p s
  | .inbound p => Sys2Proof.Machine.execInbound p s
  | .tableReq p => Sys2Proof.Machine.execTableReq p s
  | .tableRsp p => Sys2Proof.Machine.execTableRsp p s
  | .mirror p => Sys2Proof.Machine.execMirror p s
  | .mirrorAck p => Sys2Proof.Machine.execMirrorAck p s
  | .relayedRequest p => Sys2Proof.Machine.execRelayedRequest p s
  | .relayedReply p => Sys2Proof.Machine.execRelayedReply p s
  | .committedStepReport p => Sys2Proof.Machine.execCommittedStepReport p s
  | .restorePoint p => Sys2Proof.Machine.execRestorePoint p s
  | .lineRequest p => Sys2Proof.Machine.execLineRequest p s
  | .lineReply p => Sys2Proof.Machine.execLineReply p s
  | .fullTransferRequest p => Sys2Proof.Machine.execFullTransferRequest p s
  | .holdNotice p => Sys2Proof.Machine.execHoldNotice p s
  | .ackTimer k => Sys2Proof.Machine.execAckTimer k s
  | .resendTimeout k => Sys2Proof.Machine.execResendTimeout k s
  | .epochWrite r => Sys2Proof.Machine.execEpochWrite r s
  | .allReduce k => Sys2Proof.Machine.execAllReduce k s
  | .reduceScatter k => Sys2Proof.Machine.execReduceScatter k s
  | .allGather k => Sys2Proof.Machine.execAllGather k s
  | .allToAll k => Sys2Proof.Machine.execAllToAll k s
  | .broadcast k => Sys2Proof.Machine.execBroadcast k s
  | .exchange k => Sys2Proof.Machine.execExchange k s
  | .reductionDeadline k => Sys2Proof.Machine.execReductionDeadline k s
  | .collectiveComplete k => Sys2Proof.Machine.execCollectiveComplete k s
  | .resultSend => Sys2Proof.Machine.execResultSend s
  | .fabricCountersClear r => Sys2Proof.Machine.execFabricCountersClear r s
  | .feMode r => Sys2Proof.Machine.execFeMode r s
  | .fePortReset r => Sys2Proof.Machine.execFePortReset r s
  | .neighborRequest port ipv6 addr => Sys2Proof.Machine.execNeighborRequest port ipv6 addr s
  | .rdmaWrite origin rkey addr bytes => Sys2Proof.Machine.execRdmaWrite origin rkey addr bytes s
  | .rdmaRead origin rkey addr length => Sys2Proof.Machine.execRdmaRead origin rkey addr length s
  | .flushReadRelease conn => Sys2Proof.Machine.execFlushReadRelease conn s
  | .cnpReceive conn => Sys2Proof.Machine.execCnpReceive conn s
  | .egressRateRise conn => Sys2Proof.Machine.execEgressRateRise conn s
  | .transportRetryTimeout conn => Sys2Proof.Machine.execTransportRetryTimeout conn s
  | .connEnable r => Sys2Proof.Machine.execConnEnable r s
  | .connReset r => Sys2Proof.Machine.execConnReset r s
  | .postCount conn => Sys2Proof.Machine.execPostCount conn s
  | .cqConsumed conn => Sys2Proof.Machine.execCqConsumed conn s
  | .entryRead queue => Sys2Proof.Machine.execEntryRead queue s
  | .entryReread queue => Sys2Proof.Machine.execEntryReread queue s
  | .queueEnable r => Sys2Proof.Machine.execQueueEnable r s
  | .queueDisable r => Sys2Proof.Machine.execQueueDisable r s
  | .dispatch queue seq => Sys2Proof.Machine.execDispatch queue seq s
  | .fillCommand queue seq => Sys2Proof.Machine.execFillCommand queue seq s
  | .exportEntry queue seq => Sys2Proof.Machine.execExportEntry queue seq s
  | .exportAck conn => Sys2Proof.Machine.execExportAck conn s
  | .nopEntry queue seq => Sys2Proof.Machine.execNopEntry queue seq s
  | .entryComplete queue seq => Sys2Proof.Machine.execEntryComplete queue seq s
  | .feCountersClear r => Sys2Proof.Machine.execFeCountersClear r s
  | .buddy r => Sys2Proof.Machine.execBuddy r s
  | .buddyTimeout => Sys2Proof.Machine.execBuddyTimeout s
  | .snapshotBase r => Sys2Proof.Machine.execSnapshotBase r s
  | .memberTimeout node => Sys2Proof.Machine.execMemberTimeout node s
  | .recoveryWrite r => Sys2Proof.Machine.execRecoveryWrite r s
  | .shardVerify group source step digest bytes => Sys2Proof.Machine.execShardVerify group source step digest bytes s
  | .restoreSubmit r => Sys2Proof.Machine.execRestoreSubmit r s
  | .replay => Sys2Proof.Machine.execReplay s
  | .resume r => Sys2Proof.Machine.execResume r s
  | .twinTimeout => Sys2Proof.Machine.execTwinTimeout s
  | .twinLateLimit => Sys2Proof.Machine.execTwinLateLimit s
  | .twinRejoin => Sys2Proof.Machine.execTwinRejoin s
  | .read r => Sys2Proof.Machine.execRead r s
  | .write r => Sys2Proof.Machine.execWrite r s
  | .revert r => Sys2Proof.Machine.execRevert r s
  | .seal r => Sys2Proof.Machine.execSeal r s
  | .abandon r => Sys2Proof.Machine.execAbandon r s
  | .describe r => Sys2Proof.Machine.execDescribe r s
  | .enumerate r => Sys2Proof.Machine.execEnumerate r s
  | .hello r => Sys2Proof.Machine.execHello r s
  | .prove r => Sys2Proof.Machine.execProve r s
  | .close r => Sys2Proof.Machine.execClose r s
  | .sessionExpire session => Sys2Proof.Machine.execSessionExpire session s
  | .helloLockoutEnd => Sys2Proof.Machine.execHelloLockoutEnd s
  | .relayTimeout requestId => Sys2Proof.Machine.execRelayTimeout requestId s
  | .batchExpire session batch => Sys2Proof.Machine.execBatchExpire session batch s
  | .eventAck r => Sys2Proof.Machine.execEventAck r s
  | .snapshotTake r => Sys2Proof.Machine.execSnapshotTake r s
  | .memCountersClear r => Sys2Proof.Machine.execMemCountersClear r s
  | .protCountersClear r => Sys2Proof.Machine.execProtCountersClear r s
  | .floorCommit r => Sys2Proof.Machine.execFloorCommit r s
  | .uploadTarget r => Sys2Proof.Machine.execUploadTarget r s
  | .uploadData r => Sys2Proof.Machine.execUploadData r s
  | .uploadVerify r => Sys2Proof.Machine.execUploadVerify r s
  | .attestRequest r => Sys2Proof.Machine.execAttestRequest r s
  | .attestReady => Sys2Proof.Machine.execAttestReady s
  | .testStateEnter r => Sys2Proof.Machine.execTestStateEnter r s
  | .testStateExit r => Sys2Proof.Machine.execTestStateExit r s
  | .marginSweep r => Sys2Proof.Machine.execMarginSweep r s
  | .marginSweepEnd failed lost => Sys2Proof.Machine.execMarginSweepEnd failed lost s
  | .bistRerun r found hbm => Sys2Proof.Machine.execBistRerun r found hbm s
  | .feLinkDown port => Sys2Proof.Machine.execFeLinkDown port s
  | .feLinkUp port => Sys2Proof.Machine.execFeLinkUp port s
  | .priorityFlowControlFrame port priority quanta => Sys2Proof.Machine.execPriorityFlowControlFrame port priority quanta s
  | .writeBackComplete line => Sys2Proof.Machine.execWriteBackComplete line s
  | .tileSupplyBelowFloor tile mv => Sys2Proof.Machine.execTileSupplyBelowFloor tile mv s
  | .tileSupplyRestored tile mv => Sys2Proof.Machine.execTileSupplyRestored tile mv s

end Sys2Proof.Machine
end

