-- ==== Sys2Proof/Safety.lean ====
section
/-! DEFINITION. The terms in which statements speak of runs: a safe step, what a start and a stop of the module leave, and how far
an alteration of the event log or of a part of the state reaches. -/

namespace Sys2Proof.Machine

open Sys2Proof

/-- The outcome is a next state: the module has neither stopped with a fault nor refused the command. -/
def answersNext (o : Host.Outcome State Fault Refusal) : Prop := ∃ t, o = .next t

/-- Everything outside power, start-up and flash is at its reset value, with the tiles of `s`'s unit mapped; the outputs and the
waiting commands of `s` stay; a mark of lost memory may stand (R289, R342). -/
def atStart (s t : State) : Prop :=
  t.dict = Dict.atStart ∧ t.mem = Memory.neverWritten ∧ t.banks = Memory.neverWritten ∧ t.rowMasks = [] ∧ t.colMasks = [] ∧
    t.tiles = [] ∧ t.uses = [] ∧ t.stack = Stack.mapped s.flash.activeCount ∧ t.cache = Cache.empty ∧ t.prot = Protect.clean ∧
    t.cracker = Cracker.idle ∧ t.train = Training.noJob ∧ t.fabric = Fabric.off ∧ t.front = FrontEnd.down ∧
    t.resil = { Resilience.none with memoryLost := t.resil.memoryLost } ∧ t.out = s.out ∧ t.pending = s.pending

/-- The module runs its start-up from phase 0 on its power system `p`: flash survives, the reset record that it holds is presented,
and events of the start-up wait for phase 8 (R342, R344). -/
def startedFrom (s : State) (p : Power) (record : ResetRecord) (flash : Flash) (held : List (Code × Nat)) (t : State) : Prop :=
  atStart s t ∧ t.flash = { flash with reset := none } ∧
    t.boot = { Boot.phase0 with lastReset := record, held := held } ∧ t.power = p

/-- The power system at a start with an input of `mv`: below 32 V the input is low (R307, R342). -/
def powerAt (mv : Nat) : Power := { Power.atPowerOn with inputMv := mv, lowInput := decide (mv < 32000) }

/-- The power system at a stack reset: the front-end converters keep running (Table 14.1). -/
def powerKept (s : State) : Power :=
  { Power.atPowerOn with
    inputMv := s.power.inputMv
    converterFailed := s.power.converterFailed
    lowInput := s.power.lowInput }

/-- The converters are stopped: nothing runs and flash alone is kept (R307, R343). -/
def convertersStopped (s t : State) : Prop :=
  atStart s t ∧ t.flash = s.flash ∧ t.boot.phase = 0 ∧ t.power.convertersOn = false

/-- The reset record that a start presents (R344). -/
def recordOf (s : State) : ResetRecord := s.flash.reset.getD { ResetRecord.none with resets := s.flash.resets }

/-- Two dictionary servers that differ in nothing but change ordinals and the event log. -/
def logsOnly (d d' : Dict) : Prop :=
  d' = { d with
    change := d'.change
    events := d'.events
    eventNext := d'.eventNext
    eventTotal := d'.eventTotal
    resiliencePending := d'.resiliencePending }

/-- Two states of start-up that differ in nothing but the events held for phase 8. -/
def heldOnly (b b' : Boot) : Prop := b' = { b with held := b'.held }

/-! ## Tiles -/

/-- The rows of the VECTOR operations with their vop (Table 4.14). -/
def vectorRows : List (Nat × (Nat → Instr)) :=
  [(0x01, .copy), (0x02, .fill), (0x03, .add), (0x04, .sub), (0x05, .mul), (0x06, .fma), (0x07, .div), (0x08, .sqrt),
   (0x09, .rsqrt), (0x0A, .exp), (0x0B, .log), (0x0C, .tanh), (0x0D, .logistic), (0x0E, .sin), (0x0F, .cos), (0x10, .max),
   (0x11, .min), (0x12, .abs), (0x13, .cmpgt), (0x14, .select), (0x15, .axpb)] ++
  [(0x18, .addsr), (0x20, .rsum), (0x21, .rmax), (0x22, .rsumsq), (0x23, .rmaxabs), (0x30, .mxpack), (0x31, .mxunpack),
   (0x40, .update)]

/-- The rows of the stream unit with their kind (Table 6.9). -/
def streamRows : List (Nat × (Nat → Instr)) :=
  [(1, .load), (2, .store), (3, .streamGather), (4, .streamScatter), (5, .streamFill)]

/-- Every row that runs the descriptor at a tile's program counter. -/
def descriptorRows : List (Nat → Instr) :=
  [.nop, .loop, .setb, .loadb, .endProgram, .matmul] ++ vectorRows.map (fun r => r.2) ++ streamRows.map (fun r => r.2)

/-- The tile issues, and `d` is the descriptor at its program counter, read without fault, correction or wait (R86, R88). -/
def atCounter (s : State) (n d : Nat) : Prop := tileIssues s n = true ∧ fetch64 n (tileOf s n).pc s = (.ok d, s)

/-- A header whose reserved bit is clear, whose signal goes to a logical tile, and whose fences and counter condition are met
(Table 4.3). -/
def headerMet (s : State) (n d : Nat) : Prop :=
  bitAt d 11 = false ∧ (bitAt d 17 = true → bitsAt d 22 10 < logicalTiles s) ∧ fencesMet (tileOf s n) d = true ∧
    counterMet (tileOf s n) d = true

/-- The tile as the sequencer leaves it behind a descriptor: counted, and past it or back at the first of an open loop's body. -/
def sequenced (t : Tile) : Tile :=
  leaveLoops t.pc t.loops { t with state := 1, hold := none, nextNumber := t.nextNumber + 1, descriptors := t.descriptors + 1 }

/-- A descriptor that the sequencer itself runs: its effect on the tile, its fetch and then its reads in the home slices, the
sequencer past it, its signal (R24, R91, R92). -/
def passed (s : State) (n d : Nat) (f : Tile → Tile) (reads : List Run) : State :=
  let s1 := onTile s n f
  signalCounter (reads.foldl (fun t r => accessSlices t (.pip n) r.lo r.len false)
    (onTile (fetchSlices s1 n (tileOf s1 n).pc []) n sequenced)) (signalOf d)

/-- A descriptor that an engine runs, the engine's effect in `s1`: it is ordered against those that run, its descriptors are
fetched, the sequencer goes past it and keeps it as issued, and the tile's requests go to the home slices (R24, R86, R89 to R91, R161). -/
def launched (s1 : State) (n d : Nat) (x : Issue) : State :=
  let entry := issuedEntry n (tileOf s1 n) d x none
  let s2 := onTile (fetchSlices (orderIssued s1 n entry) n (tileOf s1 n).pc x.named) n (fun t =>
    let u := sequenced t
    { u with issued := u.issued ++ [entry] })
  pumpTile (requestsLeft (tileOf s2 n)) s2 n

/-- The words that the bytes from `lo` to `hi` − 1 touch hold no error and no poison (R194). -/
def cleanWords (m : Memory) (lo hi : Nat) : Prop :=
  ∀ w, lo < 8 * w + 8 → 8 * w < hi → neverWritten m w = false ∧ tabGet 0 m.synd w = 0

/-- The VECTOR that a descriptor names, its tensors read without fault, correction or wait and none missing (Table 4.11). -/
def vectorAt (s : State) (n d : Nat) (v : Vec) : Prop :=
  bitsAt d 74 22 = 0 ∧ ∃ dst src0 src1 src2 aux : Option Tensor,
    fetchTensor n (tileOf s n) (bitsAt d 128 64) false s = (.ok dst, s) ∧
    fetchTensor n (tileOf s n) (bitsAt d 192 64) false s = (.ok src0, s) ∧
    fetchTensor n (tileOf s n) (bitsAt d 256 64) (bitsAt d 64 8 == 0x40) s = (.ok src1, s) ∧
    fetchTensor n (tileOf s n) (bitsAt d 320 64) false s = (.ok src2, s) ∧
    fetchTensor n (tileOf s n) (bitsAt d 384 64) true s = (.ok aux, s) ∧
    dst.isSome = true ∧ ([src0, src1, src2].take (vopSources (bitsAt d 64 8))).all Option.isSome = true ∧
    (vopAux (bitsAt d 64 8) = true → aux.isSome = true) ∧
    v = ⟨bitsAt d 64 8, bitAt d 72, bitAt d 73, bitsAt d 96 32, bitsAt d 448 32, bitsAt d 480 32, dst.getD absentTensor,
      src0.getD absentTensor, src1.getD absentTensor, src2.getD absentTensor, aux.getD absentTensor⟩

/-- The stream `x` that a STREAM names, its descriptor `v` and tensors read without fault, correction or wait (Table 6.9). -/
def streamAt (s : State) (n d v : Nat) (x : Stream) : Prop :=
  fetch64 n (baseOffset (tileOf s n) (bitsAt d 64 4) (bitsAt d 68 48)) s = (.ok v, s) ∧ checkFields v = none ∧
    x.kind = bitsAt v 0 8 ∧ x.indexBytes = (if bitAt v 8 then 8 else 4) ∧ x.ahead = bitsAt v 16 12 ∧ x.pattern = bitsAt v 256 64 ∧
    streamTensor n (tileOf s n) (bitsAt v 64 64) s = (.ok (some x.far), s) ∧
    (if takesNear x.kind then streamTensor n (tileOf s n) (bitsAt v 128 64) s = (.ok (some x.near), s) else x.near = noTensor) ∧
    (if takesIndex x.kind then streamTensor n (tileOf s n) (bitsAt v 192 64) s = (.ok (some x.index), s) else x.index = noTensor)

/-! ## The Cracker and the fabric -/

/-- The head command of channel `c`, current, not yet run, read without fault or wait into `s1`, with no fault of Table 7.10
that does not depend on its indices (R174). -/
def headCommand (s s1 : State) (c : Nat) (cmd : CrackerCommand) : Prop :=
  ∃ h rest b, (channelOf s c).cmds = h :: rest ∧ (channelOf s c).ran = false ∧ c < 12 ∧ h.step = currentStep s ∧
    (channelOf s c).halt = 0 ∧ huskStopped s = false ∧ readSectors c h.addr 64 s = (.ok b, s1) ∧ b.poisoned = false ∧
    cmd = crackerCommand b.nat ∧ commandFault s1 cmd = none

/-- The rows of packets that reach this module, with their type (Table 9.8). -/
def packetRows : List (Nat × (Packet → Instr)) :=
  [(1, .data), (2, .ready), (3, .go), (4, .result), (5, .ack), (6, .pathNotice), (7, .inbound), (8, .tableReq), (9, .tableRsp),
   (0xA, .mirror), (0xB, .mirrorAck), (0xC, .relayedRequest), (0xC, .relayedReply), (0xC, .committedStepReport), (0xC, .restorePoint),
   (0xC, .lineRequest), (0xC, .lineReply), (0xC, .fullTransferRequest), (0xC, .holdNotice)]

/-! ## The dictionary -/

/-- A session after one more request of it. -/
def inUse (s : State) (x : Session) : State := performKept.touch s x

/-- `r` is a new request on the open session `x` of this module, complete, and served in this phase (R327, R329, R331, R352). -/
def askedBy (s : State) (op : Nat) (r : Request) (x : Session) : Prop :=
  s.power.convertersOn = true ∧ discarded op r = false ∧ forAnother s r = false ∧ r.version = 1 ∧ sessionOf s r.session = some x ∧
    x.pending = false ∧ x.replies.find? (fun k => decide (k.requestId = r.requestId)) = none ∧
    (x.replies = [] ∨ x.replies.all (fun k => serialAbove k.requestId r.requestId) = false) ∧ requestRefusal (inUse s x) op r = none

/-- A request on session 0, complete, and served in this phase. -/
def askedOpenly (s : State) (op : Nat) (r : Request) : Prop :=
  s.power.convertersOn = true ∧ discarded op r = false ∧ forAnother s r = false ∧ r.version = 1 ∧ r.session = 0 ∧
    requestRefusal s op r = none

/-- The reply is kept with its session's last 64 and sent (R329). -/
def replied (t : State) (r : Request) (y : Reply) : State :=
  emit (onSession t r.session (fun z => { z with replies := (z.replies ++ [y]).drop ((z.replies.length + 1) - 64) })) (.reply y)

/-- The reply to an accepted write: its effective step and write ordinal (Table 13.3). -/
def acceptedReply (op : Nat) (r : Request) (step ordinal : Nat) : Reply := { replyTo op r with effectiveStep := step, ordinal := ordinal }

/-- One more accepted write (R328). -/
def counted (s : State) : State := s.onDict (fun d => { d with ordinal := s.dict.ordinal + 1 })

/-- `r` is a write of the object `o`, not a part of a batch, that passes the checks of its form, role and value (R325 to R327,
R356). -/
def writes (s : State) (r : Request) (x : Session) (o : Obj) : Prop :=
  askedBy s 2 r x ∧ r.batch = 0 ∧ checkWrite (inUse s x) x r false false = .ok o

/-- The state that a write of a WO object leaves whose action leaves `t`. -/
def acts (s t : State) (r : Request) : State := noteChanges s (replied t r (acceptedReply 2 r 0 (s.dict.ordinal + 1)))

end Sys2Proof.Machine
end

