-- ==== Sys2Proof/Certificates/Slice0/Obligations.lean ====
section
/-! DEFINITION. The statements for the provers. -/

open Sys2Proof Sys2Proof.Machine

/-! ## Power, start and stop (rules R307, R308, R342 to R344, R367, R369) -/

/-- POWER_ON, SHUTDOWN_RELEASE and MODULE_INSERT start the module from phase 0 when 36 V is present, J1 is mated, SHUTDOWN_N is high and the
input lies in the range in which the converters run (R342, R367, R369). STACK_RESET, WATCHDOG_EXPIRY, RAIL_BELOW_RETENTION and
THERMAL_TRIP restart the stack from phase 0: the presented reset record holds the cause, the code of a cause-6 reset, the committed step
and the count of stack resets, and the loss of memory is an event of the start-up (R32, R289, R321, R343, R344); the converters must
run. THERMAL_TRIP also writes the trip record. -/
def Obligations.ModuleStartsAndRestarts : Prop :=
  ((∀ (s : State) (mv : Nat), 28000 ≤ mv → mv ≤ 44000 → s.power.modPresent = true → s.power.shutdownLow = false →
     ∃ t, exec (.powerOn mv) s = .next t ∧
       startedFrom s (powerAt mv) (recordOf s) s.flash (if mv < 32000 then [(0x06110C03, 0)] else []) t) ∧
   (∀ s : State, 28000 ≤ s.power.inputMv → s.power.inputMv ≤ 44000 → s.power.v36 = true → s.power.modPresent = true →
     s.power.shutdownLow = true →
     ∃ t, exec .shutdownRelease s = .next t ∧
       startedFrom s (powerAt s.power.inputMv) (recordOf s) s.flash (if s.power.inputMv < 32000 then [(0x06110C03, 0)] else []) t) ∧
   (∀ s : State, 28000 ≤ s.power.inputMv → s.power.inputMv ≤ 44000 → s.power.v36 = true → s.power.modPresent = false →
     s.power.shutdownLow = false →
     ∃ t, exec .moduleInsert s = .next t ∧
       startedFrom s (powerAt s.power.inputMv) (recordOf s) s.flash (if s.power.inputMv < 32000 then [(0x06110C03, 0)] else []) t)) ∧
  ((∀ (s : State) (cause : Nat) (code : Code), s.power.convertersOn = true → 1 ≤ cause → cause ≤ 6 →
     ∃ t, exec (.stackReset cause code) s = .next t ∧
       startedFrom s (powerKept s) ⟨cause, if cause = 6 then code else 0, s.train.committed, s.flash.resets + 1⟩
         { s.flash with resets := s.flash.resets + 1 } [(0x08000B07, 0)] t ∧ t.resil.memoryLost = true) ∧
   (∀ (s : State) (core : Nat), s.power.convertersOn = true → ∃ t, exec (.watchdogExpiry core) s = .next t ∧
       startedFrom s (powerKept s) ⟨4, 0, s.train.committed, s.flash.resets + 1⟩
         { s.flash with resets := s.flash.resets + 1 } [(0x08000B07, 0)] t ∧ t.resil.memoryLost = true) ∧
   (∀ (s : State) (layer mv : Nat), s.power.convertersOn = true → mv < 450 → ∃ t, exec (.railBelowRetention layer mv) s = .next t ∧
       startedFrom s (powerKept s) ⟨2, 0, s.train.committed, s.flash.resets + 1⟩
         { s.flash with resets := s.flash.resets + 1 } [(0x08000B07, 0)] t ∧ t.resil.memoryLost = true) ∧
   (∀ (s : State) (i : Nat), s.power.convertersOn = true → tripSensor s = some i → ∃ t, exec .thermalTrip s = .next t ∧
       startedFrom s (powerKept s) ⟨3, 0, s.train.committed, s.flash.resets + 1⟩
         { s.flash with
           resets := s.flash.resets + 1
           trips := s.flash.trips + 1
           trip := some ⟨tripCause s i, i, nat32 (s.power.temps.getD i 0), s.flash.trips + 1, s.train.committed⟩ }
         [(0x08000B07, 0)] t ∧ t.resil.memoryLost = true))

/-- INPUT_STOP, SHUTDOWN_ASSERT, MODULE_REMOVE and the failure of a third converter stop the converters: nothing but flash is kept (R307,
R308, R367, R369). The first and the second converter failure are recorded and raise 0x0611_0C01 and 0x0611_0C02; nothing else than the
record of failed converters and the log changes (R308). -/
def Obligations.ConvertersStopKeepingFlash : Prop :=
  ((∀ (s : State) (mv : Nat), mv < 28000 ∨ 44000 < mv → ∃ t, exec (.inputStop mv) s = .next t ∧ convertersStopped s t) ∧
   (∀ s : State, ∃ t, exec .shutdownAssert s = .next t ∧ convertersStopped s t ∧ t.power.shutdownLow = true) ∧
   (∀ s : State, s.power.modPresent = true →
     ∃ t, exec .moduleRemove s = .next t ∧ convertersStopped s t ∧ t.power.modPresent = false) ∧
   (∀ (s : State) (c : Nat), c < 4 → s.power.converterFailed.contains c = false → 2 ≤ s.power.converterFailed.length →
     ∃ t, exec (.converterFail c) s = .next t ∧ convertersStopped s t)) ∧
  (∀ (s : State) (c : Nat), c < 4 → s.power.converterFailed.contains c = false →
     let s1 := s.onPower (fun p => { p with converterFailed := setAddSorted p.converterFailed c })
     (s.power.converterFailed = [] → exec (.converterFail c) s = .next (noteChanges s (raise s1 0x06110C01 0))) ∧
     (s.power.converterFailed.length = 1 → exec (.converterFail c) s = .next (noteChanges s (raise s1 0x06110C02 0))))

/-- ROM_VERIFY runs the first valid firmware copy in the order of boot_select and marks it valid, and stays in recovery with no copy running
when there is none (R347 to R349); HAZEL_BOOT resumes the signing index at the stored counter, takes the first valid user image whose
payload is well formed, and goes on without one when neither is valid (R349, R350, R358). The later tasks of start-up (R346, R352 to
R355): RAILS_UP sets the rails to their setpoints; BUILT_IN_TEST that finds nothing maps the first A tiles; SERVICE_FILL ends phase 5;
HBM_TRAINING that finds nothing ends phase 6; DEFAULTS_APPLY without a user image makes the module ready with factory defaults, and with
fewer active tiles than logical_tiles it ends in phase 9. -/
def Obligations.StartupRunsItsPhases : Prop :=
  ((∀ s : State, s.boot.phase = 0 → s.power.convertersOn = true →
     let first := if s.flash.bootSelect = 0 then 0 else 1
     ∃ t, exec .romVerify s = .next t ∧
       (imageValid s first = true → t.boot.phase = 2 ∧ t.boot.firmwareRunning = first) ∧
       (imageValid s first = false → imageValid s (1 - first) = true → t.boot.phase = 2 ∧ t.boot.firmwareRunning = 1 - first) ∧
       (imageValid s 0 = false → imageValid s 1 = false →
         t.boot.phase = 1 ∧ t.boot.firmwareRunning = s.boot.firmwareRunning) ∧
       t.power = s.power ∧ t.mem = s.mem ∧ t.stack = s.stack ∧ t.dict.values = s.dict.values) ∧
   (∀ s : State, s.boot.phase = 2 →
     let first := if s.flash.userSelect = 0 then 2 else 3
     ∃ t, exec .hazelBoot s = .next t ∧ t.boot.phase = 3 ∧ t.boot.sigIndex = sigReserved s ∧
       (imageValid s first = true → imageSections s first ≠ none → t.boot.userRunning = first - 2) ∧
       (imageValid s 2 = false → imageValid s 3 = false → t.boot.userRunning = 0xFF) ∧
       t.flash.trip = none ∧ (∀ r, s.flash.trip = some r → t.boot.lastTrip = r) ∧
       t.power = s.power ∧ t.mem = s.mem ∧ t.stack = s.stack ∧ t.dict.values = s.dict.values)) ∧
  ((∀ s : State, s.boot.phase = 3 →
     exec .railsUp s = .next (noteChanges s { s with
       power := { s.power with railMv := s.power.railSet }
       boot := { s.boot with phase := 4 } })) ∧
   (∀ s : State, s.boot.phase = 4 → s.flash.retirements = [] → s.boot.bistReport = [] →
     exec (.builtInTest ⟨false, [], [], [], [], []⟩) s = .next (noteChanges s { s with
       stack := Stack.mapped s.flash.activeCount
       prot := { s.prot with spread := [] }
       boot := { s.boot with phase := 5, retired := true } })) ∧
   (∀ s : State, s.boot.phase = 5 →
     exec .serviceFill s = .next (noteChanges s { s with boot := { s.boot with phase := 6 } })) ∧
   (∀ s : State, s.boot.phase = 6 → s.boot.userRunning = 0xFF → s.boot.bistReport = [] →
     exec (.hbmTraining ⟨[], []⟩) s = .next (noteChanges s { s with boot := { s.boot with phase := 7 } })) ∧
   (∀ s : State, s.boot.phase = 7 → s.boot.userRunning = 0xFF →
     let s1 := takeDefaults s (baseValues s) [] 0xFF
     ∃ t, exec .defaultsApply s = .next t ∧ t.dict.values = baseValues s ∧ t.mem = s.mem ∧ t.stack = s.stack ∧
       (logicalTiles s1 ≤ s.stack.tileMap.length → t.boot.phase = 8 ∧ t.boot.held = [] ∧ t.resil.state = 1) ∧
       (s.stack.tileMap.length < logicalTiles s1 → t.boot.phase = 9)))

/-! ## Rails, pace, heat and vertical interfaces (chapters 2, 8 and 12) -/

/-- A rail below a layer's functional floor stops the layer's handshakes, counts the stop and raises 0x0611_0C04; above the floor the
handshakes run again and what waited for its home slices goes on; a droop of more than 25 mV is counted and ends when the rail is within
10 mV of its setpoint; nothing else changes (R32, R316). A ramp step moves rail 0 by one millivolt toward its target and the cache rails
with it, 50 mV lower but within 650 to 800 mV, unless it meets a droop of rail 0, or of a cache rail that is to be raised before it:
then the step waits; a restarting row's gate goes to 8 and then to its controlled value (R309, R314 to R316). A pace window gives each
layer's pace and updates its minimum and maximum, or restarts them after a clear (R33). -/
def Obligations.RailsRampsAndPace : Prop :=
  ((∀ (s : State) (layer mv : Nat), layer < 6 → mv < floorOf layer → s.power.stopped.contains layer = false →
     exec (.railBelowFloor layer mv) s = .next (noteChanges s (raise { s with power := { s.power with
       stopped := setAddSorted s.power.stopped layer
       railMv := listSet s.power.railMv (railOf layer) mv
       floorStops := s.power.floorStops + 1 } } 0x06110C04 0))) ∧
   (∀ (s : State) (layer mv : Nat), layer < 6 → floorOf layer < mv →
     exec (.railAboveFloor layer mv) s = .next (noteChanges s (admitWaiting { s with power := { s.power with
       stopped := setRemove s.power.stopped layer
       railMv := listSet s.power.railMv (railOf layer) mv } }))) ∧
   (∀ (s : State) (rail mv : Nat), rail < 8 → mv + 25 < s.power.railSet.getD rail 0 → s.power.droop.contains rail = false →
     exec (.droopBegin rail mv) s = .next (noteChanges s { s with power := { s.power with
       droop := setAddSorted s.power.droop rail
       droops := tabCount s.power.droops rail 1
       railMv := listSet s.power.railMv rail mv } })) ∧
   (∀ (s : State) (rail mv : Nat), rail < 8 → s.power.droop.contains rail = true → s.power.railSet.getD rail 0 ≤ mv + 10 →
     mv ≤ s.power.railSet.getD rail 0 + 10 → s.power.rampWait = false →
     exec (.droopEnd rail mv) s = .next (noteChanges s { s with power := { s.power with
       droop := setRemove s.power.droop rail
       railMv := listSet s.power.railMv rail mv
       railSet := if 1 ≤ rail ∧ rail ≤ 4 then listSet s.power.railSet rail (cacheSetpoint (s.power.railSet.headD 0)) else s.power.railSet } })) ∧
   (∀ (s : State) (rail mv : Nat), rail < 8 → s.power.droop.contains rail = true → s.power.railSet.getD rail 0 ≤ mv + 10 →
     mv ≤ s.power.railSet.getD rail 0 + 10 → s.power.rampWait = true →
     (rampHeld (endDroop s rail mv) = true → exec (.droopEnd rail mv) s = .next (noteChanges s (endDroop s rail mv))) ∧
     (rampHeld (endDroop s rail mv) = false → exec (.droopEnd rail mv) s =
       .next (noteChanges s (applyRamp ((endDroop s rail mv).onPower (fun p => { p with rampWait := false }))))))) ∧
  ((∀ (s : State), rampHeld s = false → s.power.railSet.headD 0 < railTarget s →
     exec .rampStep s = .next (noteChanges s { s with power := { s.power with
       rampWait := false
       railSet := withRail0 s.power.droop s.power.railSet (s.power.railSet.headD 0 + 1) } })) ∧
   (∀ (s : State), rampHeld s = false → railTarget s < s.power.railSet.headD 0 →
     ∃ t, exec .rampStep s = .next t ∧
       t = noteChanges s { s with power := { s.power with
         rampWait := false
         railSet := withRail0 s.power.droop s.power.railSet (s.power.railSet.headD 0 - 1)
         powerGate := t.power.powerGate } } ∧
       (s.power.railSet.headD 0 = railTarget s + 1 → t.power.powerGate = 16)) ∧
   (∀ (s : State), rampHeld s = false → s.power.railSet.headD 0 = railTarget s →
     exec .rampStep s = .next (noteChanges s { s with power := { s.power with
       rampWait := false
       powerGate := if s.power.powerLimitMv ≤ s.power.railSet.headD 0 then max s.power.powerGate 16 else s.power.powerGate } })) ∧
   (∀ (s : State), rampHeld s = true →
     exec .rampStep s = .next (noteChanges s { s with power := { s.power with rampWait := true } })) ∧
   (∀ (s : State) (row : Nat), row < 16 → tabGet 16 s.power.restart row = 4 →
     exec (.gateRestartStep row) s = .next (noteChanges s { s with power := { s.power with
       restart := tabSet 16 s.power.restart row 8 } })) ∧
   (∀ (s : State) (row : Nat), row < 16 → tabGet 16 s.power.restart row = 8 →
     exec (.gateRestartStep row) s = .next (noteChanges s { s with power := { s.power with
       restart := tabErase s.power.restart row } }))) ∧
  (∀ (s : State) (rings : List Nat), rings.length = 6 →
     let now := rings.map (fun n => n / cfg s 0x280004)
     exec (.paceWindow rings) s = .next (noteChanges s { s with power := { s.power with
       paceNow := now
       paceMin := if s.power.paceCleared then now else List.zipWith min s.power.paceMin now
       paceMax := if s.power.paceCleared then now else List.zipWith max s.power.paceMax now
       paceCleared := false } }))

/-- A power sample stores the readings, keeps the last 125 samples, moves both bucket levels by (power − rate) × 8 µs without going below 0,
keeps the highest temperatures, and counts 8 µs under the sample's throttle reason (R310, R312, R317, R320, R321). A thermal step lowers
the thermal limit by 5 mV above the temperature target, raises it by 5 mV from 2 °C below it, within 620 and 850 mV, and steps each
row's gate: halved at 105 °C, doubled below 103 °C (R321). -/
def Obligations.PowerAndHeatAreBounded : Prop :=
  (∀ (s : State) (x : PowerReading), x.railMv.length = 8 → x.railMa.length = 8 → x.temps.length = 236 → x.energyMj.length = 43 →
     ∃ t, exec (.powerSample x) s = .next t ∧ t.power.inputMv = x.inputMv ∧ t.power.samples = (x.inputW :: s.power.samples).take 125 ∧
       t.power.railMv = x.railMv ∧ t.power.railMa = x.railMa ∧ t.power.temps = x.temps ∧
       t.power.tempMax = List.zipWith max s.power.tempMax x.temps ∧
       t.power.shortUj + 8 * shortRate (readSensors s x) = max (s.power.shortUj + 8 * x.inputW) (8 * shortRate (readSensors s x)) ∧
       t.power.longUj + 8 * longRate (readSensors s x) = max (s.power.longUj + 8 * x.inputW) (8 * longRate (readSensors s x)) ∧
       (t.power.shortUj = 0 → t.power.shortActive = false) ∧ (t.power.longUj = 0 → t.power.longActive = false) ∧
       (300000 ≤ t.power.shortUj → t.power.shortActive = true) ∧
       t.power.throttleTime = (if t.power.throttleReason = 0 then s.power.throttleTime
         else tabCount s.power.throttleTime t.power.throttleReason 8) ∧
       t.power.energy = energyAfter s.power.energy x ∧ t.power.tileLoad = [] ∧ t.cracker.queueLoad = [] ∧
       t.flash = s.flash ∧ t.mem = s.mem ∧ t.tiles = s.tiles ∧ t.train = s.train ∧ t.fabric = s.fabric ∧ t.front = s.front) ∧
  (∀ s : State, ∃ t, exec .thermalLimitStep s = .next t ∧
     (10 * (cfg s 0x200403 : Int) < hottestDie s → t.power.thermalLimitMv = max 620 (s.power.thermalLimitMv - 5)) ∧
     (hottestDie s + 20 ≤ 10 * (cfg s 0x200403 : Int) → t.power.thermalLimitMv = min 850 (s.power.thermalLimitMv + 5)) ∧
     t.power.thermalGates = (List.range 16).foldl (fun g y => tabSet 16 g y (stepThermalGate s y)) s.power.thermalGates ∧
     t.power.temps = s.power.temps ∧ t.power.railSet = s.power.railSet ∧ t.power.samples = s.power.samples ∧
     t.flash = s.flash ∧ t.mem = s.mem ∧ t.tiles = s.tiles ∧ t.stack = s.stack)

/-- A transfer over an interface in service delivers the words of the first of at most four attempts whose codes hold, one over a degraded
interface those of the first that names at most one bit in every word, corrected; the attempts before it are counted (R196, R210, R211).
Over a cut interface every word is delivered poisoned (R213). Nothing passes an interface whose tile and slices are retired, or between
layers of which one is stopped (R32). A failed power cluster, a tile stopped at its floor and its release are recorded; the failed
cluster's tile, and a tile whose stop lasts, are to be retired, and a lasting stop withholds the step's staging cut (R216). -/
def Obligations.StackPartsFailAndRetire : Prop :=
  ((∀ (s : State) (col i : Nat) (l failed : List TransferAttempt) (a : TransferAttempt) (spares : List Bool), col < 384 → i < 5 →
     interfaceStopped s i = false → interfaceRetired s (5 * col + i) = false →
     tabGet 0 s.stack.interfaces (5 * col + i) = 0 → splitAttempts attemptClean 4 l = (failed, some a) →
     ∃ t, exec (.verticalTransfer col i l spares) s = .next t ∧ t.out.getLast? = some (.vertical col i a.words) ∧
       t.stack.tsvRepeats = tabCount s.stack.tsvRepeats (5 * col + i) failed.length ∧
       (failed = [] → t.out = s.out ++ [.vertical col i a.words] ∧ t.stack.tsvUsed = s.stack.tsvUsed ∧
         t.stack.interfaces = s.stack.interfaces ∧ t.train = s.train) ∧
       t.mem = s.mem ∧ t.flash = s.flash ∧ t.power = s.power ∧ t.tiles = s.tiles) ∧
   (∀ (s : State) (col i : Nat) (l failed : List TransferAttempt) (a : TransferAttempt) (spares : List Bool), col < 384 → i < 5 →
     interfaceStopped s i = false → interfaceRetired s (5 * col + i) = false →
     tabGet 0 s.stack.interfaces (5 * col + i) = 1 → splitAttempts attemptCorrectable 4 l = (failed, some a) →
     ∃ t, exec (.verticalTransfer col i l spares) s = .next t ∧ t.out.getLast? = some (.vertical col i (a.words.map correctInFlight)) ∧
       t.stack.tsvRepeats = tabCount s.stack.tsvRepeats (5 * col + i) failed.length ∧
       t.mem = s.mem ∧ t.flash = s.flash ∧ t.power = s.power ∧ t.tiles = s.tiles) ∧
   (∀ (s : State) (col i : Nat) (l : List TransferAttempt) (a : TransferAttempt) (spares : List Bool), col < 384 → i < 5 →
     interfaceStopped s i = false → interfaceRetired s (5 * col + i) = false →
     tabGet 0 s.stack.interfaces (5 * col + i) = 2 →
     exec (.verticalTransfer col i (l ++ [a]) spares) s =
       .next (noteChanges s { s with out := s.out ++ [.vertical col i (a.words.map poisonWord)] })) ∧
   (∀ (s : State) (col i : Nat) (l : List TransferAttempt) (spares : List Bool), col < 384 → i < 5 →
     interfaceStopped s i = true ∨ interfaceRetired s (5 * col + i) = true → exec (.verticalTransfer col i l spares) s = .next s)) ∧
  ((∀ (s : State) (p : Nat), p < 384 → 8 ≤ s.boot.phase → tabGet 0 s.stack.clusters p = 0 → s.stack.retired.contains p = false →
     ∃ t, exec (.powerClusterFail p) s = .next t ∧ tabGet 0 t.stack.clusters p = 1 ∧ t.stack.retiring = setAdd s.stack.retiring p ∧
       t.power.tileSlow = setAdd s.power.tileSlow p ∧ t.boot = s.boot ∧ t.mem = s.mem ∧ t.tiles = s.tiles ∧ t.train = s.train) ∧
   (∀ (s : State) (p mv : Nat), p < 384 → mv < 600 →
     exec (.tileSupplyBelowFloor p mv) s = .next (noteChanges s { s with power := { s.power with
       tileFloor := setAdd s.power.tileFloor p } })) ∧
   (∀ (s : State) (p mv : Nat), p < 384 → 600 < mv →
     exec (.tileSupplyRestored p mv) s = .next (noteChanges s { s with power := { s.power with
       tileFloor := setRemove s.power.tileFloor p } })) ∧
   (∀ (s : State) (p : Nat), p < 384 → s.power.tileFloor.contains p = true → s.stack.retired.contains p = false →
     ∃ t, exec (.tileFloorTimeout p) s = .next t ∧ t.stack.retiring = setAdd s.stack.retiring p ∧ (s.train.cut = false → t.train.withheld = true) ∧
       t.power = s.power ∧ t.mem = s.mem ∧ t.tiles = s.tiles))

/-! ## Memory, home slices, scrubbing and the tick (chapters 6 and 8) -/

/-- An access of a block of the module that writes whole bytes to words whose codes hold stores exactly those bytes: every other byte reads
as before, and the words written read without error, where no running descriptor touches them and their layer is not stopped (R32, R90,
R154, R194, R205). -/
def Obligations.HomeSliceWriteStoresItsBytes : Prop :=
  ∀ (s : State) (who : Initiator) (a : Nat) (l : List Byte), s.mem.wf = true → l ≠ [] → l.length ≤ 64 → a + l.length ≤ hbmEnd →
    (∀ c, who ≠ .remote c) → accessStopped s a l.length = false → s.cache.tagSynd = [] →
    (∀ e ∈ inFlight s, runsMeet [⟨a, l.length⟩] e.2.sources = false ∧ runsMeet [⟨a, l.length⟩] e.2.dests = false) →
    (∀ w, a / 8 ≤ w → 8 * w < a + l.length → neverWritten s.mem w = false ∧ tabGet 0 s.mem.synd w = 0) →
    ∃ t, exec (.homeSliceAccess who a l.length (some l)) s = .next t ∧
      (∀ i, i < l.length → memByte? t.mem (a + i) = l[i]?) ∧
      (∀ b, b < a ∨ a + l.length ≤ b → heldByte t.mem s.free b = heldByte s.mem s.free b) ∧
      (∀ w, a / 8 ≤ w → 8 * w < a + l.length → tabGet 0 t.mem.synd w = 0) ∧
      t.banks = s.banks ∧ t.tiles = s.tiles ∧ t.train = s.train ∧ t.power = s.power ∧ t.flash = s.flash ∧ t.boot = s.boot ∧
      t.out = s.out

/-- An access that reads words whose codes hold changes no byte of memory; it moves lines among the slices and counts; a remote host's must
lie in a region registered for it (R25, R147, R154). An access to an address that Table 1.10 does not map changes no memory; Acorn's and
Hazel's raise their code with detail 0x0102 and the address (R26). -/
def Obligations.HomeSliceReadsAndFaults : Prop :=
  (∀ (s : State) (who : Initiator) (a len : Nat), 1 ≤ len → len ≤ 64 → a + len ≤ hbmEnd →
     inRdmaRegion s who false a len = true → accessStopped s a len = false → s.cache.tagSynd = [] →
     (∀ w, a / 8 ≤ w → 8 * w < a + len → neverWritten s.mem w = false ∧ tabGet 0 s.mem.synd w = 0) →
     ∃ t, exec (.homeSliceAccess who a len none) s = .next t ∧
       t = { s with cache := t.cache, dict := t.dict, free := s.free + 1 } ∧ logsOnly s.dict t.dict) ∧
  (∀ (s : State) (a len : Nat) (w : Option (List Byte)), 1 ≤ len → a < 2 ^ 48 → regionOf a = none →
     exec (.homeSliceAccess .acorn a len w) s = .next (noteChanges s (raise s 0x020E0102 a)) ∧
     exec (.homeSliceAccess .hazel a len w) s = .next (noteChanges s (raise s 0x020F0102 a)))

/-- The return of a fill removes its entry, makes the words that it asked for valid in the line that its set holds, and counts the bytes
read; a write-back that HBM accepts frees its entry and counts the bytes of its dirty sectors; neither changes a value (R150, R154,
R155, R173). A tick of the reference period counts itself, the phase of the instant, and one period for each stalled engine; nothing
else than these counters changes (R145, R170, R314). -/
def Obligations.FillsWriteBacksAndTicks : Prop :=
  ((∀ (s : State) (f : Fill), s.cache.fills.find? (fun x => x.line == f.line) = some f → s.cache.waiting = [] → s.cache.blocked = [] →
     (∀ e ∈ s.tiles, e.2.issued = []) → sliceStopped s f.line = false → hbmServes s f.line false = true →
     (∀ i, i < 8 → (f.want &&& ~~~ f.written).getLsbD i = true → wordLost s (8 * f.line + i) = false) →
     ∃ t, exec (.sliceFillReturn f.line false) s = .next t ∧ t = { s with cache := t.cache, dict := t.dict, free := s.free + 1 } ∧
       t.cache.fills = s.cache.fills.filter (fun x => decide (x.line ≠ f.line)) ∧
       t.cache.readBytes = tabCount s.cache.readBytes (stackOf s (64 * f.line)) (sectorBytes f.want) ∧
       (∀ x, findLine s f.line = some x → ∃ y, findLine t f.line = some y ∧ y.valid = x.valid ||| f.want ∧ y.dirty = x.dirty)) ∧
   (∀ (s : State) (line : Nat) (w : WriteBack), s.cache.writebacks.find? (fun x => x.line == line) = some w → s.cache.waiting = [] →
     s.cache.blocked = [] → (∀ e ∈ s.tiles, e.2.issued = []) → sliceStopped s line = false → hbmServes s line true = true →
     ∃ t, exec (.writeBackComplete line) s = .next t ∧ t = { s with cache := t.cache, dict := t.dict, free := s.free + 1 } ∧
       t.cache.writebacks = s.cache.writebacks.erase w ∧ t.cache.sets = s.cache.sets ∧ t.cache.fills = s.cache.fills ∧
       t.cache.writeBytes = tabCount s.cache.writeBytes (stackOf s (64 * line)) (sectorBytes w.dirty) ∧ t.cache.readBytes = s.cache.readBytes) ∧
   (∀ (s : State) (stack ns : Nat), stack < 12 →
     ∃ t, exec (.hbmRefresh stack ns) s = .next t ∧ t = { s with cache := t.cache, dict := t.dict, free := s.free + 1 } ∧
       t.cache.refreshNs = tabCount s.cache.refreshNs stack ns ∧ t.cache.sets = s.cache.sets)) ∧
  (∀ s : State, ∃ t, exec .stallSample s = .next t ∧ t.power.refPeriods = s.power.refPeriods + 1 ∧
     t.train.phasePeriods = tabCount s.train.phasePeriods (phaseNow s) 1 ∧
     t.tiles = s.tiles.map (fun e => (e.1, countStall ((List.range 3).foldl (fun x k => countStall x k (engineCause s e.1 k e.2)) e.2) 3 (sequencerCause s e.1 e.2))) ∧
     t.resil = { s.resil with gateWait := s.resil.gateWait + (if gateHolds s then 1 else 0) } ∧
     t = { s with power := t.power, train := t.train, tiles := t.tiles, resil := t.resil, cracker := t.cracker, front := t.front,
                  dict := t.dict, free := s.free + 1 } ∧
     t.train = { s.train with phasePeriods := t.train.phasePeriods } ∧
     t.front = { s.front with flushWait := t.front.flushWait })

/-- The patrol scrubber reads word after word: a clean word changes nothing but the position; a word of a Correct region with one wrong data
bit is written back corrected, counted and noted in the scrub log; so is a copy of a word of Husk's state storage (R208, R209). The
first failed channel of a stack raises 0x0808_0B03 and is to be spread, a second of the same stack raises 0x0808_0B04 and stops the
module; either way the contents of HBM, pinned window and tile stores are lost, and what waited for them with them (R277, R289). A held
line whose value has come is written and its requests go on, counted as a repair; one with a source but no value yet is asked for, and
nothing but the fabric and its outputs changes, or waits for the generation in transfer; one without a source loses its group; a line
whose words read again is released as it is (R200, R298). -/
def Obligations.MemoryIsScrubbedAndRepaired : Prop :=
  ((∀ (s : State) (store a n : Nat), scrubOff s store = false → tabGet 0 s.prot.scrubAt store = n → scrubTarget s store n = some (.memory a) →
     s.cache.tagSynd = [] → (scrubTarget s store (n + 1)).isSome = true → decodeSyndrome (heldSyndrome s.mem s.free (a / 8)) = .clean →
     ∃ t, exec (.patrolScrub store) s = .next t ∧ t = { s with prot := t.prot, dict := t.dict, free := s.free + 1 } ∧
       t.prot = { s.prot with scrubAt := tabInsert s.prot.scrubAt store (n + 1) }) ∧
   (∀ (s : State) (store a n i : Nat), scrubOff s store = false → tabGet 0 s.prot.scrubAt store = n → scrubTarget s store n = some (.memory a) →
     s.cache.tagSynd = [] → isDetect s a = false → decodeSyndrome (heldSyndrome s.mem s.free (a / 8)) = .dataBit i →
     (store = 3 → s.prot.scrubRows.contains (2 * (bankKey s a * 32768 + rowNumber s a)) = false) →
     ∃ t, exec (.patrolScrub store) s = .next t ∧
       t.mem = putWord s.mem (a / 8) (heldWord s.mem s.free (a / 8) ^^^ BitVec.ofNat 64 (2 ^ i)) false ∧
       t.prot.corrected = countStore s.prot.corrected store ∧
       tabFind t.prot.scrubLog s.prot.scrubNext = some (a, scrubStore store, 1, currentStep s) ∧
       t.tiles = s.tiles ∧ t.cache = s.cache ∧ t.train = s.train ∧ t.power = s.power ∧ t.flash = s.flash) ∧
   (∀ (s : State) (store n : Nat), scrubOff s store = false → tabGet 0 s.prot.scrubAt store = n → scrubTarget s store n = none →
     ∃ t, exec (.patrolScrub store) s = .next t ∧ t.prot.scrubPasses = tabCount s.prot.scrubPasses store 1 ∧
       t.prot.scrubAt = tabErase s.prot.scrubAt store ∧ t.mem = s.mem) ∧
   (∀ (s : State) (n i : Nat) (pair : Byte × Byte), scrubOff s 4 = false → tabGet 0 s.prot.scrubAt 4 = 2 * n → n < huskCount →
     tabGet (0, 0) s.prot.huskSynd n = pair → decodeSyndrome pair.1 = .dataBit i →
     ∃ t, exec (.patrolScrub 4) s = .next t ∧ t.prot.huskSynd = tabSet (0, 0) s.prot.huskSynd n (0, pair.2) ∧
       t.prot.corrected = countStore s.prot.corrected 4 ∧
       tabFind t.prot.scrubLog s.prot.scrubNext = some (Config.huskAddress (2 * n), scrubStore 4, 1, currentStep s) ∧ t.mem = s.mem)) ∧
  ((∀ (s : State) (stack ch : Nat), 8 ≤ s.boot.phase → stack < 12 → ch < 32 →
     (s.prot.spread ++ s.prot.spreading).any (fun d => decide (d / 32 = stack)) = false →
     ∃ t, exec (.hbmChannelFail stack ch) s = .next t ∧ t.prot.spreading = setAdd s.prot.spreading (32 * stack + ch) ∧
       t.resil.memoryLost = true ∧ (∀ b, b < hbmEnd → memByte? t.mem b = none) ∧ t.banks = s.banks ∧
       t.tiles = s.tiles.foldl (fun u e => tabSet Tile.idle u e.1 (answeredTile e.2)) [] ∧ t.flash = s.flash ∧ t.power = s.power ∧ t.train = s.train) ∧
   (∀ (s : State) (stack ch : Nat), 8 ≤ s.boot.phase → stack < 12 → ch < 32 →
     (s.prot.spread ++ s.prot.spreading).contains (32 * stack + ch) = false →
     (s.prot.spread ++ s.prot.spreading).any (fun d => decide (d / 32 = stack)) = true →
     ∃ t, exec (.hbmChannelFail stack ch) s = .next t ∧ t.resil.state = 6 ∧ t.resil.memoryLost = true ∧
       (∀ b, b < hbmEnd → memByte? t.mem b = none) ∧
       t.prot = { s.prot with heldLines := [], lineValues := [], lineAsked := [], heldAccesses := [] } ∧ t.flash = s.flash)) ∧
  ((∀ (s : State) (line block : Nat) (g : Group) (l : List Byte), s.prot.heldLines.find? (fun h => decide (h.1 = line)) = some (line, block) →
     groupAt s (64 * line) = some g → lineBad s line = true → lineValue s g line = some l → s.cracker.heldRequests = [] →
     s.prot.heldAccesses = [] → (∀ e ∈ s.tiles, e.2.issued = []) →
     ∃ t, exec (.lineRepair line) s = .next t ∧ (∀ i, i < 64 → memByte? t.mem (64 * line + i) = l[i]?) ∧
       (∀ b, b < 64 * line ∨ 64 * line + 64 ≤ b → memByte? t.mem b = memByte? s.mem b) ∧
       t.prot.heldLines = s.prot.heldLines.filter (fun h => decide (h.1 ≠ line)) ∧
       t.prot.savedRepairs = s.prot.savedRepairs + 1 ∧ t.tiles = s.tiles ∧ t.train = s.train ∧ t.resil = s.resil) ∧
   (∀ (s : State) (line block : Nat) (g : Group) (l : List Byte), s.prot.heldLines.find? (fun h => decide (h.1 = line)) = some (line, block) →
     groupAt s (64 * line) = some g → lineBad s line = true → lineValue s g line = some l →
     exec (.lineRepair line) s = .next (noteChanges s (lineFreed ((accessSlices (putMem s (64 * line) l) .hazel (64 * line) 64 true).onProt
       (fun p => { p with savedRepairs := p.savedRepairs + 1 })) line))) ∧
   (∀ (s : State) (line block : Nat) (g : Group) (n : BitVec 24), s.prot.heldLines.find? (fun h => decide (h.1 = line)) = some (line, block) →
     groupAt s (64 * line) = some g → lineBad s line = true → lineValue s g line = none → lineSource s g line = .ask n →
     ∃ t, exec (.lineRepair line) s = .next t ∧ t.mem = s.mem ∧ t.prot = s.prot ∧ t.tiles = s.tiles ∧ t.train = s.train) ∧
   (∀ (s : State) (line block : Nat) (g : Group), s.prot.heldLines.find? (fun h => decide (h.1 = line)) = some (line, block) →
     groupAt s (64 * line) = some g → lineBad s line = true → lineValue s g line = none → lineSource s g line = .none →
     ∃ t, exec (.lineRepair line) s = .next t ∧ t.prot.lostGroups = setAdd s.prot.lostGroups g.number ∧
       t.prot.heldLines = s.prot.heldLines.filter (fun h => decide (h.1 ≠ line)) ∧ t.mem = s.mem ∧ t.tiles = s.tiles) ∧
   (∀ (s : State) (line block : Nat) (g : Group), s.prot.heldLines.find? (fun h => decide (h.1 = line)) = some (line, block) →
     groupAt s (64 * line) = some g → lineBad s line = true → lineValue s g line = none → lineSource s g line = .later →
     exec (.lineRepair line) s = .next s) ∧
   (∀ (s : State) (line block : Nat), s.prot.heldLines.find? (fun h => decide (h.1 = line)) = some (line, block) →
     groupAt s (64 * line) = none ∨ lineBad s line = false →
     exec (.lineRepair line) s = .next (noteChanges s (lineFreed s line))))

/-! ## The tile's sequencer (chapter 4) -/

/-- NOP, LOOP, SETB, LOADB and END run in the sequencer itself: NOP has no effect of its own, LOOP opens a loop over the descriptors that
follow, SETB writes a base register with the sum of one and a constant, LOADB with a word of memory (undefined where a running
descriptor writes it), END makes the tile idle and tells its queue (R84, R90, R91, R94 to R96). -/
def Obligations.SequencerDescriptorsRun : Prop :=
  (∀ (s : State) (n d : Nat), n < 384 → atCounter s n d → headerMet s n d → hazardFree (tileOf s n) [] = true →
    bitsAt d 0 8 = 0x00 → bitsAt d 64 448 = 0 → exec (.nop n) s = .next (noteChanges s (passed s n d id []))) ∧
  (∀ (s : State) (n d : Nat), n < 384 → atCounter s n d → headerMet s n d → hazardFree (tileOf s n) [] = true →
    bitsAt d 0 8 = 0x01 → loopReserved d = false → 1 ≤ bitsAt d 64 16 → bitsAt d 64 16 ≤ 4096 → 1 ≤ bitsAt d 80 32 →
    (tileOf s n).loops.length < 8 → (∀ l ls, (tileOf s n).loops = l :: ls → (tileOf s n).pc + 64 * bitsAt d 64 16 ≤ l.last) →
    exec (.loop n) s = .next (noteChanges s (passed s n d (fun t => { t with loops :=
      ⟨t.pc + 64, (tileOf s n).pc + 64 * bitsAt d 64 16, bitsAt d 80 32, 0, loopSlots t d⟩ :: t.loops }) []))) ∧
  (∀ (s : State) (n d : Nat), n < 384 → atCounter s n d → headerMet s n d → hazardFree (tileOf s n) [] = true →
    bitsAt d 0 8 = 0x02 → bitsAt d 72 56 = 0 → bitsAt d 192 320 = 0 →
    exec (.setb n) s = .next (noteChanges s (passed s n d (fun t =>
      setReg t (bitsAt d 64 4) (regVal t (bitsAt d 68 4) + bitsAt d 128 64)) []))) ∧
  (∀ (s : State) (n d a : Nat) (b : Bytes), n < 384 → atCounter s n d → headerMet s n d →
    a = baseOffset (tileOf s n) (bitsAt d 68 4) (bitsAt d 72 48) → a % 8 = 0 → readFor (.pip n) 1 a 8 s = (.ok b, s) → b.poisoned = false →
    hazardFree (tileOf s n) (storePart n a (a + 7) false) = true → bitsAt d 0 8 = 0x03 → bitsAt d 120 8 = 0 → bitsAt d 128 384 = 0 →
    exec (.loadb n) s = .next (noteChanges s (passed s n d (fun t => setReg t (bitsAt d 64 4) (loadedWord s a b.nat)) [⟨a, 8⟩]))) ∧
  (∀ (s : State) (n d : Nat), n < 384 → atCounter s n d → headerMet s n d → (tileOf s n).issued = [] →
    bitsAt d 0 8 = 0x3F → bitsAt d 64 448 = 0 →
    exec (.endProgram n) s = .next (noteChanges s (endTileProgram (passed s n d id []) n)))

/-- Behind the last descriptor of a LOOP's body the innermost loop adds its increments to their registers and starts its body again; after
the last iteration it gives the registers their values at entry and is left (R94). Base register b15 reads as zero and a write of it is
discarded; a write of another register is what it reads next and leaves the other registers (R84). -/
def Obligations.LoopsAndBaseRegisters : Prop :=
  ((∀ (t : Tile) (l : Loop) (ls : List Loop), t.loops = l :: ls → l.last = t.pc → 1 < l.left →
     (sequenced t).pc = l.first ∧ (sequenced t).loops = { l with left := l.left - 1, done := l.done + 1 } :: ls ∧
     (sequenced t).regs = (l.slots.foldl (fun u x => setReg u x.reg (regVal u x.reg + x.inc.toNat)) t).regs ∧
     (sequenced t).nextNumber = t.nextNumber + 1 ∧ (sequenced t).counters = t.counters) ∧
   (∀ (t : Tile) (l : Loop) (ls : List Loop), t.loops = l :: ls → l.last = t.pc → l.left ≤ 1 → (∀ o ∈ ls, o.last ≠ t.pc) →
     (sequenced t).pc = (t.pc + 64) % 2 ^ 64 ∧ (sequenced t).loops = ls ∧
     (sequenced t).regs = (l.slots.foldl (fun u x => setReg u x.reg x.entry.toNat) t).regs) ∧
   (∀ (t : Tile), (∀ o ∈ t.loops, o.last ≠ t.pc) →
     (sequenced t).pc = (t.pc + 64) % 2 ^ 64 ∧ (sequenced t).loops = t.loops ∧ (sequenced t).regs = t.regs)) ∧
  (∀ (t : Tile) (r q v : Nat), t.regs.length = 16 → r < 16 → q < 16 →
     regVal (setReg t 15 v) q = regVal t q ∧ regVal t 15 = 0 ∧ setReg t 15 v = t ∧
     (r ≠ 15 → regVal (setReg t r v) r = v % 2 ^ 64) ∧ (r ≠ q → regVal (setReg t r v) q = regVal t q))

/-- A descriptor with a reserved operation code, or a VECTOR with a reserved vop, traps the tile with 0x0401_0101 whatever row it is taken
as: nothing is issued (R87, R114). A tile that is idle or trapped, or whose handshakes its supervisor holds, issues no descriptor:
nothing but the free value changes (R32, R88, R115, R216). A descriptor whose fences or counter condition are not met waits: the tile's
state says what it waits for, and no engine runs (R88, R93, Table 4.3). -/
def Obligations.TileHoldsOrTraps : Prop :=
  (∀ row ∈ descriptorRows, ∀ (s : State) (n d : Nat), n < 384 → atCounter s n d →
     (opKnown (bitsAt d 0 8) = false ∨ (bitsAt d 0 8 = 0x20 ∧ vopKnown (bitsAt d 64 8) = false)) →
     exec (row n) s = .next (noteChanges s (trapHere s n 0x04010101))) ∧
  (∀ row ∈ descriptorRows, ∀ (s : State) (n : Nat), n < 384 → tileIssues s n = false →
     exec (row n) s = .next (noteChanges s s)) ∧
  ((∀ (s : State) (n d : Nat), n < 384 → atCounter s n d → bitsAt d 0 8 = 0x00 → bitsAt d 64 448 = 0 → bitAt d 11 = false →
     bitAt d 17 = false → fencesMet (tileOf s n) d = false →
     exec (.nop n) s = .next (noteChanges s (onTile s n (fun t => { t with state := 1, hold := some 8 })))) ∧
   (∀ (s : State) (n d : Nat), n < 384 → atCounter s n d → bitsAt d 0 8 = 0x00 → bitsAt d 64 448 = 0 → bitAt d 11 = false →
     bitAt d 17 = false → fencesMet (tileOf s n) d = true → counterMet (tileOf s n) d = false →
     exec (.nop n) s = .next (noteChanges s (onTile s n (fun t => { t with
       state := 2, wait := (bitsAt d 12 4, bitsAt d 32 32), hold := some 8 })))))

/-- MATMUL, every VECTOR operation and every STREAM issue when their descriptor's operands are well formed and no hazard stands: the
engine's work is done on the state, the descriptor is kept as issued with its footprint, its signal and the requests that it still
makes, its bytes are ordered against those of the descriptors that run, and the sequencer goes on (R86, R88 to R91, R97, R98, R103).
While the gate of the tile's row is 0 a MATMUL waits (R314). -/
def Obligations.EngineDescriptorsIssue : Prop :=
  (∀ (s s1 : State) (n d : Nat) (m : Mat), n < 384 → atCounter s n d → headerMet s n d → gateOpen s n = true → bitsAt d 0 8 = 0x10 →
    matReserved d = false → m = matOf (tileOf s n) d → checkMatmul (contextOf s n).profile m = none →
    hazardFree (tileOf s n) (⟨1 + m.bank, 0, 65535, true⟩ :: Operand.foot n m.a ++ Operand.foot n m.b) = true → runMatmul n m s = (.ok (), s1) →
    exec (.matmul n) s = .next (noteChanges s (launched s1 n d (matmulIssue n m)))) ∧
  (∀ row ∈ vectorRows, ∀ (s s1 : State) (n d : Nat) (v : Vec), n < 384 → atCounter s n d → headerMet s n d → gateOpen s n = true → bitsAt d 0 8 = 0x20 →
    bitsAt d 64 8 = row.1 → vectorAt s n d v → checkVector n v = none → hazardFree (tileOf s n) (vectorFoot n v) = true →
    runVector n v s = (.ok (), s1) →
    exec (row.2 n) s = .next (noteChanges s (launched s1 n d (vectorIssue n (vectorNames (tileOf s n) d) v)))) ∧
  (∀ row ∈ streamRows, ∀ (s s1 : State) (n d v : Nat) (x : Stream), n < 384 → atCounter s n d → headerMet s n d → gateOpen s n = true → bitsAt d 0 8 = 0x08 →
    bitsAt d 118 10 = 0 → bitsAt d 128 384 = 0 → streamAt s n d v x → x.kind = row.1 → checkTensors n x = none → streamAligned x = true →
    hazardFree (tileOf s n) (streamFoot n x) = true → runStream n (bitsAt d 116 2) x s = (.ok (), s1) →
    exec (row.2 n) s = .next (noteChanges s (launched s1 n d (streamIssue n (bitsAt d 116 2) (streamNames (tileOf s n) d v x.kind) x s)))) ∧
  (∀ (s : State) (n d : Nat) (m : Mat), n < 384 → atCounter s n d → headerMet s n d → gateOpen s n = false → bitsAt d 0 8 = 0x10 →
    matReserved d = false → m = matOf (tileOf s n) d → checkMatmul (contextOf s n).profile m = none →
    hazardFree (tileOf s n) (⟨1 + m.bank, 0, 65535, true⟩ :: Operand.foot n m.a ++ Operand.foot n m.b) = true →
    exec (.matmul n) s = .next (noteChanges s (onTile s n (fun t => { t with state := 1, hold := some 9 }))))

/-- The first waiting program starts on an idle tile of the current step (R41, R84): the program counter is its entry, b0 the tile's own
store, b1 to b12 its arguments, b13 the tile's number, b14 the step, b15 zero; loops, issued descriptors and channel halts are cleared;
every other tile is as it was. An issued descriptor without a fault ends with its signal, unless its stream channel has halted; one with
a fault halts its stream channel and traps the tile with the earliest fault in program order; while its reads have not returned, or the
home slices have not accepted its writes, it does not end (R91, R92, R115, R161, R167). -/
def Obligations.ProgramsStartAndEnd : Prop :=
  (∀ (s : State) (n : Nat) (p : Program) (rest : List Program), n < 384 → (tileOf s n).waiting = p :: rest → (tileOf s n).state = 0 →
     p.step = currentStep s → tilePowered s n = true → accessDetail s (.pip n) false p.entry 64 = none → p.args.length = 12 →
     ∃ t, exec (.tileProgramStart n) s = .next t ∧
       tileOf t n = { tileOf s n with
         state := 1, pc := p.entry, loops := [], nextNumber := 0, issued := [], program := some p, waiting := rest, trap := none, halts := [],
         regs := BitVec.ofNat 64 (0x020000000000 + n * 0x200000) :: p.args ++ [BitVec.ofNat 64 n, BitVec.ofNat 64 p.step, 0] } ∧
       (∀ m, m ≠ n → tileOf t m = tileOf s m) ∧ t.mem = s.mem ∧ t.banks = s.banks ∧ t.front = s.front ∧ t.train = s.train ∧
       t.power = { s.power with restart := t.power.restart, rowIdle := t.power.rowIdle }) ∧
  ((∀ (s : State) (n number : Nat) (e : Issued), n < 384 → (tileOf s n).issued.find? (fun d => d.number == number) = some e →
     (tileOf s n).issued.all (fun x => !(x.engine == e.engine && x.channel == e.channel && decide (x.number < e.number))) = true →
     tilePowered s n = true → e.reads = [] → e.waits = [] → e.writes = [] → e.fault = none → (e.engine = 2 → tabGet 0 (tileOf s n).halts e.channel = 0) →
     exec (.descriptorComplete n number) s = .next (noteChanges s (signalCounter (onTile s n (fun t =>
       { t with issued := t.issued.filter (fun d => decide (d.number ≠ number)) })) e.signal))) ∧
   (∀ (s : State) (n number : Nat) (e : Issued) (c : Code), n < 384 →
     (tileOf s n).issued.find? (fun d => d.number == number) = some e →
     (tileOf s n).issued.all (fun x => !(x.engine == e.engine && x.channel == e.channel && decide (x.number < e.number))) = true →
     tilePowered s n = true → e.reads = [] → e.waits = [] → e.writes = [] → e.fault = some c → e.engine ≠ 2 →
     exec (.descriptorComplete n number) s = .next (noteChanges s (detectTrap (onTile s n (fun t =>
       { t with issued := t.issued.filter (fun d => decide (d.number ≠ number)) })) n
         ⟨e.number, c, e.block, e.depth, e.pc, e.iterations⟩))) ∧
   (∀ (s : State) (n number : Nat) (e : Issued) (c : Code), n < 384 →
     (tileOf s n).issued.find? (fun d => d.number == number) = some e →
     (tileOf s n).issued.all (fun x => !(x.engine == e.engine && x.channel == e.channel && decide (x.number < e.number))) = true →
     tilePowered s n = true → e.reads = [] → e.waits = [] → e.writes = [] → e.fault = some c → e.engine = 2 →
     exec (.descriptorComplete n number) s = .next (noteChanges s (detectTrap (onTile (onTile s n (fun t =>
       { t with issued := t.issued.filter (fun d => decide (d.number ≠ number)) })) n (fun t =>
         { t with halts := tabSet 0 t.halts e.channel c.toNat })) n ⟨e.number, c, e.block, e.depth, e.pc, e.iterations⟩))) ∧
   (∀ (s : State) (n number : Nat) (e : Issued), n < 384 → (tileOf s n).issued.find? (fun d => d.number == number) = some e →
     e.reads ≠ [] ∨ e.waits ≠ [] ∨ e.writes ≠ [] → exec (.descriptorComplete n number) s = .next s))

/-- Once every issued descriptor has ended, a detected fault becomes the tile's trap record with the program's step, the tile is trapped,
its program's entry learns of it, and the fault is a local fault of the step (R115, R142). -/
def Obligations.TrapRecordsTheEarliestFault : Prop :=
  (∀ (s : State) (n : Nat) (i : TrapInfo) (p : Program), n < 384 → (tileOf s n).trap = some i → (tileOf s n).issued = [] →
    (tileOf s n).program = some p →
    exec (.trap n) s = .next (noteChanges s (localFault (onEntry (onTile s n (fun t => { t with
        state := 3, record := some (i, p.step), trap := none, program := none, loops := [] })) p.queue p.seq (fun e => { e with
          trapped := setAddSorted e.trapped n
          tilesLeft := setRemove e.tilesLeft n
          code := if e.trapped.all (fun m => decide (n < m)) then i.code else e.code })) i.code n))) ∧
  (∀ (s : State) (n : Nat) (i : TrapInfo), n < 384 → (tileOf s n).trap = some i → (tileOf s n).issued = [] →
    (tileOf s n).program = none →
    exec (.trap n) s = .next (noteChanges s (localFault (onTile s n (fun t => { t with
        state := 3, record := some (i, currentStep s), trap := none, program := none, loops := [] })) i.code n)))

/-- An element-wise VECTOR over operands that are read without fault gives, for each coordinate of its destination, the operation applied to
the operands' elements at the coordinate, poisoned when one of them is (R105 to R107, R113, Table 4.14). A reduction gives, for each
coordinate of its destination, the sum, the largest, the sum of squares or the largest magnitude of the source's elements along
dimension 0 (R64, R108). -/
def Obligations.VectorResultsAreThoseOfTheirOperation : Prop :=
  (∀ (s : State) (n : Nat) (v : Vec) (val : Tensor → List Nat → FNum) (mark : Tensor → List Nat → Bool),
     v.vop ≤ 0x15 →
     (∀ c ∈ coords v.dst.ext, ∀ x ∈ v.sources, readNum n v.format x c s = (.ok (val x c, mark x c), s)) →
     vectorOuts n v s = (.ok (((coords v.dst.ext).map (fun c =>
       (c, elementwise (contextOf s n).profile v.format v.vop v.imm0 v.imm1 (v.sources.map (fun x => val x c)),
         v.sources.any (fun x => mark x c)))).foldl (putResult n v) Outs.none), s)) ∧
  (∀ (s : State) (n : Nat) (v : Vec) (val : List Nat → FNum) (mark : List Nat → Bool), vopReduces v.vop = true →
     (∀ c, readNum n v.format v.src0 c s = (.ok (val c, mark c), s)) →
     vectorOuts n v s = (.ok (((coords v.dst.ext).map (fun c =>
       (c, reduction v.format v.vop ((List.range (v.src0.extent 0)).map (fun i => val (i :: c.drop 1))),
         (List.range (v.src0.extent 0)).any (fun i => mark (i :: c.drop 1))))).foldl (putResult n v) Outs.none), s))

/-- A VECTOR whose results go to memory that the tile may write, over words whose codes hold, stores exactly the bytes of its results: every
other byte reads as before, and outside its tile's counters and the counts of narrow writes nothing else changes (R105, R112, R205). -/
def Obligations.VectorStoresItsResults : Prop :=
  ∀ (s : State) (n : Nat) (v : Vec) (o : Outs), n < 384 → s.mem.wf = true → vectorOuts n v s = (.ok o, s) → o.bank = [] →
    tabRising none o.mem = true → o.mem.all (fun e => !e.2.2) = true → bundleDetail s (.pip n) o.mem = none →
    (∀ e ∈ o.mem, neverWritten s.mem (e.1 / 8) = false ∧ tabGet 0 s.mem.synd (e.1 / 8) = 0) →
    v.dests.any (fun d => v.origins.any (clash d)) = false →
    ∃ s1, runVector n v s = (.ok (), s1) ∧
      (∀ a, heldByte s1.mem s.free a = match tabFind o.mem a with | some b => b.1 | none => heldByte s.mem s.free a) ∧
      s1 = { s with mem := s1.mem, prot := s1.prot, tiles := s1.tiles, power := s1.power } ∧
      s1.prot = { s.prot with narrow := s1.prot.narrow } ∧ s1.power = { s.power with tileLoad := s1.power.tileLoad }

/-- MATMUL accumulates, for each element of its region of C, the products of a line of A and a line of B in groups along k, from +0 with
init and else from the bank's element, and keeps the poison of each line (R62, R98 to R101, R113). -/
def Obligations.MatmulAccumulatesEachElement : Prop :=
  ∀ (s : State) (n : Nat) (m : Mat) (x : Context) (a b : Nat → List FNum × Bool) (acc : Nat → FNum × Bool),
    (∀ i, i < m.a.lines → readLine n x.profile m.a i s = (.ok (a i), s)) →
    (∀ j, j < m.b.lines → readLine n x.profile m.b j s = (.ok (b j), s)) →
    (∀ i j, i < m.a.lines → j < m.b.lines → startValue n m (512 * i + 4 * j) s = (.ok (acc (512 * i + 4 * j)), s)) →
    matmulOuts n m x s = (.ok (
      ((List.range m.a.lines).flatMap (fun i => (List.range m.b.lines).map (fun j => (i, j)))).map (fun e =>
        (bankAt n m.bank (512 * e.1 + 4 * e.2) / 4,
          encodeNum 7 (accumulate (m.a.eng == 4) (groupSize x.profile m.a.eng) m.a.depth (acc (512 * e.1 + 4 * e.2)).1 (a e.1).1 (b e.2).1),
          (acc (512 * e.1 + 4 * e.2)).2)),
      (List.range m.a.lines).map (fun i => (a i).2), (List.range m.b.lines).map (fun j => (b j).2)), s)

/-- A LOAD without run-ahead, whose elements are read without fault and unpoisoned, copies each far element to its near place, a STORE each
near element to its far place; a FILL gives every far element the pattern (R164, R166). A row of a GATHER whose index is in range is
read from the far row of that number, a row of a SCATTER is written to it; an index of all ones gives zeros for GATHER and moves nothing
for SCATTER; an index out of range moves nothing and is a fault (R165). -/
def Obligations.StreamsCopyTheirElements : Prop :=
  ((∀ (s : State) (n : Nat) (x : Stream) (val : List Nat → List Byte), x.kind = 1 →
     (∀ c ∈ coords x.far.ext, ∃ b, readFor (.pip n) 4 (x.far.at c) (elemBytes x.far.fmt) s = (.ok b, s) ∧ b.bytes = val c ∧
       b.poisoned = false) →
     moveStream n x s = (⟨.ok (), (coords x.far.ext).foldl (fun b c => bundlePut b (x.near.at c) (val c) false) []⟩, s)) ∧
   (∀ (s : State) (n : Nat) (x : Stream) (val : List Nat → List Byte), x.kind = 2 →
     (∀ c ∈ coords x.far.ext, ∃ b, readFor (.pip n) 4 (x.near.at c) (elemBytes x.far.fmt) s = (.ok b, s) ∧ b.bytes = val c ∧
       b.poisoned = false) →
     moveStream n x s = (⟨.ok (), (coords x.far.ext).foldl (fun b c => bundlePut b (x.far.at c) (val c) false) []⟩, s)) ∧
   (∀ (s : State) (n : Nat) (x : Stream), x.kind = 5 →
     moveStream n x s = (⟨.ok (), (coords x.far.ext).foldl (fun b c =>
       bundlePut b (x.far.at c) (bytesOfNat (elemBytes x.far.fmt) x.pattern) false) []⟩, s))) ∧
  (∀ (x : Stream) (c : List Nat) (i : Nat), x.kind = 3 ∨ x.kind = 4 →
     (i < x.far.extent 1 → i ≠ 256 ^ x.indexBytes - 1 →
       (x.kind = 3 → indexedRow x c i = some ((List.range (x.far.extent 0)).map (fun e =>
         (some (x.far.at [e, i, 0, 0, 0]), x.near.at (e :: c))))) ∧
       (x.kind = 4 → indexedRow x c i = some ((List.range (x.far.extent 0)).map (fun e =>
         (some (x.near.at (e :: c)), x.far.at [e, i, 0, 0, 0]))))) ∧
     (i = 256 ^ x.indexBytes - 1 →
       (x.kind = 3 → indexedRow x c i = some ((List.range (x.far.extent 0)).map (fun e => (none, x.near.at (e :: c))))) ∧
       (x.kind = 4 → indexedRow x c i = some [])) ∧
     (x.far.extent 1 ≤ i → i ≠ 256 ^ x.indexBytes - 1 → indexedRow x c i = none))

/-! ## The Cracker (chapter 7) -/

/-- GATHER, SCATTER, GRAD and FLAT_GATHER run the head command of a channel when it is of their kind, and a fault of a command, before or
while it runs, halts the channel, whose commands are discarded, and leaves the near rows of a GATHER or FLAT_GATHER undefined (R174,
R177 to R180, R186). -/
def Obligations.CrackerCommandsRunOrHalt : Prop :=
  ∀ row ∈ [(1, Instr.crackerGather, gatherBody), (2, Instr.crackerScatter, scatterBody), (3, Instr.grad, gradBody),
      (4, Instr.flatGather, flatBody)],
    (∀ (s s1 t u : State) (c : Nat) (cmd : CrackerCommand), headCommand s s1 c cmd → cmd.kind = row.1 → row.2.2 c cmd s1 = (.ok t, u) →
      exec (row.2.1 c) s = .next (noteChanges s t)) ∧
    (∀ (s s1 u : State) (c : Nat) (cmd : CrackerCommand) (code : Code), headCommand s s1 c cmd → cmd.kind = row.1 →
      row.2.2 c cmd s1 = (.fault code, u) → exec (row.2.1 c) s = .next (noteChanges s (haltChannel (forgetNear c cmd u) c code)))

/-- A GATHER from a region that this module holds whole reads the row of each index, a row of zeros for a pad, and delivers them to the near
rows in order; the command then waits for its requests (R177, R181). An index of GATHER or SCATTER at or beyond the region's rows is the
fault 0x0409_0704: a GATHER then has delivered no row, a SCATTER has written the rows before it (R177, R178, R180). -/
def Obligations.GatherDeliversTableRows : Prop :=
  (∀ (s s0 s1 t : State) (c : Nat) (cmd : CrackerCommand) (idx : List Nat) (val : Nat → Bytes),
     let r := tableRegion s cmd.region
     r.shards = 1 → readIndices c cmd s = (.ok idx, s0) → rowsAhead c cmd r idx s0 = s1 → (∀ i ∈ idx, isPad cmd i = false → ownsRow r i = true ∧ localRow r i < r.rows) →
     (∀ i ∈ idx, isPad cmd i = false → readRow c r (localRow r i) s1 = (.ok (val i), s1)) →
     deliverRows c cmd (idx.zipIdx.map (fun x =>
       (x.2, if isPad cmd x.1 then zeroMarked r.rowBytes else (val x.1).data))) s1 = (.ok (), t) →
     gatherBody c cmd s = (.ok (commandRan t c cmd (idx.map (fun i =>
       if isPad cmd i || !ownsRow r i then [] else sectorsOf (r.base + r.rowBytes * localRow r i) r.rowBytes)) []), t)) ∧
  ((∀ (s s0 : State) (c : Nat) (cmd : CrackerCommand) (idx : List Nat) (i : Nat),
     let r := tableRegion s cmd.region
     readIndices c cmd s = (.ok idx, s0) → i ∈ idx → isPad cmd i = false → ownsRow r i = true → r.rows ≤ localRow r i →
     gatherBody c cmd s = (.fault 0x04090704, rowsAhead c cmd r idx s0)) ∧
   (∀ (s s0 : State) (c : Nat) (cmd : CrackerCommand) (i : Nat) (rest : List Nat),
     let r := tableRegion s cmd.region
     readIndices c cmd s = (.ok (i :: rest), s0) → isPad cmd i = false → r.rows ≤ i →
     scatterBody c cmd s = (.fault 0x04090704, rowsAhead c cmd r (i :: rest) s0)))

/-- The merged row of a GRAD holds, element by element, the exact sum of the row's occurrences rounded once (R186). A page batch that keeps
the limits of R183 enters the tracker with its requests counted, and a request that ends gives its entry back; the last one of a command
ends it (R181, R183). -/
def Obligations.GradMergesAndTracksRequests : Prop :=
  (∀ (rowLen row j : Nat) (l : List (Nat × List Nat × Bool)), j < rowLen →
     (mergedRow rowLen row l).1.length = rowLen ∧
     (mergedRow rowLen row l).1[j]? = some (encodeNum 7 (exactSum ((l.filter (fun x => decide (x.1 = row))).map (fun x =>
       decodeNum 7 (x.2.1.getD j 0))))) ∧
     ((mergedRow rowLen row l).2 = true ↔ ∃ x ∈ l, x.1 = row ∧ x.2.2 = true)) ∧
  ((∀ (s : State) (c : Nat) (b : Nat × List Nat), nextBatch s c = some b → b.2 ≠ [] → huskStopped s = false →
     ∃ t, exec (.batchRelease c) s = .next t ∧
       (channelOf t c).inflight = (channelOf s c).inflight ++ b.2 ∧
       (channelOf t c).batches = (channelOf s c).batches.filter (fun y => decide (y.1 ≠ b.1)) ∧
       t.cracker.sectorRequests = s.cracker.sectorRequests + b.2.length ∧ t.cracker.batches = s.cracker.batches + 1 ∧
       t = { s with cracker := t.cracker, cache := t.cache, dict := t.dict, free := s.free + 1 }) ∧
   (∀ (s : State) (c sector : Nat), (channelOf s c).inflight.contains sector = true → huskStopped s = false →
     exec (.sectorDone c sector) s = .next (noteChanges s (finishCommand (onChannel s c (fun x =>
       { x with inflight := x.inflight.erase sector })) c))) ∧
   (∀ (s : State) (c : Nat), (channelOf s c).ran = true → (channelOf s c).batches = [] → (channelOf s c).inflight = [] →
     (channelOf s c).remote = [] →
     finishCommand s c = signalCounter (onChannel s c (fun x => { x with cmds := x.cmds.drop 1, ran := false, signal := none }))
       (channelOf s c).signal))

/-- MERGE_PASS combines, for an exchanged binding whose rows can be read, are not poisoned and fit the stage, the contributions of each
local row in ascending row order into the reduction buffer and lists the rows; the group's contribution is then final and reduced (R140,
R188). SWEEP_FEED delivers the first row whose lines are all present or sets aside one whose lines are not, and asks for them;
STAGED_ROW_READY delivers a row set aside once its fills are back (R189). -/
def Obligations.RowsMergedAndFed : Prop :=
  (∀ (s s1 s2 : State) (bn : Nat) (rows : List (Nat × List Nat × Bool)) (inb : List RowPart), bn < 32 →
    let b := bindingNow s bn
    let g := groupNow s b.group
    let r := tableRegion s b.region
    let k : CollKey := ⟨r.comm, b.group, 0⟩
    let c := { collAt s k (currentStep s) with fmt := 7 }
    let own := (collGroup s k).2
    let all := inb ++ (if contributes c own then (rows.filter (fun x => ownsRow r x.1)).map (fun x =>
      (⟨x.1, false, own, x.2.1, x.2.2⟩ : RowPart)) else [])
    let order := all.foldl (fun l x => setAddSorted l x.row) []
    let sums := order.flatMap (fun x => (combineParts s2 c g.rowLen x (all.filter (fun y => decide (y.row = x)))).flatMap (bytesOfNat 4))
    let list := wholeSectors s2 b.listBase (order.flatMap (fun x => bytesOfNat 4 (localRow r x)))
    let written := disturb (putMem (putMem s2 g.rbuf sums) b.listBase list) [⟨g.rbuf, sums.length⟩, ⟨b.listBase, list.length⟩]
    let asked := hazelRequests (hazelRequests written 12 false
      (partialSectors s bn ++ sectorsOf b.inboundBase (inboundBytes g.rowLen * (bindingOf s bn).inbound)))
      12 true (sectorsOf g.rbuf sums.length ++ sectorsOf b.listBase list.length)
    (bindingOf s bn).exchanged = true → (bindingOf s bn).merged = false → huskStopped s = false →
    partialRowsOf s bn = (rows, s1) → inboundParts s1 bn = (inb, s2) →
    all.any (fun x => x.poison) = false → order.length ≤ g.stageRows →
    exec (.mergePass bn) s = .next (noteChanges s (saveResult (onWork
      ((onBinding asked bn (fun w => { w with merged := true, mergedRows := order.length })).onCracker (fun k => { k with
        mergedRows := tabSet 0 k.mergedRows bn order.length }))
      b.group (fun x => { x with final := true, reduced := true })) b.group))) ∧
  (∀ (s : State) (bn row : Nat), s.train.sweepBegun = true → (bindingOf s bn).merged = true → huskStopped s = false →
    ((List.range (bindingOf s bn).mergedRows).map (listedRow s (bindingNow s bn))).find? (fun x =>
      !rowFed s bn (bindingNow s bn).group x && (rowPresent s (groupNow s (bindingNow s bn).group) x ||
        decide (stagedAside s < 16384))) = some row →
    rowPresent s (groupNow s (bindingNow s bn).group) row = true →
    ∃ t, exec (.sweepFeed bn) s = .next t ∧ (bindingOf t bn).ready = setAdd (bindingOf s bn).ready row ∧
      (bindingOf t bn).fed = (bindingOf s bn).fed + 1 ∧ t.mem = s.mem ∧ t.tiles = s.tiles ∧ t.train = s.train) ∧
  (∀ (s : State) (bn row : Nat), s.train.sweepBegun = true → (bindingOf s bn).merged = true → huskStopped s = false →
    ((List.range (bindingOf s bn).mergedRows).map (listedRow s (bindingNow s bn))).find? (fun x =>
      !rowFed s bn (bindingNow s bn).group x && (rowPresent s (groupNow s (bindingNow s bn).group) x ||
        decide (stagedAside s < 16384))) = some row →
    rowPresent s (groupNow s (bindingNow s bn).group) row = false →
    ∃ t, exec (.sweepFeed bn) s = .next t ∧ (bindingOf t bn).staging = (bindingOf s bn).staging ++ [row] ∧
      t.cracker.stagedRows = s.cracker.stagedRows + 1 ∧ t.mem = s.mem ∧ t.tiles = s.tiles ∧ t.train = s.train) ∧
  (∀ (s : State) (bn row : Nat), (bindingOf s bn).staging.contains row = true → huskStopped s = false →
    (∀ l ∈ rowLines (groupNow s (bindingNow s bn).group) row, (∀ f ∈ s.cache.fills, f.line ≠ l) ∧
      (∀ x ∈ s.cache.waiting, x.2.1 ≠ l) ∧ (∀ x ∈ s.cache.blocked, x.line ≠ l)) →
    exec (.stagedRowReady bn row) s = .next (noteChanges s (feedRow s bn row)))

/-- A table request that is whole and due is answered: with status 0 from committed state and its rows, else with the status of its refusal
and no rows; one of a later step is held, and beyond 64 held of a member slot it waits in the fabric; each is counted by status (R190,
R191, Table 7.8). A table response of status 0 delivers its rows and, with the last of them, ends the request; one of another status
halts the channel with 0x0409_0708, which leaves the rows that it asked for undefined, and one of status 3 stops the module (R8, R177,
R180, R191). -/
def Obligations.RemoteTableRowsServed : Prop :=
  ((∀ (s s1 : State) (p : Packet), takePacket s 8 p = some s1 → p.elemOffset = 0 → requestWhole p = true →
     slotFull s p = false → huskStopped s = false → (tableRequestOf p.payload).step ≤ currentStep s1 →
     exec (.tableReq p) s = .next (noteChanges s (serveRequest s1 p (tableRequestOf p.payload)))) ∧
   (∀ (s s1 : State) (p : Packet), takePacket s 8 p = some s1 → p.elemOffset = 0 → requestWhole p = true →
     slotFull s p = false → huskStopped s = false → currentStep s1 < (tableRequestOf p.payload).step →
     exec (.tableReq p) s = .next (noteChanges s (s1.onCracker (fun k => { k with heldRequests := k.heldRequests ++ [p] })))) ∧
   (∀ (s : State) (p : Packet) (q : TableRequest), requestStatus s p q ≠ 0 →
     serveRequest s p q = sendPacket (s.onCracker (fun k => { k with served := tabCount k.served (requestStatus s p q) 1 }))
       { blankPacket 9 p.src with
         comm := p.comm, step := q.step, srcSlot := p.dstSlot, dstSlot := p.srcSlot,
         payload := responseHeader q (requestStatus s p q) 0 }) ∧
   (∀ (s : State) (p : Packet), slotFull s p = true → exec (.tableReq p) s = .next s) ∧
   (∀ (s : State) (p : Packet) (q : TableRequest), (tableRegion s q.region).valid = false → requestStatus s p q = 1)) ∧
  ((∀ (s s1 t : State) (p : Packet) (c : Nat) (ch : Channel) (x : RemoteRows), takePacket s 9 p = some s1 → huskStopped s = false →
     s1.cracker.channels.find? (fun e => e.2.remote.any (fun y => y.seq == bitsAt (natOfBytes (p.payload.take 64)) 64 32)) = some (c, ch) →
     ch.remote.find? (fun y => y.seq == bitsAt (natOfBytes (p.payload.take 64)) 64 32) = some x →
     bitsAt (natOfBytes (p.payload.take 64)) 96 4 = 0 →
     deliverRemote c x p.elemOffset ((p.payload.drop 64).zipIdx.map (fun y => (y.1, p.poison.contains (8 + y.2 / 8)))) s1 = (.ok (), t) →
     x.rows.length * x.rowBytes ≤ p.elemOffset + (p.payload.drop 64).length →
     exec (.tableRsp p) s = .next (noteChanges s (finishCommand (onChannel t c (fun y => { y with
       remote := y.remote.filter (fun z => decide (z.seq ≠ bitsAt (natOfBytes (p.payload.take 64)) 64 32)) })) c))) ∧
   (∀ (s s1 : State) (p : Packet) (c : Nat) (ch : Channel) (x : RemoteRows), takePacket s 9 p = some s1 → huskStopped s = false →
     s1.cracker.channels.find? (fun e => e.2.remote.any (fun y => y.seq == bitsAt (natOfBytes (p.payload.take 64)) 64 32)) = some (c, ch) →
     ch.remote.find? (fun y => y.seq == bitsAt (natOfBytes (p.payload.take 64)) 64 32) = some x →
     bitsAt (natOfBytes (p.payload.take 64)) 96 4 ≠ 0 → bitsAt (natOfBytes (p.payload.take 64)) 96 4 ≠ 3 →
     exec (.tableRsp p) s = .next (noteChanges s (haltChannel s1 c 0x04090708))) ∧
   (∀ (s s1 : State) (p : Packet) (c : Nat) (ch : Channel) (x : RemoteRows), takePacket s 9 p = some s1 → huskStopped s = false →
     s1.cracker.channels.find? (fun e => e.2.remote.any (fun y => y.seq == bitsAt (natOfBytes (p.payload.take 64)) 64 32)) = some (c, ch) →
     ch.remote.find? (fun y => y.seq == bitsAt (natOfBytes (p.payload.take 64)) 64 32) = some x →
     bitsAt (natOfBytes (p.payload.take 64)) 96 4 = 3 →
     exec (.tableRsp p) s = .next (noteChanges s (stopModule (haltChannel s1 c 0x04090708)))) ∧
   (∀ (s : State) (c a : Nat) (code : Code) (x : RemoteRows) (row : Nat × Nat), (channelOf s c).remote = [x] → x.rows = [row] →
     accessDetail s (.cracker c) true row.1 x.rowBytes = none → row.1 ≤ a → a < row.1 + x.rowBytes → s.train.cut = true →
     memByte? (haltChannel s c code).mem a = none))

/-! ## The peer fabric (chapter 9) -/

/-- A packet that is not for this node, is of an earlier epoch, or, in a stream, is not the next of its stream, is discarded: it leaves the
fabric's list of delivered packets and gives back its room (R223, R231, R292). A packet that comes too early, or for which there is no
room, waits there. An accepted packet of a stream advances the number expected next, modulo 2^32, and the sixteenth not yet acknowledged
is answered with an ACK (R231). A packet of a collective whose step is over is taken and discarded: it does nothing (R231, R246). -/
def Obligations.StreamsAcceptInOrder : Prop :=
  (∀ row ∈ packetRows, ∀ (s : State) (p : Packet), p.wf = true → huskStopped s = false → packetEarly s p = false → holdFull s p = false →
     slotFull s p = false →
     (p.ptype ≠ row.1 ∨ p.dst ≠ ownNode s ∨ p.epoch < s.fabric.epoch ∨
       (p.src ≠ ownNode s ∧ nodeAttach p.src = 7 ∧ unsequenced row.1 = false ∧ p.streamSeq.toNat ≠ (rxOf s (streamKeyOf p)).expect)) →
     exec (row.2 p) s = .next (noteChanges s (removeDelivered s p))) ∧
  (∀ (s : State) (p : Packet) (ptype : Nat), p.ptype = ptype → p.dst = ownNode s → p.src ≠ ownNode s → nodeAttach p.src = 7 →
     unsequenced ptype = false → p.epoch = s.fabric.epoch → p.streamSeq.toNat = (rxOf s (streamKeyOf p)).expect →
     let s1 := removeDelivered s p
     let r := rxOf s (streamKeyOf p)
     let s2 := setRx s1 { r with expect := (r.expect + 1) % 2 ^ 32, unackedCount := r.unackedCount + 1 }
     takePacket s ptype p = some (if r.unackedCount < 15 then s2 else sendAck s2 (streamKeyOf p))) ∧
  (∀ row ∈ [(1, Instr.data), (3, Instr.go), (7, Instr.inbound)], ∀ (s t : State) (p : Packet), packetEarly s p = false → holdFull s p = false → huskStopped s = false →
     takePacket s row.1 p = some t →
     stalePacket t p = true → exec (row.2 p) s = .next (noteChanges s t))

/-- ALL_REDUCE, REDUCE_SCATTER, ALL_GATHER, ALL_TO_ALL, BROADCAST and EXCHANGE run a member's own part of a collective of their kind once
its READY is sent and its GO is held, and once only (R237 to R241, R188). The chunks of a reduction divide its elements without gap or
overlap, and in each order every slot has one position, the owner's the last (R239). -/
def Obligations.CollectivesRunTheirOwnPart : Prop :=
  (∀ row ∈ [(1, Instr.allReduce, startReduction), (2, Instr.reduceScatter, startReduction), (3, Instr.allGather, startGather),
       (4, Instr.allToAll, startAllToAll), (5, Instr.broadcast, startBroadcast), (6, Instr.exchange, exchangeRows)],
     ∀ (s : State) (k : CollKey), (collAt s k (openStep s k)).kind = row.1 →
       (huskStopped s = false → (collAt s k (openStep s k)).readySent = true → (collAt s k (openStep s k)).decisions ≠ [] → (collAt s k (openStep s k)).ran = false →
         exec (row.2.1 k) s =
           .next (noteChanges s (row.2.2 (onColl s k (openStep s k) (fun c => { c with ran := true })) k (openStep s k)))) ∧
       (huskStopped s = true ∨ (collAt s k (openStep s k)).readySent = false ∨ (collAt s k (openStep s k)).decisions = [] ∨ (collAt s k (openStep s k)).ran = true →
         exec (row.2.1 k) s = .next s)) ∧
  ((∀ (count h : Nat), 0 < h → chunkStart count h 0 = 0 ∧ chunkStart count h h = count ∧
     ∀ i, i < h → chunkStart count h i ≤ chunkStart count h (i + 1)) ∧
   (∀ (n o : Nat) (back : Bool), o < n → (∀ x, x < n → ringPosition n o x back < n) ∧ ringPosition n o o back = n - 1 ∧
     (∀ x y, x < n → y < n → ringPosition n o x back = ringPosition n o y back → x = y)) ∧
   (∀ (size lo hi : Nat), 0 < size → lo ≤ hi →
     (packetRuns size lo hi).foldl (fun a r => a + r.2) 0 = hi - lo ∧ ∀ r ∈ packetRuns size lo hi, 1 ≤ r.2 ∧ r.2 ≤ size ∧ lo ≤ r.1))

/-- DATA, READY, GO, RESULT and INBOUND of the current step act when they are taken: a reduction's DATA is combined or forwarded, other DATA
is written, READY counts at its root, GO brings its decisions, RESULT the reduced summary, INBOUND its record (R134, R188, R240, R241,
R244). -/
def Obligations.CollectivePacketsAct : Prop :=
  (∀ (s t : State) (p : Packet), packetEarly s p = false → holdFull s p = false → huskStopped s = false →
    takePacket s 1 p = some t → stalePacket t p = false →
    ((collAt t ⟨p.comm, p.group, p.collId⟩ p.step).kind = 1 ∨ (collAt t ⟨p.comm, p.group, p.collId⟩ p.step).kind = 2) →
    exec (.data p) s = .next (noteChanges s (reductionData t ⟨p.comm, p.group, p.collId⟩ p.step p))) ∧
  (∀ (s t : State) (p : Packet), packetEarly s p = false → holdFull s p = false → huskStopped s = false →
    takePacket s 1 p = some t → stalePacket t p = false →
    3 ≤ (collAt t ⟨p.comm, p.group, p.collId⟩ p.step).kind → fmtBytes (collAt t ⟨p.comm, p.group, p.collId⟩ p.step).fmt ≠ 0 →
    exec (.data p) s = .next (noteChanges s (moveReceived t ⟨p.comm, p.group, p.collId⟩ p.step p))) ∧
  (∀ (s t : State) (p : Packet), huskStopped s = false → takePacket s 2 p = some t →
    stalePacket t p = false → isRoot t ⟨p.comm, p.group, p.collId⟩ = true →
    exec (.ready p) s = .next (noteChanges s (readyAtRoot (countTie t p) p))) ∧
  (∀ (s t : State) (p : Packet), huskStopped s = false → takePacket s 3 p = some t →
    stalePacket t p = false →
    exec (.go p) s = .next (noteChanges s (goAtMember t p))) ∧
  (∀ (s t : State) (p : Packet), huskStopped s = false → takePacket s 4 p = some t → p.step = currentStep t → t.train.reducedSummary = none →
    let r := { summaryOf p.payload with digest := BitVec.ofNat 128 (natOfBytes ((p.payload.drop 32).take 16)) }
    exec (.result p) s = .next (noteChanges s (tryDecide (t.onTrain (fun x => { x with reducedSummary := some r }))))) ∧
  (∀ (s t : State) (p : Packet) (bn : Nat), packetEarly s p = false → huskStopped s = false →
    takePacket s 7 p = some t → stalePacket t p = false → bindingOfGroup t p.group = some bn →
    exec (.inbound p) s = .next (noteChanges s (placeInbound (countInbound t bn p) bn p.elemOffset
      (p.payload.zipIdx.map (fun x => (x.1, p.poison.contains (x.2 / 8)))))))

/-- An ACK frees the packets of its stream up to the one it names, and packets that wait for the retransmit store go out; the timer of an
unacknowledged packet sends an ACK; a stream without an advancing ACK, or one that a PATH_NOTICE names, sends its unacknowledged packets
again, in order (R231, R233). At the root's deadline a collective whose GO is not sent has expired, a READY that waits then counts as a
tie; a finished collective is done, saves its result, or lets its sweep group merge, and signals (R188, R242, R244). -/
def Obligations.AcknowledgementsAndDeadlines : Prop :=
  ((∀ (s t : State) (p : Packet) (i : Nat), huskStopped s = false → takePacket s 5 p = some t →
     let k : StreamKey := ⟨ownNode t, p.src, p.arg.toNat / 2 ^ 32 % 4, p.comm⟩
     (txOf t k).unacked.findIdx? (fun q => decide (q.streamSeq.toNat = p.arg.toNat % 2 ^ 32)) = some i →
     exec (.ack p) s = .next (noteChanges s (drainSend t.fabric.toSend.length
       (setTx t { txOf t k with unacked := (txOf t k).unacked.drop (i + 1) })))) ∧
   (∀ (s : State) (k : StreamKey), (rxOf s k).unackedCount ≠ 0 → exec (.ackTimer k) s = .next (noteChanges s (sendAck s k))) ∧
   (∀ (s : State) (k : StreamKey), (txOf s k).unacked ≠ [] →
     exec (.resendTimeout k) s = .next (noteChanges s ((txOf s k).unacked.foldl (fun t q =>
       forward (t.onFabric (fun f => { f with resends := f.resends + 1 })) q none) (raise s 0x030A0907 (nodePosition k.dst))))) ∧
   (∀ (s t : State) (p : Packet), huskStopped s = false → takePacket s 6 p = some t →
     exec (.pathNotice p) s = .next (noteChanges s
       ((t.fabric.tx.filter (fun x => decide (x.key.dst.toNat = p.elemOffset % 2 ^ 24))).foldl resendStream t)))) ∧
  ((∀ (s : State) (k : CollKey), (collAt s k (openStep s k)).timer = true → (collAt s k (openStep s k)).goSent = false → isRoot s k = true →
     s.fabric.delivered = [] →
     exec (.reductionDeadline k) s = .next (noteChanges s (maybeGo (onColl s k (openStep s k) (fun c =>
       { c with expired := true, timer := false })) k (openStep s k)))) ∧
   (∀ (s : State) (k : CollKey), k.group = noGroup → (collAt s k (openStep s k)).done = false →
     collFinished s (collAt s k (openStep s k)) = true →
     exec (.collectiveComplete k) s = .next (noteChanges s (signalCounter (setColl s { collAt s k (openStep s k) with done := true })
       (collAt s k (openStep s k)).signal))) ∧
   (∀ (s : State) (k : CollKey), k.group < 4096 → (collAt s k (openStep s k)).done = false →
     collFinished s (collAt s k (openStep s k)) = true → (carrierNow s = some k.group → s.train.reducedSummary ≠ none) →
     exec (.collectiveComplete k) s = .next (noteChanges s (signalCounter
       (saveResult (onWork (setColl s { collAt s k (openStep s k) with done := true }) k.group (fun w => { w with reduced := true })) k.group)
       (collAt s k (openStep s k)).signal))) ∧
   (∀ (s : State) (k : CollKey) (bn : Nat), 4096 ≤ k.group → k.group ≠ noGroup → (collAt s k (openStep s k)).done = false →
     collFinished s (collAt s k (openStep s k)) = true → carrierNow s ≠ some k.group → bindingOfGroup s k.group = some bn →
     exec (.collectiveComplete k) s = .next (noteChanges s (signalCounter
       (onBinding (setColl s { collAt s k (openStep s k) with done := true }) bn (fun w => { w with exchanged := true }))
       (collAt s k (openStep s k)).signal))))

/-- Training ends by the lanes that are good: eight or more bring the port up, four to seven bring it up at half width with 0x030B_0903,
fewer, or a port of another version, leave it in training with their code (R221, Table 9.3, Table 9.6). -/
def Obligations.TrainingOutcomeByLanes : Prop :=
  ∀ row ∈ [Instr.portTrainingDone, Instr.trainingRetry], ∀ (s : State) (port : Nat) (good : NatSet) (version : Nat), port < 7 →
    (portOf s port).state = 1 → 8 ≤ s.boot.phase →
    let mode := cfgElem s 0x500001 port
    let ok := (List.range (if mode = 1 then 9 else 8)).filter (fun n => good.contains n)
    (version ≠ modeVersion mode → ∃ t, exec (row port good version) s = .next t ∧ (portOf t port).state = 1 ∧
      (portOf t port).faultCode = 0x030B0905) ∧
    (version = modeVersion mode → ok.length < 4 → ∃ t, exec (row port good version) s = .next t ∧ (portOf t port).state = 1 ∧
      (portOf t port).faultCode = 0x030B0904) ∧
    (version = modeVersion mode → 8 ≤ ok.length → s.fabric.reroute = [] → (portOf s port).outbox = [] →
      ∃ t, exec (row port good version) s = .next t ∧ (portOf t port).state = 2 ∧ (portOf t port).txSeq = 0 ∧
        (portOf t port).rxLast = 0xFFF ∧ (portOf t port).replay = []) ∧
    (version = modeVersion mode → 4 ≤ ok.length → ok.length < 8 → s.fabric.reroute = [] → (portOf s port).outbox = [] →
      ∃ t, exec (row port good version) s = .next t ∧ (portOf t port).state = 3 ∧ (portOf t port).faultCode = 0x030B0903)

/-- A lane that fails in a port of mode 1 with its spare free takes the spare with 0x030B_0902; otherwise the port goes back through
training; a hop deadline and a lost port fail the hop (R220, R225, Table 9.3). A port of mode 1 that is up and has a credit of virtual
channel 0 sends a sequenced probe, which takes the credit, and keeps it for replay (R223, R225). A flit whose CRC or codes fail is
answered with a nak once, until the replayed flit arrives; a flit that is in sequence is accepted and counted, its payload taken, its
header's acknowledgement and credits are given, and it is acknowledged with the credits for its channel; one out of sequence is refused
(R222 to R224). What the FEC corrected is counted (R219). -/
def Obligations.LinksFailAndFlitsInSequence : Prop :=
  ((∀ (s : State) (port lane : Nat), port < 7 → lane < 8 → 8 ≤ s.boot.phase → (portOf s port).state = 2 → cfgElem s 0x500001 port = 1 →
     (portOf s port).spareUsed = false → (portOf s port).badLanes = [] →
     ∃ t, exec (.laneFail port lane) s = .next t ∧ (portOf t port).state = 2 ∧ (portOf t port).spareUsed = true ∧
       (portOf t port).badLanes = [lane] ∧ (portOf t port).faultCode = 0x030B0902 ∧ t.mem = s.mem ∧ t.out = s.out) ∧
   (∀ (s : State) (port lane : Nat), port < 7 → lane < 8 → (portOf s port).state = 1 → (portOf s port).badLanes.contains lane = false →
     ∃ t, exec (.laneFail port lane) s = .next t ∧ (portOf t port).state = 1 ∧
       (portOf t port).badLanes = setAddSorted (portOf s port).badLanes lane ∧ t.out = s.out) ∧
   (∀ (s : State) (port : Nat), port < 7 → 2 ≤ (portOf s port).state → (cfgElem s 0x500001 port ≠ 1 ∨ (portOf s port).replay ≠ []) →
     exec (.hopDeadline port) s = .next (noteChanges s (failHop s port 1))) ∧
   (∀ (s : State) (port : Nat), port < 7 → 8 ≤ s.boot.phase → (portOf s port).outbox = [] → (portOf s port).replay = [] →
     (portOf (failHop s port 1) port).state = 1 ∧ (portOf (failHop s port 1) port).hopFailures = (portOf s port).hopFailures + 1 ∧
     (portOf (failHop s port 1) port).faultCode = 0x030B0901)) ∧
  (∀ (s : State) (port : Nat), port < 7 → 2 ≤ (portOf s port).state → cfgElem s 0x500001 port = 1 → (portOf s port).replay.length < 1280 →
     0 < tabGet 0 (portOf s port).credits 0 →
     ∃ t bytes, exec (.probe port) s = .next t ∧ t.out = s.out ++ [.flit port bytes] ∧ bytes.length = 256 ∧
       (portOf t port).txSeq = ((portOf s port).txSeq + 1) % 4096 ∧
       (portOf t port).credits = tabModify 0 (portOf s port).credits 0 (· - 1) ∧
       (portOf t port).replay = (portOf s port).replay ++ [⟨(portOf s port).txSeq, bytes, none⟩] ∧
       t.fabric.flitsSent = tabCount s.fabric.flitsSent port 1 ∧ t.mem = s.mem ∧ t.tiles = s.tiles ∧ t.train = s.train) ∧
  ((∀ (s : State) (port : Nat) (flit : List Byte) (fec : List Nat), port < 7 → 2 ≤ (portOf s port).state → flitGood flit = false →
     exec (.flitReceive port ⟨flit, fec⟩) s = .next (noteChanges s (refuseFlit (countFec s port fec) port))) ∧
   (∀ (s : State) (port : Nat), (portOf s port).discarding = true → refuseFlit s port = s) ∧
   (∀ (s : State) (port : Nat) (flit : List Byte) (fec : List Nat), port < 7 → 2 ≤ (portOf s port).state → flitGood flit = true →
     let h := linkHeaderOf (natOfBytes (flit.take 8))
     let s1 := (onPort (takeHeader (countFec s port fec) port h) port (fun p => { p with
         rxLast := h.seq, discarding := false, granted := tabModify 0 p.granted h.vc (· - 1) })).onFabric
       (fun k => { k with flitsReceived := tabCount k.flitsReceived port 1 })
     h.valid = true → h.seq = ((portOf s port).rxLast + 1) % 4096 →
     exec (.flitReceive port ⟨flit, fec⟩) s =
       .next (noteChanges s (pumpPort (answerFlit (if h.probe then s1 else takePayload s1 port h flit) port h.vc) port))) ∧
   (∀ (s : State) (port : Nat) (flit : List Byte) (fec : List Nat), port < 7 → 2 ≤ (portOf s port).state → flitGood flit = true →
     let h := linkHeaderOf (natOfBytes (flit.take 8))
     h.valid = true → h.seq ≠ ((portOf s port).rxLast + 1) % 4096 →
     exec (.flitReceive port ⟨flit, fec⟩) s = .next (noteChanges s (pumpPort (refuseFlit (takeHeader (countFec s port fec) port h) port) port))))

/-! ## The training step (chapter 5) -/

/-- DENSE_CHECK_UPDATE checks the reduced gradient of a group that is not the carrier's before the cut; a dense group whose check feeds no
detection is updated into its shadow slot, one whose check does counts as updated without a change; either way its class 1 hints are
cleared. An update whose live slot has a held line waits for its repair (R128 to R130, R159, R200). STAGING_CUT fixes the staged set,
forms the module's step summary with the digest it leaves, keeps the retirements decided so far for the boundary, and issues the
carrier's contribution with the summary (R44, R133, R212). -/
def Obligations.GroupsCheckedUpdatedAndCut : Prop :=
  (∀ (s : State) (g : Nat), g < 4096 → (groupNow s g).valid = true → (workOf s g).reduced = true → (workOf s g).checked = false →
     carrierNow s ≠ some g → s.train.cut = false →
     let s1 := makeCheck s (groupNow s g)
     (feedsFlag (workOf s1 g) = false → awaitsLine s (groupNow s g) = false → (denseReads s1 (groupNow s g)).1.held = false →
       exec (.denseCheckUpdate g) s = .next (noteChanges s (unhint (updateGroup s1 (groupNow s g)).1 g))) ∧
     (feedsFlag (workOf s1 g) = false → awaitsLine s (groupNow s g) = true → exec (.denseCheckUpdate g) s = .next s) ∧
     (feedsFlag (workOf s1 g) = true →
       exec (.denseCheckUpdate g) s = .next (noteChanges s (unhint (onWork s1 g (fun w => { w with updated := true })) g)))) ∧
  (∀ (s : State) (carrier : Nat), carrierNow s = some carrier → s.train.cut = false → s.train.withheld = false → s.resil.state ≤ 1 →
     s.resil.memoryLost = false → s.resil.twinState ≠ 2 → cutGateOpen s = true → cutReady s carrier = true →
     let s1 := (fixStagedSet s).1
     let summary := ownSummaryOf s1 carrier (fixStagedSet s).2
     let s2 := s1.onTrain (fun t => { t with
       cut := true
       lastCut := currentStep s
       stepState := 1
       ownSummary := some summary
       retireCut := decide (s.stack.retiring ≠ [] ∨ s.stack.sliceRetiring ≠ [])
       cutRetire := s.stack.retiring
       cutSlices := s.stack.sliceRetiring })
     exec .stagingCut s = .next (noteChanges s
       (tryDecide (issueCarrier (sendTwinDigest s2 summary) carrier summary))))

/-- The reduced summary ORs the flags of the included and the deferred summaries and the gradients' own, agrees when every included digest
is the root's, and bears the root's digest (R247). After its cut and the carrier's GO the root that holds every summary due sends RESULT
to each Henelo slot, once in the step (R247). -/
def Obligations.SummariesReducedAndSent : Prop :=
  (∀ (own : Summary) (flag : Bool) (inc dfr : List Summary),
     let r := reduceSummaries own flag inc dfr
     (r.nonfinite = true ↔ flag = true ∨ ∃ x ∈ inc ++ dfr, x.nonfinite = true) ∧
     (r.overBound = true ↔ ∃ x ∈ inc ++ dfr, x.overBound = true) ∧ (r.fault = true ↔ ∃ x ∈ inc ++ dfr, x.fault = true) ∧
     (r.agree = true ↔ ∀ x ∈ inc, x.digest = own.digest) ∧ r.digest = own.digest) ∧
  (∀ (s : State) (c : Coll) (own : Summary) (inc dfr : List Summary), carrierColl s = some c → s.train.ownSummary = some own →
     isRoot s c.key = true → s.train.cut = true → c.decisions ≠ [] → rootHolds s c.key.comm (currentStep s) = false →
     olderSlots (collGroup s c.key).1 = [] → s.resil.resultSentFor ≠ some (currentStep s) →
     summariesOf c.summaries ((heneloSlots (collGroup s c.key).1).filter (fun x => decide (c.decisions.getD x 2 = 0))) = some inc →
     summariesOf s.fabric.carrierDeferred c.deferredIn = some dfr →
     let m := reduceSummaries own c.flagOr inc dfr
     let bytes := summaryBytes { m with digest := 0 } ++ bytesOfNat 16 own.digest.toNat
     let sent := (heneloSlots (collGroup s c.key).1).foldl (fun (t : State) (x : Nat) => sendPacket t { collPacket t c 4 x with payload := bytes }) s
     exec .resultSend s = .next (noteChanges s (sent.onResil (fun x => { x with resultSentFor := some (currentStep s) }))))

/-- SWEEP_ROW writes a delivered row whose results are finite to its stage slot and marks it complete, then writes its moments; a row with a
result that is not finite is held with 0x0500_0501 (R138, R139). SWEEP_WRITE_ACK writes the weights once the moments are acknowledged.
An interrupted sweep goes on from its stage slots: complete slots are replayed, filling ones freed (R141). -/
def Obligations.SweepWritesRowsInOrder : Prop :=
  ((∀ (s : State) (group row bn : Nat), 4096 ≤ group → group < 4128 → bindingOfGroup s group = some bn → s.train.sweepBegun = true →
     (bindingOf s bn).ready.contains row = true → sweepHeld s = false →
     let g := groupNow s group
     let rank := (((List.range (bindingOf s bn).mergedRows).map (listedRow s (bindingNow s bn))).findIdx? (fun x => x == row)).getD 0
     let s0 := writeCoefficients s
     let r := (rowReads s0 g rank row).1
     let s1 := (rowReads s0 g rank row).2
     let l := updateResults (ownContext s1) r g.rowLen
     let s3 := putThrough (onBinding s1 bn (fun w => { w with ready := setRemove w.ready row })) (.pip g.tileFirst) (stageSlot g rank)
       (stageHeader (currentStep s) 1 group g.rowLen row)
     awaitsRow s g row = false → r.held = false → r.error = false →
     (l.any (fun y => y.bad) = true →
       exec (.sweepRow group row) s = .next (noteChanges s ((raise (setStageState s3 g rank 0 row) 0x05000501 row).onTrain (fun t =>
         { t with lastHeldRow := row + group * 2 ^ 32, sweep := t.sweep ++ [⟨group, row, rank, rank, 0, false, false, true⟩] })))) ∧
     (l.any (fun y => y.bad) = false →
       ∃ t, exec (.sweepRow group row) s = .next t ∧
         t.mem = (writePlanes (setStageState (writeUpdated s3 (.pip g.tileFirst) l ((List.range 6).map (fun p => stageSlot g rank + 64 + 2 * g.rowLen * p)))
           g rank 2 row) g rank row [2, 3, 4, 5]).mem ∧
         (⟨group, row, rank, rank, 2, false, false, false⟩ : SweptRow) ∈ t.train.sweep ∧ (group, row) ∈ t.resil.touched)) ∧
   (∀ (s : State) (group row : Nat) (x : SweptRow), s.train.sweep.find? (fun y => decide (y.group = group ∧ y.row = row)) = some x →
     x.held = false → x.weightsAcked = false → x.momentsAcked = false → sweepHeld s = false →
     ∃ t, exec (.sweepWriteAck group row) s = .next t ∧ t.mem = (writePlanes s (groupNow s group) x.slot row [0, 1]).mem ∧
       t.train.sweep.find? (fun y => decide (y.group = group ∧ y.row = row)) = some { x with momentsAcked := true }) ∧
   (∀ (s : State) (group row : Nat) (x : SweptRow), s.train.sweep.find? (fun y => decide (y.group = group ∧ y.row = row)) = some x →
     x.held = false → x.weightsAcked = false → x.momentsAcked = true → sweepHeld s = false →
     ∃ t, exec (.sweepWriteAck group row) s = .next t ∧ t.mem = s.mem ∧
       t.train.sweep.find? (fun y => decide (y.group = group ∧ y.row = row)) = some { x with weightsAcked := true } ∧
       t = { s with train := t.train, dict := t.dict, free := s.free + 1 } ∧ t.train = { s.train with sweep := t.train.sweep })) ∧
  ((∀ s : State, s.train.sweepBegun = true → sweepHeld s = false →
     let rest := fun (w : BindingWork) => { w with ready := [], staging := [] }
     let s1 := (s.onTrain (fun t => { t with sweep := [] })).onCracker (fun k => { k with
       bindings := k.bindings.foldl (fun (t : Tab BindingWork) (e : Nat × BindingWork) => tabSet BindingWork.none t e.1 (rest e.2)) k.bindings })
     exec .sweepResume s = .next (noteChanges s (((validGroups s.dict.values).filter (fun g => decide (4096 ≤ g.number))).foldl resumeGroup s1))) ∧
   (∀ (s : State) (g : Group) (row : Nat), g.stageRows = 1 → stageState s g 0 = (2, currentStep s, row) →
     resumeGroup s g = (writeBack14 s g 0 row [2, 3, 4, 5, 0, 1]).onTrain (fun x => { x with
       sweep := x.sweep ++ [⟨g.number, row, 0, 0, 2, true, true, false⟩] })) ∧
   (∀ (s : State) (g : Group) (step row : Nat), g.stageRows = 1 → stageState s g 0 = (1, step, row) →
     resumeGroup s g = setStageState s g 0 0 row))

/-! ## The dictionary server (chapter 13) -/

/-- A write of 1 to a WO object of type BOOL does that object's action at the next write ordinal and is answered; a write of 0 is answered
and does nothing more (R33, R117, R192, R217, R251, R282, R323, R325, R328, R340). -/
def Obligations.SwitchWritesAct : Prop :=
  ∀ row ∈ ([(0x200203, .energyClear, fun s => s.onPower (fun p => { p with energy := [], queueEnergy := [] })),
      (0x200303, .throttleClear, fun s => s.onPower (fun p => { p with throttleTime := [] })),
      (0x200404, .tempClear, fun s => s.onPower (fun p => { p with tempMax := p.temps })),
      (0x280005, .paceClear, fun s => s.onPower (fun p => { p with paceCleared := true })),
      (0x300406, .memCountersClear, fun s => s.onCache (fun c => { c with readBytes := [], writeBytes := [], activates := [], turns := [], refreshNs := [], hits := [], misses := [], evictions := [], runaheadFills := 0, runaheadDropped := 0 })),
      (0x300508, .protCountersClear, clearProtCounters),
      (0x380309, .crackerCountersClear, clearCrackerCounters),
      (0x400401, .tileCountersClear, clearTileCounters),
      (0x500508, .fabricCountersClear, fun s => s.onFabric (fun k => { k with flitsSent := [], flitsReceived := [], retries := [], fecCorrected := [], detours := 0, resends := 0, ties := 0 })),
      (0x58120C, .feCountersClear, clearFeCounters),
      (0x600009, .snapshotBase, fun s => s.onResil (fun k => { k with baseNext := true })),
      (0x680001, .snapshotTake, takeSnapshot),
      (0x180005, .floorCommit, commitFloor)] : List (Nat × (Request → Instr) × (State → State))),
    ∀ (s : State) (r : Request) (x : Session) (o : Obj), r.index * 256 + r.sub = row.1 → writes s r x o →
      (r.data = [1] → exec (row.2.1 r) s = .next (acts s (row.2.2 (counted (inUse s x))) r)) ∧
      (r.data = [0] → exec (row.2.1 r) s = .next (acts s (counted (inUse s x)) r))

/-- A write of a WO object that holds a value does that object's action on it, at the next write ordinal, and is answered; a refused action
is answered with its code and changes nothing (R143, R144, R234, R254, R261, R273, R290, R295, R325, R338, R349 to R351, R358, R360,
R361). What those actions do: a queue is enabled with its counts at its record's start, a second enable is refused, as is a
connection's; a margin request starts a sweep in test state 1 alone, and in test state 2 the tests run again; abort_step is refused
after the cut or for another step, and closes the step otherwise; RESUME needs state 5 and the step after the restore point; an upload
needs an erased copy; the report's signing index is taken before signing ends (R143, R254, R261, R295, R351, R358, R360, R361). -/
def Obligations.ValueWritesAct : Prop :=
  (∀ row ∈ ([(0x110105, .eventAck, fun s _ l _ => .ok (ackEvents s (natOfBytes l))),
       (0x180202, .uploadData, fun s off l _ => uploadBytes s off l),
       (0x481102, .abortStep, fun s _ l _ => abortStep s (natOfBytes l)),
       (0x481305, .silentClear, fun s _ l _ => .ok (onLedger s (natOfBytes l) (fun e => { e with silent := false }))),
       (0x500203, .epochWrite, fun s _ l a => acceptEpoch s l a),
       (0x580007, .fePortReset, fun s _ l _ => if 1 < natOfBytes l then .error 0x01000001 else .ok (resetFePort s (natOfBytes l))),
       (0x580203, .connEnable, fun s _ l _ => connControl s (natOfBytes l)),
       (0x580203, .connReset, fun s _ l _ => connControl s (natOfBytes l)),
       (0x581002, .queueEnable, fun s _ l _ => queueControl s (natOfBytes l)),
       (0x581002, .queueDisable, fun s _ l _ => queueControl s (natOfBytes l)),
       (0x180203, .uploadVerify, fun s _ l _ => if natOfBytes l = 1 then verifyUpload s else .ok s),
       (0x600201, .recoveryWrite, fun s _ l _ => writeRecovery s l),
       (0x600204, .resume, fun s _ l _ => resumeModule s (natOfBytes l)),
       (0x600205, .restoreSubmit, fun s _ l _ => .ok (submitRecord s (natOfBytes l))),
       (0x700201, .attestRequest, fun s _ l _ => requestReport s l),
       (0x701002, .marginSweep, fun s _ l _ => requestMargin s Findings.nothing l)] :
         List (Nat × (Request → Instr) × (State → Nat → List Byte → Nat → Except Code State))),
     ∀ (s : State) (r : Request) (x : Session) (o : Obj), r.index * 256 + r.sub = row.1 → writes s r x o →
       (∀ t, row.2.2 (counted (inUse s x)) r.offset r.data r.applyAt = .ok t → exec (row.2.1 r) s = .next (acts s t r)) ∧
       (∀ c, row.2.2 (counted (inUse s x)) r.offset r.data r.applyAt = .error c →
         exec (row.2.1 r) s = .next (noteChanges s (replied (inUse s x) r (refuse (inUse s x) 2 r (crossRefusal c row.1)))))) ∧
  ((∀ (s : State) (q : Nat), (queueOf s q).state = 0 → (queueRecord s q).zero = false →
     let n := (queueRecord s q).startSeq
     enableQueue s q = .ok (onQueue s q (fun x => ⟨1, 0, n, n, n, n, 0, [], x.entries, x.entries.map (fun e => e.seq)⟩))) ∧
   (∀ (s : State) (q : Nat), (queueOf s q).state ≠ 0 → enableQueue s q = .error 0x01100A06) ∧
   (∀ (s : State) (c : Nat), (connOf s c).state ≠ 0 → enableConn s c = .error 0x01100A01) ∧
   (∀ (s : State) (l : List Byte) (found : Findings), s.boot.testState = 1 → s.boot.marginState ≠ 1 → marginMalformed (natOfBytes l) = false →
     requestMargin s found l = .ok (s.onBoot (fun b => { b with marginState := 1, marginRequest := l }))) ∧
   (∀ (s : State) (l : List Byte) (found : Findings), s.boot.testState = 0 → requestMargin s found l = .error 0x01100E11) ∧
   (∀ (s : State) (r : Request) (x : Session) (o : Obj) (found : BistFinding) (hbm : HbmFinding), r.index * 256 + r.sub = 0x701002 →
     writes s r x o → s.boot.testState = 2 →
     exec (.bistRerun r found hbm) s = .next (acts s (rerunTests (counted (inUse s x)) (found, hbm)) r)) ∧
   (∀ (s : State) (step : Nat), step ≠ currentStep s ∨ s.train.cut = true → abortStep s step = .error 0x01100507) ∧
   (∀ (s : State) (v : Nat), s.resil.state ≠ 5 ∨ v ≠ s.resil.restore + 1 → resumeModule s v = .error 0x01100B07) ∧
   (∀ (s : State) (off c : Nat) (b : Byte), targetCopy s = some c → (copyOf s c).state = 3 → tabFind (copyOf s c).bytes off = none →
     uploadBytes s off [b] = .ok (setCopy s c ⟨3, tabInsert (copyOf s c).bytes off b⟩)) ∧
   (∀ (s : State) (c : Nat), targetCopy s = some c → verifyUpload s = .ok (if imageValid s c then setCopyState s c 1
     else raise (setCopyState s c 2) (if c < 2 ∧ imageSigned s c = true then 0x07130E07 else 0x07130E06) c)) ∧
   (∀ s : State, s.boot.uploadTarget = 0 → verifyUpload s = .error 0x07130E06) ∧
   (∀ (s : State) (off : Nat) (l : List Byte), s.boot.uploadTarget = 0 → uploadBytes s off l = .error 0x07130E09) ∧
   (∀ (s : State) (nonce : List Byte), s.boot.attestState ≠ 1 → s.boot.sigIndex < sigReserved s → sigReserved s < 2 ^ 40 →
     requestReport s nonce = .ok (s.onBoot (fun b => { b with
       attestState := 1
       attestBody := reportBody s nonce b.sigIndex
       sigIndex := b.sigIndex + 1 }))))

/-- A write of an RW object that passes its cross-object checks stores the bytes at once, with source 2; PORT_MODE, FE_MODE, BUDDY and WRITE
alike (R218, R252, R282, R325, R337). A write of an RWS object joins the staged set with its ordinal, and its reply states the effective
step (R44). A REVERT writes the value of start-up, with source 9 held for that of start-up. UPLOAD_TARGET erases the copy that it names
(R351). -/
def Obligations.SettingsTakeEffectOrStage : Prop :=
  (∀ row ∈ ([(0x500001, .portMode), (0x580001, .feMode), (0x600001, .buddy)] : List (Nat × (Request → Instr))),
    ∀ (s : State) (r : Request) (x : Session) (o : Obj), r.index * 256 + r.sub = row.1 → writes s r x o →
      exec (row.2 r) s = exec (.write r) s) ∧
  (∀ (s : State) (r : Request) (x : Session) (o : Obj), writes s r x o → o.access = 2 → typedRw o.key = false →
    let s1 := counted (inUse s x)
    let values := storeWrite s1.dict.values o.key r.offset r.data
    let entries := coveredEntries o.key r.offset r.data.length
    rwCheck s1 values o.key entries = none →
    let s2 := s1.onDict (fun d => { d with
      values := values
      source := markSources d.startSource d.source ⟨0, 0, o.key, r.offset, r.data, 2⟩ })
    exec (.write r) s = .next (acts s (rwAfter s2 o.key entries) r)) ∧
  (∀ (s : State) (r : Request) (x : Session) (o : Obj) (eff : Nat), writes s r x o → o.access = 3 → stagedStep (inUse s x) r.applyAt = .ok eff →
    let n := s.dict.ordinal + 1
    let s1 := (counted (inUse s x)).onDict (fun d => { d with staged := d.staged ++ [⟨n, r.applyAt, o.key, r.offset, r.data, 2⟩] })
    exec (.write r) s = .next (noteChanges s (replied s1 r (acceptedReply 2 r eff n)))) ∧
  (∀ (s : State) (r : Request) (x : Session) (o : Obj) (eff : Nat), askedBy s 3 r x → r.batch = 0 →
    checkWrite (inUse s x) x r true false = .ok o → o.access = 3 → stagedStep (inUse s x) r.applyAt = .ok eff →
    let n := s.dict.ordinal + 1
    let s1 := (counted (inUse s x)).onDict (fun d => { d with
      staged := d.staged ++ [⟨n, r.applyAt, o.key, 0, startData (inUse s x) o, 9⟩] })
    exec (.revert r) s = .next (noteChanges s (replied s1 r (acceptedReply 3 r eff n)))) ∧
  (∀ (s : State) (r : Request) (x : Session) (o : Obj), r.index * 256 + r.sub = 0x180201 → writes s r x o →
    let s1 := counted (inUse s x)
    exec (.uploadTarget r) s = .next (acts s ((writeUploadTarget s1 (natOfBytes r.data)).onDict (fun d => { d with
      source := markSources d.startSource d.source ⟨0, 0, o.key, r.offset, r.data, 2⟩ })) r))

/-- stack_reset and a return to test state 0 are answered, then the stack restarts with cause 1 or 5 (R344, R360). A write of test_state
enters a test state when the module is in no group and no queue is enabled: all memory counts as never written; otherwise it is refused
(R360). Signing ends with the whole report: the body, whose index was taken at the request, and its signature (R359); a margin sweep
ends with each tested channel's counts and summary, and a channel whose training was lost gets none (R361). -/
def Obligations.ResetsTestStatesAndReports : Prop :=
  ((∀ (s : State) (r : Request) (x : Session) (o : Obj), r.index * 256 + r.sub = 0x181003 → writes s r x o → r.data = [1] →
     exec (.stackResetWrite r) s = .next { stackResetWith
       (replied (counted (inUse s x)) r (acceptedReply 2 r 0 (s.dict.ordinal + 1))) 1 0 with free := s.free + 1 }) ∧
   (∀ (s : State) (r : Request) (x : Session) (o : Obj), r.index * 256 + r.sub = 0x701001 → writes s r x o → r.data = [0] →
     ∃ t, exec (.testStateExit r) s = .next t ∧ t.boot.phase = 0 ∧ t.boot.testState = 0 ∧ t.mem = Memory.neverWritten ∧
       t.boot.lastReset.cause = 5 ∧ t.boot.lastReset.step = s.train.committed) ∧
   (∀ (s : State) (r : Request) (x : Session) (o : Obj) (v : Nat), r.index * 256 + r.sub = 0x701001 → writes s r x o →
     v = natOfBytes r.data → v ≠ 0 → s.fabric.groups = [] → queueInUse s = false →
     ∃ t, exec (.testStateEnter r) s = .next t ∧ t.boot = { s.boot with testState := v, phase := 10 } ∧ t.mem = Memory.neverWritten ∧
       t.banks = Memory.neverWritten ∧ t.rowMasks = [] ∧ t.colMasks = [] ∧ t.tiles = s.tiles ∧ t.power = s.power ∧ t.flash = s.flash ∧
       t.train = s.train ∧ t.fabric = s.fabric ∧ t.front = s.front ∧ t.resil = s.resil ∧ t.dict.ordinal = s.dict.ordinal + 1) ∧
   (∀ (s : State) (v : Nat), s.fabric.groups ≠ [] ∨ queueInUse s = true → enterTest s v = .error 0x01100E10)) ∧
  ((∀ s : State, s.boot.attestState = 1 →
     exec .attestReady s = .next (noteChanges s (s.onBoot (fun b => { b with
       attestState := 2
       attestReport := b.attestBody ++ (List.range 9893).map (Config.xmssmtSign (bitsAt (natOfBytes b.attestBody) 1536 40) b.attestBody)
       attestBody := [] })))) ∧
   (∀ (s : State) (failed : List (Nat × Nat)) (lost : NatSet), s.boot.marginState = 1 →
     let v := natOfBytes s.boot.marginRequest
     let channels := (List.range 32).filter (fun c => bitAt v (16 + c) && !lost.contains c)
     let b := channels.foldl (marginChannel failed (marginSteps v)) s.boot
     exec (.marginSweepEnd failed lost) s = .next (noteChanges s { s with boot := { b with marginState := 2 } })) ∧
   marginSummaryOf [] = 0x8080 ∧
   (∀ (lo : Int) (l : List Int), marginSummaryOf (lo :: l) = stepByte lo + 256 * stepByte ((lo :: l).getLast (by simp))) ∧
   (∀ v : Nat, ∀ x ∈ marginSteps v, signed 8 (bitsAt v 48 8) ≤ x ∧ x ≤ signed 8 (bitsAt v 56 8)) ∧
   (∀ s : State, s.boot.attestState ≠ 1 → exec .attestReady s = .next s))

/-- READ answers the bytes asked for, the change ordinal and the boundary sequence; DESCRIBE and ENUMERATE answer what an object is and
which comes next; none of them changes anything but the session's kept replies and last use (R327, R328, R337). An object that is
absent, write-only or of another type is refused with its code. -/
def Obligations.ReadsAnswerAndChangeNothing : Prop :=
  (∀ (s : State) (r : Request) (x : Session), askedBy s 1 r x →
    exec (.read r) s = .next (noteChanges s (replied (inUse s x) r (readRequest (inUse s x) r).reply))) ∧
  (∀ (s : State) (r : Request) (x : Session), askedBy s 6 r x →
    exec (.describe r) s = .next (noteChanges s (replied (inUse s x) r (describeRequest (inUse s x) r).reply))) ∧
  (∀ (s : State) (r : Request) (x : Session), askedBy s 7 r x →
    exec (.enumerate r) s = .next (noteChanges s (replied (inUse s x) r (enumerateRequest (inUse s x) r).reply))) ∧
  (∀ (s : State) (r : Request), askedOpenly s 1 r → exec (.read r) s = .next (noteChanges s (emit s (.reply (readRequest s r).reply)))) ∧
  (∀ (s : State) (r : Request) (o : Obj), objFind (r.index * 256 + r.sub) = some o → o.access ≠ 4 → r.typ.toNat = o.typ →
    r.viewStaged = false → r.viewPending = false → r.viewSnapshot = false → r.offset + r.length ≤ (viewOf s o).length →
    let y := (readRequest s r).reply
    y.status = 0 ∧ y.data = viewBytes s o.key (viewOf s o) r.offset r.length ∧ y.effectiveStep = tabGet 0 s.dict.change o.key ∧
      y.ordinal = s.train.boundarySeq ∧ y.requestId = r.requestId) ∧
  (∀ (s : State) (r : Request), objFind (r.index * 256 + r.sub) = none →
    (readRequest s r).reply.status = 1 ∧ (readRequest s r).reply.data = bytesOfNat 4 0x01100D01) ∧
  (∀ (s : State) (r : Request) (o : Obj), objFind (r.index * 256 + r.sub) = some o → o.access = 4 →
    (readRequest s r).reply.status = 1 ∧ (readRequest s r).reply.data = bytesOfNat 4 0x01100D02)

/-- A batch is accepted whole at one write ordinal, or refused whole with the first failing part's code, and is over either way; ABANDON
ends it and accepts nothing; BATCH_EXPIRE abandons a batch that no part has reached for 10 s (R330). -/
def Obligations.BatchesAreWholeOrNothing : Prop :=
  (∀ (s : State) (r : Request) (x : Session) (b : Batch), askedBy s 4 r x → openBatch (inUse s x) x.number r.batch = some b →
    let s1 := removeBatch (inUse s x) x.number r.batch
    (∀ c, failingPart [] b.parts = some c →
      exec (.seal r) s = .next (noteChanges s (replied s1 r (refuse s1 4 r (codeOnly c))))) ∧
    (∀ l t eff n, failingPart [] b.parts = none → b.parts.any (fun p => decide (p.applyAt ≠ r.applyAt)) = false →
      batchWrites s1 b.parts = .ok l → acceptWrites Findings.nothing s1 r.applyAt l = .ok (t, eff, n) → resetAsked l = none →
      n = s.dict.ordinal + 1 ∧ exec (.seal r) s = .next (noteChanges s (replied t r (acceptedReply 4 r eff n)))) ∧
    (∀ l e, failingPart [] b.parts = none → b.parts.any (fun p => decide (p.applyAt ≠ r.applyAt)) = false →
      batchWrites s1 b.parts = .ok l → acceptWrites Findings.nothing s1 r.applyAt l = .error e →
      exec (.seal r) s = .next (noteChanges s (replied s1 r (refuse s1 4 r e))))) ∧
  (∀ (s : State) (r : Request) (x : Session) (b : Batch), askedBy s 5 r x → openBatch (inUse s x) x.number r.batch = some b →
    exec (.abandon r) s = .next (noteChanges s (replied (removeBatch (inUse s x) x.number r.batch) r (replyTo 5 r)))) ∧
  (∀ (s : State) (r : Request) (x : Session), askedBy s 4 r x → openBatch (inUse s x) x.number r.batch = none →
    exec (.seal r) s = .next (noteChanges s (replied (inUse s x) r (refuse (inUse s x) 4 r (codeOnly 0x01100D07))))) ∧
  (∀ (s : State) (session : BitVec 64) (n : Nat), s.dict.batches.any (fun b => decide (b.session = session ∧ b.number = n)) = true →
    exec (.batchExpire session n) s = .next (noteChanges s (removeBatch s session n)))

/-- HELLO opens a pending session, unless HELLOs are locked out, 16 sessions stand or the slot holds no key; PROVE with the right tag opens
it and with another ends it and counts, 8 failures in 60 s locking out; CLOSE and SESSION_EXPIRE end a session with its batches;
HELLO_LOCKOUT_END lets HELLOs in again (R329, R356). -/
def Obligations.SessionsOpenAndClose : Prop :=
  (∀ (s : State) (r : Request), askedOpenly s 8 r → (r.data.headD 0).toNat = 1 →
    (∀ t number nonce, openHello s r.data = .ok (t, number, nonce) →
      exec (.hello r) s = .next (noteChanges s (emit t (.reply { replyTo 8 r with session := number, data := nonce })))) ∧
    (s.dict.lockout = true → exec (.hello r) s = .next (noteChanges s (emit s (.reply (refuse s 8 r (codeOnly 0x07150E04)))))) ∧
    (s.dict.lockout = false → 16 ≤ s.dict.sessions.length →
      exec (.hello r) s = .next (noteChanges s (emit s (.reply (refuse s 8 r (codeOnly 0x07150E15)))))) ∧
    (s.dict.lockout = false → s.dict.sessions.length < 16 → s.boot.userRunning = 0xFF → ((r.data.drop 1).headD 0).toNat ≠ 0xFF →
      exec (.hello r) s = .next (noteChanges s (emit s (.reply (refuse s 8 r (codeOnly 0x07150E02))))))) ∧
  (∀ (s : State) (x : Session) (key : Nat × List Byte), slotKey s x.slot = some key →
    let tag := fun (l : List Byte) => (l.drop 32).take 32
    (∀ l, tag l = kmac256 key.2 (sessionString x) "HNL open c" → proveSession s x l =
      (onSession s x.number (fun y => { y with pending := false, lastUse := s.power.refPeriods }),
        .ok (kmac256 key.2 (sessionString x) "HNL open m"))) ∧
    (∀ l, tag l ≠ kmac256 key.2 (sessionString x) "HNL open c" → proveSession s x l = (failProve s x, .error 0x07150E03))) ∧
  (∀ (s : State) (r : Request) (x : Session), s.power.convertersOn = true → discarded 8 r = false → forAnother s r = false → r.version = 1 →
    sessionOf s r.session = some x → x.pending = true → x.replies = [] → r.viewStaged = false → r.viewPending = false → r.viewSnapshot = false →
    (r.data.headD 0).toNat = 2 →
    (∀ t tag, proveSession s x r.data = (t, .ok tag) → exec (.prove r) s = .next (noteChanges s (replied t r { replyTo 8 r with data := tag }))) ∧
    (∀ t c, proveSession s x r.data = (t, .error c) → exec (.prove r) s = .next (noteChanges s (replied t r (refuse t 8 r (codeOnly c)))))) ∧
  (∀ (s : State) (r : Request) (x : Session), askedBy s 8 r x → (r.data.headD 0).toNat = 3 →
    exec (.close r) s = .next (noteChanges s (emit (dropSession (inUse s x) x.number) (.reply (replyTo 8 r))))) ∧
  (∀ (s : State) (n : BitVec 64), s.dict.sessions.any (fun x => decide (x.number = n)) = true →
    exec (.sessionExpire n) s = .next (noteChanges s (dropSession s n))) ∧
  (∀ s : State, s.dict.lockout = true →
    exec .helloLockoutEnd s = .next (noteChanges s (s.onDict (fun d => { d with lockout := false, recentFailures := [] }))))

/-! ## The front-end (chapter 10) -/

/-- A front-end link goes down without touching connections and comes up when its port is not off; a pause frame pauses the one priority
that is enabled, and zero quanta resume it; a neighbour request for one of the port's addresses is answered, whatever its port (R252,
R253, R254, R327). A CNP halves a ready connection's egress rate, never below 1 Gb/s, and it rises by 5% of line rate, never above it
(R253); what is not acknowledged is sent again until the retries of Table 10.3 are used up, and then the connection enters error (R254). -/
def Obligations.LinksPausesRatesAndRetries : Prop :=
  ((∀ (s : State) (p : Nat), exec (.feLinkDown p) s = .next (noteChanges s (s.onFront (fun f => { f with portUp := tabSet 0 f.portUp p 0 })))) ∧
   (∀ (s : State) (p : Nat), cfgElem s 0x580001 p ≠ 0 →
     exec (.feLinkUp p) s = .next (noteChanges s (s.onFront (fun f => { f with portUp := tabSet 0 f.portUp p 1 })))) ∧
   (∀ (s : State) (p : Nat), cfgElem s 0x580001 p = 0 → exec (.feLinkUp p) s = .next s) ∧
   (∀ (s : State) (p pri quanta : Nat), bitAt (cfgElem s 0x580006 p) 7 = true → cfgElem s 0x580006 p % 8 = pri → quanta ≠ 0 →
     exec (.priorityFlowControlFrame p pri quanta) s = .next (noteChanges s (s.onFront (fun f => { f with paused := setAdd f.paused p })))) ∧
   (∀ (s : State) (p pri : Nat), bitAt (cfgElem s 0x580006 p) 7 = true → cfgElem s 0x580006 p % 8 = pri →
     ∃ t, exec (.priorityFlowControlFrame p pri 0) s = .next t ∧ t.front.paused = setRemove s.front.paused p ∧
       t.out = s.out ++ (s.front.heldOut.filter (fun x => x.1 == p)).map (fun x => x.2) ∧ t.front.conns = s.front.conns) ∧
   (∀ (s : State) (p : Nat) (ipv6 : Bool) (addr : BitVec 128), addr ≠ 0 → (portAddresses s p ipv6).1.contains addr.toNat = true →
     exec (.neighborRequest p ipv6 addr) s = .next (noteChanges s (emit s (.neighborReply p (portAddresses s p ipv6).2)))) ∧
   (∀ (s : State) (p : Nat) (ipv6 : Bool), exec (.neighborRequest p ipv6 0) s = .next s)) ∧
  ((∀ (s : State) (c : Nat), (connOf s c).state = 1 →
     let s1 := s.onFront (fun f => { f with cnpsReceived := tabCount f.cnpsReceived (connPort s c) 1 })
     exec (.cnpReceive c) s = .next (noteChanges s (onConn s1 c (fun x => { x with rateMbps := max 1000 (x.rateMbps / 2) })))) ∧
   (∀ (s : State) (c : Nat), (connOf s c).state = 1 →
     exec (.egressRateRise c) s = .next (noteChanges s (onConn s c (fun x => { x with
       rateMbps := min (lineRate s c) (x.rateMbps + lineRate s c / 20) })))) ∧
   (∀ (s : State) (c : Nat), (connOf s c).state ≠ 1 → exec (.cnpReceive c) s = .next s ∧ exec (.egressRateRise c) s = .next s) ∧
   (∀ (s : State) (c : Nat) (x : Export), activeExport s c = some x → (connOf s c).state = 1 →
     ((connOf s c).retriesUsed < bitsAt (cfgElem s 0x580201 c) 325 3 →
       exec (.transportRetryTimeout c) s = .next (noteChanges s
         (exportSend (onConn s c (fun y => { y with retriesUsed := y.retriesUsed + 1 })) x).1)) ∧
     (bitsAt (cfgElem s 0x580201 c) 325 3 ≤ (connOf s c).retriesUsed →
       exec (.transportRetryTimeout c) s = .next (noteChanges s (connError s c)))) ∧
   (∀ (s : State) (c : Nat), (connOf s c).state = 1 → (connOf (connError s c) c).state = 2 ∧ (connOf (connError s c) c).held = []))

/-- A write or read that its region, its key or Table 1.11 does not allow is answered with a Remote Access Error and its code, and the
connection stays ready; a CE mark due for a CNP is answered with one first; an allowed write is acknowledged, a doorbell write waits for
its ordinal and another for its visibility; an allowed read of the status mirror is answered, and any other flush read waits for the
writes and doorbells before it (R253, R256 to R259). -/
def Obligations.RdmaRequestsCheckedThenAnswered : Prop :=
  (∀ (s : State) (conn : Nat) (rkey : BitVec 32) (addr : BitVec 64) (l : List Byte) (ce : Bool) (code : Code), (connOf s conn).state = 1 →
    requestCode s conn rkey.toNat addr.toNat l.length true = some code →
    exec (.rdmaWrite ⟨conn, ce⟩ rkey addr l) s = .next (noteChanges s (sendNak (noteCe s conn ce) conn false code))) ∧
  (∀ (s : State) (conn : Nat) (rkey : BitVec 32) (addr : BitVec 64) (n : Nat) (ce : Bool) (code : Code), (connOf s conn).state = 1 →
    requestCode s conn rkey.toNat addr.toNat n false = some code →
    exec (.rdmaRead ⟨conn, ce⟩ rkey addr n) s = .next (noteChanges s (sendNak (noteCe s conn ce) conn false code))) ∧
  (∀ (s : State) (conn : Nat) (rkey : BitVec 32) (addr : BitVec 64) (l : List Byte) (ce : Bool), (connOf s conn).state = 1 → rkey ≠ 1 → l ≠ [] →
    requestCode s conn rkey.toNat addr.toNat l.length true = none →
    let s1 := sendOn ((noteCe s conn ce).onFront (fun f => { f with writeBytes := tabCount f.writeBytes (connPort s conn) l.length })) conn (.rdmaAck conn)
    exec (.rdmaWrite ⟨conn, ce⟩ rkey addr l) s =
      .next (noteChanges s (onConn s1 conn (fun c => { c with unseen := c.unseen ++ [⟨addr.toNat, l⟩] })))) ∧
  (∀ (s : State) (conn q : Nat) (l : List Byte) (ce : Bool), (connOf s conn).state = 1 → q < 64 → l.length = 8 → natOfBytes l < 2 ^ 32 →
    let s1 := sendOn ((noteCe s conn ce).onFront (fun f => { f with writeBytes := tabCount f.writeBytes (connPort s conn) 8 })) conn (.rdmaAck conn)
    exec (.rdmaWrite ⟨conn, ce⟩ 1 (BitVec.ofNat 64 (doorbellBase + 4096 * q)) l) s =
      .next (noteChanges s (onConn s1 conn (fun c => { c with doorbells := c.doorbells ++ [⟨q, 0, natOfBytes l⟩] })))) ∧
  (∀ (s : State) (conn : Nat) (rkey : BitVec 32) (addr : BitVec 64) (n : Nat) (ce : Bool), (connOf s conn).state = 1 → rkey ≠ 2 → n ≠ 0 →
    requestCode s conn rkey.toNat addr.toNat n false = none →
    exec (.rdmaRead ⟨conn, ce⟩ rkey addr n) s = .next (noteChanges s (onConn (noteCe s conn ce) conn (fun c => { c with
      held := c.held ++ [⟨addr.toNat, n, c.unseen.length, c.doorbells.length, c.mergeFailed⟩]
      mergeFailed := false })))) ∧
  (∀ (s : State) (conn : Nat) (addr : BitVec 64) (n : Nat) (ce : Bool), (connOf s conn).state = 1 → mirrorBase ≤ addr.toNat →
    addr.toNat + n ≤ 0x030011000000 → 0 < n →
    let s0 := noteCe s conn ce
    let s1 := s0.onFront (fun f => { f with readBytes := tabCount f.readBytes (connPort s0 conn) n })
    exec (.rdmaRead ⟨conn, ce⟩ 2 addr n) s = .next (noteChanges s
      (sendOn s1 conn (.rdmaData conn ((List.range n).map (fun i => mirrorByte s0 (addr.toNat - mirrorBase + i))))))) ∧
  (∀ (s : State) (conn : Nat) (h : HeldRead) (rest : List HeldRead) (s1 s3 : State), (connOf s conn).held = h :: rest →
    (connOf s conn).state = 1 → placeAll h.writes s conn = (s1, true) →
    ((connOf (takeDoorbells h.doorbells s1 conn) conn).held.head?.map (fun x => x.failed)).getD false = false →
    serveRead (takeDoorbells h.doorbells s1 conn) conn h.addr h.length = (s3, false) →
    exec (.flushReadRelease conn) s = .next (noteChanges s
      ((onConn s3 conn (fun c => { c with held := c.held.drop 1 })).onFront (fun f => { f with flushReads := f.flushReads + 1 }))))

/-- A doorbell takes the next ordinal and posts entries or tells consumed records; a count out of range faults its queue; posting d entries
makes d more pending, in order, with that ordinal (R262, R263). A pending entry is accepted when its tag is its lap's; otherwise it is
read again, and the 64th mismatch faults the queue (R263). -/
def Obligations.DoorbellsAndEntryReads : Prop :=
  (∀ (s : State) (c : Nat) (d : Doorbell) (rest : List Doorbell), (connOf s c).doorbells = d :: rest →
    let n := s.front.doorbellOrdinal + 1
    let s1 := onConn (s.onFront (fun f => { f with doorbellOrdinal := n })) c (fun x => { x with
      doorbells := x.doorbells.drop 1
      held := x.held.map (fun h => { h with doorbells := h.doorbells - 1 }) })
    (d.offset = 0 → exec (.postCount c) s = .next (noteChanges s (postCount s1 d.queue d.value n))) ∧
    (d.offset = 8 → exec (.cqConsumed c) s = .next (noteChanges s (consumeCount s1 d.queue d.value)))) ∧
  (∀ (s : State) (q p n : Nat), (queueOf s q).state = 1 →
    let d := seqDistance p (queueOf s q).posted
    (d = 0 → postCount s q p n = s) ∧
    (0 < d → d < 2 ^ 31 → seqDistance p (queueOf s q).consumed ≤ (queueRecord s q).size →
      (queueOf (postCount s q p n) q).posted = p ∧
      (queueOf (postCount s q p n) q).pending.length = (queueOf s q).pending.length + d ∧
      ∀ i, i < d → (queueOf (postCount s q p n) q).pending[(queueOf s q).pending.length + i]? =
        some ⟨((queueOf s q).posted + i) % 2 ^ 32, n, 0, false⟩) ∧
    (0 < d → d < 2 ^ 31 → (queueRecord s q).size < seqDistance p (queueOf s q).consumed →
      postCount s q p n = faultQueue s q 0x040D0A02 p)) ∧
  (∀ (s : State) (q c : Nat), (queueOf s q).state = 1 →
    (seqDistance c (queueOf s q).consumed ≤ seqDistance (queueOf s q).released (queueOf s q).consumed →
      queueOf (consumeCount s q c) q = { queueOf s q with consumed := c }) ∧
    (seqDistance (queueOf s q).released (queueOf s q).consumed < seqDistance c (queueOf s q).consumed →
      consumeCount s q c = faultQueue s q 0x040D0A03 c)) ∧
  (∀ (s s1 : State) (q v : Nat) (p : Pending) (rest : List Pending), (queueOf s q).pending = p :: rest →
    let t := if p.reads = 0 then s else s.onFront (fun f => { f with rereads := tabCount f.rereads q 1 })
    let row : Instr := if p.reads = 0 then .entryRead q else .entryReread q
    (p.reads = 0 → p.second = false → (queueOf s q).kept.contains p.seq = false) →
    readRecord t ((queueRecord s q).ring + 128 * (p.seq % (queueRecord s q).size)) 128 = (.ok v, s1) →
    (bitsAt v 0 16 = expectedTag (queueRecord s q) p.seq → exec row s = .next (noteChanges s (acceptEntry s1 q p v))) ∧
    (bitsAt v 0 16 ≠ expectedTag (queueRecord s q) p.seq → p.second = false → p.reads < 63 →
      exec row s = .next (noteChanges s (onQueue s1 q (fun x => { x with pending := { p with reads := p.reads + 1 } :: x.pending.drop 1 })))) ∧
    (bitsAt v 0 16 ≠ expectedTag (queueRecord s q) p.seq → p.second = false → p.reads = 63 →
      exec row s = .next (noteChanges s (faultQueue s1 q 0x040D0A01 p.seq))))

/-- An entry that may be dispatched goes where its kind says: to its tiles, to its Cracker channel, to the fabric; a fill writes its
pattern, a NOP completes at once, an export is handed to its connection; one whose record cannot be read or breaks its table faults
without running; and an entry completes when what it was handed to has ended and the reduction commands it names can be read (R84, R142,
R207, R265, R266, R271). The events of an export follow one another at each acknowledgement: the open trailer, the data in writes of at
most 1 MiB, each acknowledged on its own, a read, the closed trailer; the last completes it and starts the connection's next (R271,
Tables 10.16 and 10.17). -/
def Obligations.EntriesRunCompleteAndExport : Prop :=
  ((∀ (s s1 : State) (q seq v : Nat) (e : Entry), entryAt s q seq = some e → dispatchable s q e = true → e.kind = 1 →
     readRecord s (e.field 256 48) 128 = (.ok v, s1) → bitsAt v 48 16 = 0 → bitsAt v 832 192 = 0 → bitsAt v 0 48 % 64 = 0 →
     exec (.dispatch q seq) s = .next (noteChanges s (dispatchTiles s1 q e v))) ∧
   (∀ (s : State) (q seq : Nat) (e : Entry), entryAt s q seq = some e → dispatchable s q e = true → e.kind = 2 →
     exec (.dispatch q seq) s = .next (noteChanges s (onChannel (onEntry s q seq (fun e => { e with status := 1 })) (e.field 304 4)
       (fun c => { c with cmds := c.cmds ++ [⟨e.field 256 48, q, seq, e.step⟩] })))) ∧
   (∀ (s s1 : State) (q seq v : Nat) (e : Entry), entryAt s q seq = some e → dispatchable s q e = true → e.kind = 3 →
     readRecord s (e.field 256 48) 64 = (.ok v, s1) → collFault s1 (collCmdOf v) noGroup = none →
     let k : CollKey := ⟨(collCmdOf v).comm, noGroup, nextCollId s1 (collCmdOf v).comm⟩
     let s2 := openColl (onEntry s1 q seq (fun e => { e with status := 1 })) k (collCmdOf v) (some (q, seq))
     exec (.dispatch q seq) s = .next (noteChanges s (sendReady s2 k (currentStep s2) none))) ∧
   (∀ (s s1 : State) (q seq : Nat) (e : Entry) (c : Code), entryAt s q seq = some e → dispatchable s q e = true →
     (e.kind = 1 → readRecord s (e.field 256 48) 128 = (.fault c, s1) →
       exec (.dispatch q seq) s = .next (noteChanges s (faultEntry s1 q e c))) ∧
     (e.kind = 4 → readRecord s (e.field 256 48) 32 = (.fault c, s1) →
       exec (.fillCommand q seq) s = .next (noteChanges s (faultEntry s1 q e c)))) ∧
   (∀ (s s1 : State) (q seq v : Nat) (e : Entry), entryAt s q seq = some e → dispatchable s q e = true → e.kind = 4 →
     readRecord s (e.field 256 48) 32 = (.ok v, s1) → fillMalformed v = false →
     accessDetail s1 .hazel true (bitsAt v 0 48) (bitsAt v 64 48) = none →
     exec (.fillCommand q seq) s = .next (noteChanges s (fillLines (bitsAt v 64 48 / 64) (onEntry s1 q seq (fun e => { e with status := 1 }))
       (bitsAt v 0 48) (BitVec.ofNat 64 (bitsAt v 128 64))))) ∧
   (∀ (s : State) (q seq : Nat) (e : Entry), entryAt s q seq = some e → dispatchable s q e = true →
     (e.kind = 6 → exec (.nopEntry q seq) s = .next (noteChanges s (settleFault (endEntry s q e 0 0)))) ∧
     (e.kind = 5 → exec (.exportEntry q seq) s = .next (noteChanges s (addExport (onEntry s q seq (fun e => { e with status := 1 }))
       ⟨some (q, seq), 0, e.field 384 6, e.field 256 48, e.field 320 40, e.field 416 32, e.field 448 40, e.step, 5, 0, []⟩)))) ∧
   (∀ (s : State) (q seq : Nat) (e : Entry), entryAt s q seq = some e → e.status = 1 → entryEnded s q e = true →
     (commandsReady s e.reduce).1 = true →
     exec (.entryComplete q seq) s = .next (noteChanges s
       (releaseLate (settleFault (endEntry (releaseTrapped s e) q e (if e.code = 0 then 0 else 1) e.code)) q)))) ∧
  ((∀ (s : State) (c : Nat) (x : Export), activeExport s c = some x → (connOf s c).state = 1 → x.event < 3 →
     (x.event = 1 → x.length ≤ x.acked + egressPiece) →
     let y := { x with event := x.event + 1, acked := if x.event = 1 then x.length else x.acked }
     let s1 := replaceExport (onConn s c (fun z => { z with retriesUsed := 0 })) x y
     (exportSend s1 y).2 = false → exec (.exportAck c) s = .next (noteChanges s (exportSend s1 y).1)) ∧
   (∀ (s : State) (c : Nat) (x : Export), activeExport s c = some x → (connOf s c).state = 1 → x.event = 1 →
     x.acked + egressPiece < x.length →
     exec (.exportAck c) s = .next (noteChanges s (replaceExport (onConn s c (fun z => { z with retriesUsed := 0 })) x
       { x with acked := x.acked + egressPiece }))) ∧
   (∀ (s : State) (c : Nat) (x : Export) (e : Nat × Nat), activeExport s c = some x → (connOf s c).state = 1 → x.event = 3 → x.entry = some e →
     let s1 := (onConn s c (fun z => { z with retriesUsed := 0 })).onFront (fun f => { f with
       exports := f.exports.filter (fun z => decide (z ≠ x)) })
     exec (.exportAck c) s = .next (noteChanges s (startNext s1 c))) ∧
   (∀ (s : State) (x : Export),
     let t := targetNow s x.target
     (x.event = 0 → exportSend s x = (egressSend s x x.trailerAt (trailerBytes x 1), false)) ∧
     (x.event = 2 → exportSend s x = (sendOn s t.conn (.egressRead t.conn (t.va + x.trailerAt) t.rkey), false)) ∧
     (x.event = 3 → exportSend s x = (egressSend s x x.trailerAt (trailerBytes x 2), false))) ∧
   (∀ (x : Export), (trailerBytes x 1).length = 32 ∧ x.trailerAt % 64 = x.dstOffset % 64 ∧ x.dstOffset + x.length ≤ x.trailerAt))

/-! ## The boundary, recovery and the twin (chapters 2 and 11) -/

/-- STEP_BOUNDARY runs the boundary when the conditions of Table 2.7 hold: the step is committed with its record, boundary_seq rises by 2
and stays even; a recovery record that waited for it follows (R41, R47 to R51, R290). The loss-scale history after a commit record: a
non-finite step enters the ring, lowers k by 1 within the range and restarts the clean count; an applied step counts as clean, and
raises k by 1 when the count reaches the interval and k is below its maximum; any step uses up one wide step (R75). -/
def Obligations.BoundaryCommitsTheStep : Prop :=
  ((∀ (s : State) (n : Nat), boundaryReady s = false → exec (.stepBoundary n) s = .next s) ∧
   (∀ (s : State) (n : Nat), boundaryReady s = true → s.resil.heldRecord = none →
     ∃ t, exec (.stepBoundary n) s = .next t ∧ t.train.committed = currentStep s ∧ t.train.boundarySeq = s.train.boundarySeq + 2 ∧
       t.train.record = commitRecordOf s ∧ t.train.started = true ∧ t.train.decision = none ∧ t.train.cut = false ∧
       t.power = s.power ∧ t.pending = s.pending) ∧
   (∀ (s : State) (n : Nat) (l : List Byte) (r : RecoveryRecord), boundaryReady s = true → s.resil.heldRecord = some l →
     recoveryOf (runBoundary s n) l = .ok r →
     exec (.stepBoundary n) s = .next (noteChanges s (recoveryBoundary (runBoundary s n) r)))) ∧
  (∀ (s : State) (r : CommitRecord),
     let h := s.train.history
     let h' := (historyAfter s r).1
     (r.nonfinite = true → h'.scaleExp = max (h.scaleExp - 1) (cfg s 0x480104) ∧ h'.cleanSteps = 0 ∧ h'.overflowTotal = h.overflowTotal + 1 ∧
       h'.ringNext = (h.ringNext + 1) % 64 ∧ h'.ringFill = min (h.ringFill + 1) 64) ∧
     (r.nonfinite = false → r.applied = true → cfg s 0x480103 ≤ h.cleanSteps + 1 → h.scaleExp < cfg s 0x480105 →
       h'.scaleExp = h.scaleExp + 1 ∧ h'.cleanSteps = 0) ∧
     (r.nonfinite = false → r.applied = true → h.cleanSteps + 1 < cfg s 0x480103 →
       h'.scaleExp = h.scaleExp ∧ h'.cleanSteps = h.cleanSteps + 1) ∧
     (r.nonfinite = false → r.applied = false → h' = { h with wideLeft := h.wideLeft - 1 }) ∧
     h'.wideLeft = h.wideLeft - 1 ∧ h'.minExp = h.minExp ∧ h'.maxExp = h.maxExp ∧ h'.growth = h.growth ∧
     (r.nonfinite = false → h'.ring = h.ring ∧ h'.overflowTotal = h.overflowTotal))

/-- A member without progress is told and the module holds; a hold notice is kept at its root once; the reports of a recovery are collected
at the root and the largest committed step becomes the restore point, which each member answers as its state allows; a filled module
without a source for an item stops (R278, R288, R293, R294). A shard with a matching digest is accepted, and the module replays once
every shard and the ledger are there; a shard whose digest does not match raises 0x080E_0B05 (R287, R295). REPLAY replays one step at a
time, and with none left the module stands at the restore point with the ledger's record (R297). -/
def Obligations.RecoveryReachesItsRestorePoint : Prop :=
  ((∀ (s : State) (n : BitVec 24), s.resil.unreachable.contains n = false →
     ∃ t, exec (.memberTimeout n) s = .next t ∧ n ∈ t.resil.unreachable ∧ (s.resil.state = 0 → t.resil.state = 1) ∧
       (s.resil.state ≠ 0 → t.resil.state = s.resil.state) ∧ t.mem = s.mem ∧ t.train = s.train ∧ t.fabric = s.fabric ∧
       logsOnly s.dict t.dict) ∧
   (∀ (s t : State) (p : Packet) (step slot : Nat), huskStopped s = false → takePacket s 0xC p = some t → step < 2 ^ 64 → slot < 2 ^ 16 → currentStep t ≤ step →
     p.payload = bytesOfNat 8 8 ++ bytesOfNat 8 step ++ bytesOfNat 8 slot → t.resil.holdNotices.contains (step, p.comm, slot) = false →
     exec (.holdNotice p) s = .next (noteChanges s (t.onResil (fun r => { r with holdNotices := r.holdNotices ++ [(step, p.comm, slot)] })))) ∧
   (∀ (s t : State) (p : Packet) (c : Nat), huskStopped s = false → takePacket s 0xC p = some t → c < 2 ^ 64 → t.fabric.epoch < 2 ^ 32 →
     p.payload = bytesOfNat 8 3 ++ bytesOfNat 8 c ++ bytesOfNat 8 t.fabric.epoch →
     let reports := t.resil.reports.filter (fun r => decide (r.1 ≠ p.src)) ++ [(p.src, c)]
     (jobNodes t).all (fun n => reports.any (fun r => decide (r.1 = n))) = false →
     exec (.committedStepReport p) s = .next (noteChanges s (t.onResil (fun r => { r with reports := reports })))) ∧
   (∀ (s t : State) (p : Packet) (c : Nat), huskStopped s = false → takePacket s 0xC p = some t → c < 2 ^ 64 → t.fabric.epoch < 2 ^ 32 →
     t.resil.state = 2 → p.payload = bytesOfNat 8 4 ++ bytesOfNat 8 c ++ bytesOfNat 8 t.fabric.epoch → t.resil.memoryLost = false → ownFill t = none →
     c ≤ t.train.committed + 1 →
     ∃ u, exec (.restorePoint p) s = .next u ∧ u.resil.restore = c ∧
       (t.train.committed + 1 = c → u.resil.state = 4 ∧ u.resil.replayLeft = 1 ∧ u.mem = t.mem) ∧
       (t.train.committed + 1 ≠ c → u.resil.state = 0 ∧ u.resil.shards = [] ∧ u.resil.inputsRequired = false ∧ u.train.started = true)) ∧
   (∀ (s t : State) (p : Packet) (c : Nat), huskStopped s = false → takePacket s 0xC p = some t → c < 2 ^ 64 → t.fabric.epoch < 2 ^ 32 →
     t.resil.state = 2 → p.payload = bytesOfNat 8 4 ++ bytesOfNat 8 c ++ bytesOfNat 8 t.fabric.epoch → t.resil.memoryLost = true → 0 < c →
     ∃ u, exec (.restorePoint p) s = .next u ∧ u.resil.restore = c ∧ u.mem = t.mem ∧
       (u.resil.state = 3 ∨ u.resil.state = 4 ∨ u.resil.state = 6) ∧ (ownFill t = none → u.resil.state ≠ 6))) ∧
  ((∀ (s : State) (group : Nat) (source : BitVec 24) (step : Nat) (digest : BitVec 256) (bytes : List Byte),
     (s.resil.state = 3 ∨ s.resil.state = 4) → s.resil.shards.any (fun x => decide (x.1 = group)) = true →
     (ledgerFor s s.resil.restore).isSome = true → step = s.resil.restore → bytes.length = 6 * (groupNow s group).planeLen →
     let s1 := placePlanes s (groupNow s group) (bytes.map (fun b => (b, false)))
     let x := planesOf s1 (groupNow s group)
     (BitVec.ofNat 256 (natOfBytes (shake256 (x.1.map (fun y => y.1)) 32)) = digest →
       exec (.shardVerify group source step digest bytes) s = .next (noteChanges s (acceptShard x.2 group source step))) ∧
     (BitVec.ofNat 256 (natOfBytes (shake256 (x.1.map (fun y => y.1)) 32)) ≠ digest →
       exec (.shardVerify group source step digest bytes) s = .next (noteChanges s (shardMismatch x.2 group source)))) ∧
   (∀ (s : State) (last now : LedgerItems), s.resil.state = 4 → 0 < s.resil.replayLeft → s.resil.replayLeft ≤ s.resil.restore →
     s.resil.shards.all (fun x => s.resil.verified.any (fun v => decide (v.1 = x.1))) = true →
     ledgerFor s s.resil.restore = some last → ledgerFor s (s.resil.restore + 1 - s.resil.replayLeft) = some now →
     let step := s.resil.restore + 1 - s.resil.replayLeft
     (1 < step → (ledgerFor s (step - 1)).isSome = true) →
     let base := fun (g : Group) => ((s.resil.shards.find? (fun x => x.1 == g.number)).map (fun x => x.2)).getD s.train.committed
     let groups := (validGroups s.dict.values).filter (fun g => memberSpecific s g.number && decide (base g < step))
     let s1 := if now.record.applied then groups.foldl (fun t g => replayGroup t g step now) s else s
     let s2 := s1.onResil (fun r => { r with
       replayLeft := r.replayLeft - 1
       shards := r.shards.map (fun x => if memberSpecific s x.1 then (x.1, max x.2 step) else x) })
     exec .replay s = .next (noteChanges s (if s.resil.replayLeft = 1 then replayEnded s2 last else s2))) ∧
   (∀ (s : State) (last : LedgerItems), s.resil.state = 4 → s.resil.replayLeft = 0 →
     s.resil.shards.all (fun x => s.resil.verified.any (fun v => decide (v.1 = x.1))) = true → ledgerFor s s.resil.restore = some last →
     ∃ t, exec .replay s = .next t ∧ t.train.committed = s.resil.restore ∧ t.train.record = last.record ∧ t.train.skipTotal = last.skipTotal ∧
       (s.resil.memoryLost = true → t.resil.state = 5) ∧ (s.resil.memoryLost = false → ownFill s = none → t.resil.state = 0)))

/-- A whole MIRROR record of a client with a good digest is held, in the Acorn area too, and acknowledged by its header; one that fills the
module is taken for the fill; and one with a bad digest raises 0x080E_0B05; an acknowledged record leaves the save gate; a full transfer
is sent to the buddy that asks; a buddy that acknowledges nothing is reported (R282, R286, R300). The byte forms are those of log
entries 11 and 12. A request for a committed line is answered with its bytes, or with a status that says why not; the reply's bytes are
kept for the held line that they repair, and a refusal leaves the next peer to be asked (R200, R298). -/
def Obligations.MirrorsAndLines : Prop :=
  ((∀ (s t : State) (p : Packet), huskStopped s = false → takePacket s 0xA p = some t → p.payload.length < 4096 → p.elemOffset = 0 →
     natOfBytes (p.payload.take 1) < 16 → t.resil.twinState ≠ 2 →
     let t1 := t.onResil (fun r => { r with incoming := r.incoming.filter (fun x => decide (x.1 ≠ p.src)) })
     let l := p.payload.zipIdx.map (fun x => (x.1, p.poison.contains (x.2 / 8)))
     let r := (savedFrom p.src l).1
     let kept := fun (u : State) => ackRecord u p.src ((l.take 64).map (fun x => x.1))
     ((savedFrom p.src l).2 = true → forFill t1 r = false →
       t.resil.clients.contains p.src = true ∨ (t.resil.clients.length < 4096 ∧ (jobNodes t1).contains p.src = false) →
       exec (.mirror p) s = .next (noteChanges s (kept
         ((placeIn t1 .acorn 0x600002 (Config.areaPlace 1 [p.src.toNat, r.kind, r.group, r.step]) l).onResil (fun x => { x with
           clients := addNode p.src x.clients
           mirrored := holdRecord x.mirrored r }))))) ∧
     ((savedFrom p.src l).2 = true → forFill t1 r = true → exec (.mirror p) s = .next (noteChanges s (kept (takeFill t1 r)))) ∧
     ((savedFrom p.src l).2 = false → forFill t1 r = false →
       exec (.mirror p) s = .next (noteChanges s (raise t1 0x080E0B05 r.group)))) ∧
   (∀ (s t : State) (p : Packet), huskStopped s = false → takePacket s 0xB p = some t →
     exec (.mirrorAck p) s = .next (noteChanges s (releaseReadys (t.onResil (fun r => { r with
       gate := r.gate.filter (fun x => !acked p.payload x)
       transfer := r.transfer.filter (fun x => !acked p.payload x) })) (carrierNow t)))) ∧
   (∀ (s t : State) (p : Packet), huskStopped s = false → takePacket s 0xC p = some t → cfg t 0x600001 < 2 ^ 32 →
     p.payload = bytesOfNat 8 7 ++ bytesOfNat 8 (cfg t 0x600001) →
     exec (.fullTransferRequest p) s = .next (noteChanges s (startTransfer t))) ∧
   (∀ s : State, s.resil.gate ≠ [] ∨ s.resil.transfer ≠ [] →
     exec .buddyTimeout s = .next (noteChanges s (raise s 0x080E0B02 (cfg s 0x600001)))) ∧
   (∀ s : State, s.resil.gate = [] → s.resil.transfer = [] → exec .buddyTimeout s = .next s)) ∧
  ((∀ (s t : State) (p : Packet) (a step : Nat), huskStopped s = false → takePacket s 0xC p = some t → a < 2 ^ 64 → step < 2 ^ 64 →
     p.payload = bytesOfNat 8 5 ++ bytesOfNat 8 a ++ bytesOfNat 8 step →
     let x := lineAnswer t p.src a step
     exec (.lineRequest p) s = .next (noteChanges s
       (sendPacket x.2.2 (controlPacket x.2.2 p.src p.comm 6 (bytesOfNat 8 a ++ bytesOfNat 8 x.1 ++ x.2.1))))) ∧
   (∀ (s t : State) (p : Packet) (a : Nat) (l : List Byte), huskStopped s = false → takePacket s 0xC p = some t → a < 2 ^ 64 → l.length = 64 →
     p.payload = bytesOfNat 8 6 ++ bytesOfNat 8 a ++ bytesOfNat 8 0 ++ l →
     t.prot.heldLines.any (fun h => decide (h.1 = a / 64)) = true →
     exec (.lineReply p) s = .next (noteChanges s (t.onProt (fun q => { q with
       lineValues := q.lineValues.filter (fun x => decide (x.1 ≠ a / 64)) ++ [(a / 64, l)] })))) ∧
   (∀ (s t : State) (p : Packet) (a status : Nat) (l : List Byte), huskStopped s = false → takePacket s 0xC p = some t → a < 2 ^ 64 →
     0 < status → status < 2 ^ 64 → p.payload = bytesOfNat 8 6 ++ bytesOfNat 8 a ++ bytesOfNat 8 status ++ l →
     t.prot.heldLines.any (fun h => decide (h.1 = a / 64)) = true →
     exec (.lineReply p) s = .next (noteChanges s (t.onProt (fun q => { q with lineAsked := q.lineAsked ++ [(a / 64, p.src)] })))) ∧
   (∀ (s : State) (node : BitVec 24) (a step : Nat), generationLine s node a step = none → groupAt s a = none →
     lineAnswer s node a step = (2, List.replicate 64 0, s)))

/-- The twin's timers: with the hop failed the module runs single; with the hop up it waits on and raises 0x080E_0B0C once, and at the limit
evicts its partner (R303, R304). Between steps the survivor copies everything to its partner and is paired again, and the partner takes
the copy over with the survivor's step (R305). That a module with a twin_role and no job begins to rejoin is the model's choice (log
entry 86). -/
def Obligations.TwinTimersAndRejoin : Prop :=
  (∀ s : State, twinWaits s = true → portUp s 6 = false →
    exec .twinTimeout s = .next (noteChanges s (raise (s.onResil (fun r => { r with twinState := 1 })) 0x080E0B0A (currentStep s)))) ∧
  (∀ s : State, twinWaits s = true → portUp s 6 = true → s.resil.twinLateRaised = false →
    exec .twinTimeout s = .next (noteChanges s (raise (s.onResil (fun r => { r with twinLateRaised := true })) 0x080E0B0C (currentStep s)))) ∧
  (∀ s : State, twinWaits s = true → portUp s 6 = true → s.resil.twinLateRaised = true → exec .twinTimeout s = .next s) ∧
  (∀ s : State, twinWaits s = true → portUp s 6 = true →
    exec .twinLateLimit s = .next (noteChanges s
      (raise ((sendPacket s (twinPacket s 0x12 [])).onResil (fun r => { r with twinState := 1 })) 0x080E0B0D (currentStep s)))) ∧
  (∀ s : State, twinWaits s = false → exec .twinTimeout s = .next s ∧ exec .twinLateLimit s = .next s) ∧
  (∀ s : State, cfg s 0x600601 ≠ 0 → s.train.cut = false → s.resil.twinState = 1 →
    exec .twinRejoin s = .next (noteChanges s (copyToTwin (s.onResil (fun r => { r with twinState := 0, twinExports := false }))))) ∧
  (∀ (s : State) (r : Saved), cfg s 0x600601 ≠ 0 → s.train.cut = false → s.resil.twinState = 2 →
    s.resil.submitted.find? (fun y => y.kind == 5) = some r →
    ∃ t, exec .twinRejoin s = .next t ∧ t.resil.twinState = 0 ∧ t.resil.state = 0 ∧ t.train.committed = r.step) ∧
  (∀ s : State, cfg s 0x600601 ≠ 0 → s.train.cut = false → s.resil.twinState = 0 → s.train.started = false →
    exec .twinRejoin s = .next (noteChanges s (s.onResil (fun r => { r with twinState := 2 })))) ∧
  (∀ s : State, cfg s 0x600601 ≠ 0 → s.train.cut = false → s.resil.twinState = 0 → s.train.started = true → exec .twinRejoin s = .next s)

/-- A relayed request is answered as the module's own and its reply returned; the reply reaches the client that waits for it, which is
otherwise told so after 1 ms; the management link's loss alone changes nothing (R331, R327). -/
def Obligations.RequestsRelayed : Prop :=
  (∀ (s t : State) (p : Packet) (op : Nat) (r : Request), huskStopped s = false → takePacket s 0xC p = some t → 72 ≤ p.payload.length →
    natOfBytes (p.payload.take 8) = 1 → requestOf (p.payload.drop 8) = (op, r) → discarded op r = false →
    (answerOwn Findings.nothing t op r).reset = none →
    let a := answerOwn Findings.nothing t op r
    exec (.relayedRequest p) s = .next (noteChanges s (sendPacket a.state (controlPacket a.state p.src p.comm 2 (replyMessage a.reply))))) ∧
  (∀ (s t : State) (p : Packet) (x : Reply), huskStopped s = false → takePacket s 0xC p = some t → 72 ≤ p.payload.length → natOfBytes (p.payload.take 8) = 2 →
    let y := replyOf (p.payload.drop 8)
    t.dict.relayed = [x] → x.requestId = y.requestId → x.op = y.op → x.session = y.session →
    exec (.relayedReply p) s = .next (noteChanges s (emit (t.onDict (fun d => { d with relayed := [] })) (.reply y)))) ∧
  (∀ (s : State) (id : BitVec 32) (x : Reply), s.dict.relayed.find? (fun y => decide (y.requestId = id)) = some x →
    exec (.relayTimeout id) s = .next (noteChanges s (emit (s.onDict (fun d => { d with relayed := d.relayed.erase x })) (.reply x)))) ∧
  (∀ (s : State) (r : Request) (op : Nat), forAnother s r = true → r.version = 1 → s.power.convertersOn = true → discarded op r = false →
    reducedDictionary s = false → op = 1 → exec (.read r) s = .next (noteChanges s (relayRequest s op r))) ∧
  (∀ s : State, exec .mgmtLinkLoss s = .next (noteChanges s s))

/-! ## The machine -/

/-- A step takes the command at the front of the queue and runs it with the queue's rest; with no command waiting the module idles (the
model's choice, log entry 9). -/
def Obligations.StepRunsTheFrontCommand : Prop :=
  (∀ (c : Instr) (s : State), step { s with pending := c :: s.pending } = exec c s) ∧
  (∀ (c : Instr) (rest : List Instr) (s : State), s.pending = c :: rest → step s = exec c { s with pending := rest }) ∧
  (∀ s : State, s.pending = [] → step s = .next s)

/-- After power-on and before start-up: phase 0, no image chosen, no job state, the queues disabled, the ports off, committed_step and the
write ordinal 0, recovery_state 1, every word never written, nothing waiting (R206, R328, R342, R353). -/
def Obligations.ResetHoldsNoJobState : Prop :=
  let s := State.reset
  s.boot.phase = 0 ∧ s.boot.testState = 0 ∧ s.train.committed = 0 ∧ s.train.boundarySeq = 0 ∧ s.dict.ordinal = 0 ∧ s.dict.sessions = [] ∧
    s.resil.state = 1 ∧ s.fabric.groups = [] ∧ s.fabric.epoch = 0 ∧ (∀ q, (queueOf s q).state = 0) ∧ (∀ c, (connOf s c).state = 0) ∧
    (∀ w, neverWritten s.mem w = true) ∧ (∀ w, neverWritten s.banks w = true) ∧ (∀ n, (tileOf s n).program = none) ∧
    s.stack.tileMap = List.range 352 ∧ s.stack.retired = [] ∧ s.pending = [] ∧ s.mem.wf = true ∧ s.banks.wf = true

/-- A command raises by one the change ordinal of every object whose value it leaves altered, and of no other; it does nothing else to the
state that its own effect leaves than draw the next free values (R328; that one command counts as one alteration is the model's choice,
log entry 13). -/
def Obligations.ChangeOrdinalsCountAlterations : Prop :=
  (∀ (s t : State), ∀ o ∈ objects, tabGet 0 (noteChanges s t).dict.change o.key =
    tabGet 0 t.dict.change o.key + (if viewOf s o = viewOf t o then 0 else 1)) ∧
  (∀ (s t : State), noteChanges s t =
    { t with dict := { t.dict with change := (noteChanges s t).dict.change }, free := s.free + 1 }) ∧
  (∀ (s t : State) (k : Nat), (∀ o ∈ objects, o.key ≠ k) → tabGet 0 (noteChanges s t).dict.change k = tabGet 0 t.dict.change k)

/-- Formats are read back as they are written: requests, replies, packet headers with their poisoned words, link headers (Tables 9.5, 9.7,
13.3). -/
def Obligations.MessagesReadBackAsWritten : Prop :=
  (∀ (op : Nat) (r : Request), op < 256 → r.wf = true → requestOf (requestMessage op r) = (op, r)) ∧
  (∀ y : Reply, y.op < 256 → y.status < 256 → y.source < 256 → y.index < 2 ^ 16 → y.sub < 256 → y.effectiveStep < 2 ^ 64 → y.ordinal < 2 ^ 64 →
    y.data.length < 2 ^ 16 → replyOf (replyMessage y) = y) ∧
  (∀ p : Packet, p.wf = true → p.poison.Pairwise (· < ·) → (∀ w ∈ p.poison, 8 * w < p.payload.length) →
    packetOf (natOfBytes (headerBytes p)) (p.payload.zipIdx.map (fun x => (x.1, decide (x.2 % 8 = 0) && p.poison.contains (x.2 / 8)))) = p) ∧
  (∀ h : LinkHeader, h.pos < 4 → h.vc < 16 → h.seq < 4096 → h.ack < 4096 → h.creditVc < 16 → h.creditCount < 256 → h.version < 4 →
    linkHeaderOf h.nat = h)

/-- The canonical form of memory and of the accumulator banks is kept by every step, from every state in which it holds. -/
def Obligations.MemoryStaysCanonical : Prop :=
  ∀ s t : State, s.mem.wf = true → s.banks.wf = true → step s = .next t → t.mem.wf = true ∧ t.banks.wf = true

/-- What flash holds is not taken back by any command: the firmware floor, the signing index and the count of stack resets do not fall, and
a logged retirement is never undone (R344, R346, R349, R358). -/
def Obligations.FlashNeverForgets : Prop :=
  ∀ s t : State, step s = .next t →
    s.flash.floor ≤ t.flash.floor ∧ (∀ r ∈ s.flash.retirements, r ∈ t.flash.retirements) ∧ sigReserved s ≤ sigReserved t ∧
      s.flash.resets ≤ t.flash.resets ∧ t.flash.mgmtMac = s.flash.mgmtMac ∧ t.flash.activeCount = s.flash.activeCount

/-- With the default granule of 4 KiB, HBM address a lies in stack (a >> 12) mod 12, at stack offset ((a >> 12) div 12) × 4,096 + a[11:0]
(R21). Tile-store window n starts at 0x0200_0000_0000 + n × 0x20_0000 and belongs to logical tile n, whatever the tile map; a window
with n ≥ logical_tiles is unmapped, and so is an offset of 0x18_0000 or more in any window (R22). -/
def Obligations.AddressesStandWhereTheSpecPutsThem : Prop :=
  (cfg State.reset 0x300005 = 2 ∧
   ∀ (s : State) (a : Nat), cfg s 0x300005 = 2 →
     stackOf s a = (a >>> 12) % 12 ∧ stackOffset s a = ((a >>> 12) / 12) * 4096 + a % 4096) ∧
  ((∀ (n off : Nat), n < 384 → off < 0x200000 → regionOf (0x020000000000 + n * 0x200000 + off) = some .tileStore) ∧
   (∀ (s : State) (who : Initiator) (w : Bool) (n off : Nat), n < 384 → off < 0x200000 → logicalTiles s ≤ n →
     byteDetail s who w (0x020000000000 + n * 0x200000 + off) = some 0x0103) ∧
   (∀ (s : State) (who : Initiator) (w : Bool) (n off : Nat), n < 384 → 0x180000 ≤ off → off < 0x200000 → n < logicalTiles s →
     byteDetail s who w (0x020000000000 + n * 0x200000 + off) = some 0x0104) ∧
   (∀ (s : State) (m : Nat) (w : Bool) (n off : Nat), n < 384 → off < 0x180000 → n < logicalTiles s →
     byteDetail s (.pip m) w (0x020000000000 + n * 0x200000 + off) = none) ∧
   (∀ (s : State) (k : Stack) (who : Initiator) (w : Bool) (a : Nat), byteDetail { s with stack := k } who w a = byteDetail s who w a))

/-- A group's check gives a non-finite detection when its norm is not finite, and an over-bound one when the norm is finite and above
norm_bound; with skip_policy 0, its default, both feed the global skip flag, and with 1 only the first does, the second being counted in
over_bound_seen (R129). -/
def Obligations.GroupCheckDetections : Prop :=
  cfg State.reset 0x481003 = 0 ∧
  ∀ (s : State) (g : Group),
    let x := checkGroup s g
    let nu := unscaledNorm s.train.history.scaleExp x.1
    let t := makeCheck s g
    (workOf t g.number).nonfinite = !nu.finite ∧
    (nu.finite = false → feedsFlag (workOf t g.number) = true) ∧
    (overBound nu g.bound = true → cfg s 0x481003 = 0 → feedsFlag (workOf t g.number) = true) ∧
    (overBound nu g.bound = true → nu.finite = true → cfg s 0x481003 = 1 → feedsFlag (workOf t g.number) = false ∧
      t.train.overBoundSeen = x.2.2.2.train.overBoundSeen + 1) ∧
    (nu.finite = true → overBound nu g.bound = false → feedsFlag (workOf t g.number) = false) ∧
    (overBound nu g.bound = true ↔ nu.finite = true ∧ nu.gt (decodeNum 8 g.bound) = true)

/-- Writing a port number to fe_port_reset resets that port: it is down, every ready connection of it is in error, all other connections
keep their state, and queues, regions, targets, module memory and the stack are unchanged (R273). -/
def Obligations.PortResetTouchesOnePort : Prop :=
  ∀ (s : State) (r : Request) (x : Session) (o : Obj) (p : Nat), r.index * 256 + r.sub = 0x580007 → writes s r x o → natOfBytes r.data = p → p < 2 →
    ∃ t, exec (.fePortReset r) s = .next t ∧ t.front.portUp = tabSet 0 s.front.portUp p 0 ∧
      (s.front.portUp.Pairwise (fun a b => a.1 < b.1) → tabGet 0 t.front.portUp p = 0) ∧
      (∀ c, (connOf s c).state = 1 → connPort s c = p → (connOf t c).state = 2) ∧
      (∀ c, (connOf s c).state ≠ 1 ∨ connPort s c ≠ p → connOf t c = connOf s c) ∧
      t.front.queues = s.front.queues ∧ t.dict.values = s.dict.values ∧ t.mem = s.mem ∧ t.boot.phase = s.boot.phase ∧
      t.boot.lastReset = s.boot.lastReset ∧ t.stack = s.stack ∧ t.train = s.train ∧ t.fabric = s.fabric
end

