-- ==== Sys2Proof/Laws/Table.lean ====
section
/-! SUPPORT. Sparse tables: what reading gives after a write, and that every operation keeps the canonical form. -/

namespace Sys2Proof.Machine

open Sys2Proof

variable {α : Type}

@[simp] theorem tabFind_nil (k : Nat) : tabFind ([] : Tab α) k = none := rfl

@[simp] theorem tabGet_nil (d : α) (k : Nat) : tabGet d [] k = d := rfl

/-- Reading the key just inserted gives its value, whatever the table. -/
@[simp] theorem tabFind_insert_self (t : Tab α) (k : Nat) (v : α) : tabFind (tabInsert t k v) k = some v := by
  induction t with
  | nil => simp [tabInsert, tabFind]
  | cons e t ih =>
    obtain ⟨j, u⟩ := e
    simp only [tabInsert]
    split
    · simp [tabFind]
    · split
      · simp [tabFind]
      · rename_i h1 h2
        simp [tabFind, h1, h2, ih]

/-- Inserting a key changes what no other key reads, whatever the table. -/
theorem tabFind_insert_other (t : Tab α) {k q : Nat} (v : α) (h : q ≠ k) : tabFind (tabInsert t k v) q = tabFind t q := by
  induction t with
  | nil => simp only [tabInsert, tabFind]; split <;> simp_all
  | cons e t ih =>
    obtain ⟨j, u⟩ := e
    simp only [tabInsert]
    split
    · rename_i hj; subst hj
      simp only [tabFind]
      split
      · omega
      · rfl
    · split
      · simp only [tabFind]
        split
        · omega
        · split
          · split
            · omega
            · split
              · rfl
              · omega
          · rfl
      · simp only [tabFind, ih]

@[simp] theorem tabGet_insert_self (d : α) (t : Tab α) (k : Nat) (v : α) : tabGet d (tabInsert t k v) k = v := by
  simp [tabGet]

theorem tabGet_insert_other (d : α) (t : Tab α) {k q : Nat} (v : α) (h : q ≠ k) : tabGet d (tabInsert t k v) q = tabGet d t q := by
  simp [tabGet, tabFind_insert_other t v h]

/-! ## Rising keys -/

theorem tabRising_tail {b : Option Nat} {e : Nat × α} {t : Tab α} (h : tabRising b (e :: t) = true) : tabRising (some e.1) t = true := by
  obtain ⟨j, u⟩ := e
  cases b <;> simp_all [tabRising]

theorem tabRising_weaken {b c : Nat} {t : Tab α} (hbc : b ≤ c) (h : tabRising (some c) t = true) : tabRising (some b) t = true := by
  cases t with
  | nil => rfl
  | cons e t => simp only [tabRising, Bool.and_eq_true, decide_eq_true_eq] at *; exact ⟨by omega, h.2⟩

theorem tabRising_none_of_some {b : Nat} {t : Tab α} (h : tabRising (some b) t = true) : tabRising none t = true := by
  cases t with
  | nil => rfl
  | cons e t => exact tabRising_tail h

/-- A rising table lists nothing at or below its bound. -/
theorem tabFind_of_rising {b : Nat} {t : Tab α} (h : tabRising (some b) t = true) {k : Nat} (hk : k ≤ b) : tabFind t k = none := by
  cases t with
  | nil => rfl
  | cons e t =>
    simp only [tabRising, Bool.and_eq_true, decide_eq_true_eq] at h
    simp only [tabFind]
    split
    · omega
    · split
      · rfl
      · omega

theorem tabRising_insert_some {b : Nat} {t : Tab α} {k : Nat} {v : α} (hb : b < k) (h : tabRising (some b) t = true) :
    tabRising (some b) (tabInsert t k v) = true := by
  induction t generalizing b with
  | nil => simp [tabInsert, tabRising, hb]
  | cons e t ih =>
    obtain ⟨j, u⟩ := e
    simp only [tabRising, Bool.and_eq_true, decide_eq_true_eq] at h
    simp only [tabInsert]
    split
    · rename_i hj; subst hj; simp [tabRising, hb, h.2]
    · split
      · rename_i h1 h2; simp [tabRising, hb, h2, h.2]
      · rename_i h1 h2
        simp only [tabRising, Bool.and_eq_true, decide_eq_true_eq]
        exact ⟨h.1, ih (by omega) h.2⟩

/-- Inserting keeps the keys rising. -/
theorem tabRising_insert {t : Tab α} {k : Nat} {v : α} (h : tabRising none t = true) : tabRising none (tabInsert t k v) = true := by
  cases t with
  | nil => rfl
  | cons e t =>
    obtain ⟨j, u⟩ := e
    have ht := tabRising_tail h
    simp only [tabInsert]
    split
    · rename_i hj; subst hj; exact ht
    · split
      · rename_i h1 h2; simp [tabRising, h2]; exact ht
      · rename_i h1 h2; exact tabRising_insert_some (b := j) (by omega) ht

theorem tabRising_erase_some {b : Nat} {t : Tab α} {k : Nat} (h : tabRising (some b) t = true) : tabRising (some b) (tabErase t k) = true := by
  induction t generalizing b with
  | nil => rfl
  | cons e t ih =>
    obtain ⟨j, u⟩ := e
    simp only [tabRising, Bool.and_eq_true, decide_eq_true_eq] at h
    simp only [tabErase]
    split
    · exact tabRising_weaken (by omega) h.2
    · split
      · simp [tabRising, h.1, h.2]
      · simp [tabRising, h.1, ih h.2]

/-- Erasing keeps the keys rising. -/
theorem tabRising_erase {t : Tab α} {k : Nat} (h : tabRising none t = true) : tabRising none (tabErase t k) = true := by
  cases t with
  | nil => rfl
  | cons e t =>
    obtain ⟨j, u⟩ := e
    have ht := tabRising_tail h
    simp only [tabErase]
    split
    · exact tabRising_none_of_some ht
    · split
      · exact ht
      · exact tabRising_erase_some ht

theorem tabRising_filter_some {p : Nat × α → Bool} {b : Nat} {t : Tab α} (h : tabRising (some b) t = true) :
    tabRising (some b) (t.filter p) = true := by
  induction t generalizing b with
  | nil => rfl
  | cons e t ih =>
    obtain ⟨j, u⟩ := e
    simp only [tabRising, Bool.and_eq_true, decide_eq_true_eq] at h
    simp only [List.filter]
    split
    · simp [tabRising, h.1, ih h.2]
    · exact ih (tabRising_weaken (by omega) h.2)

theorem tabRising_filter {p : Nat × α → Bool} {t : Tab α} (h : tabRising none t = true) : tabRising none (t.filter p) = true := by
  cases t with
  | nil => rfl
  | cons e t =>
    simp only [List.filter]
    split
    · exact tabRising_filter_some (tabRising_tail h)
    · exact tabRising_none_of_some (tabRising_filter_some (tabRising_tail h))

/-- Dropping a range of keys keeps the keys rising. -/
theorem tabRising_drop {t : Tab α} {lo hi : Nat} (h : tabRising none t = true) : tabRising none (tabDrop t lo hi) = true :=
  tabRising_filter h

/-- After erasing, the key reads as unlisted, where the keys rise. -/
theorem tabFind_erase_self {b : Option Nat} {t : Tab α} (h : tabRising b t = true) (k : Nat) : tabFind (tabErase t k) k = none := by
  induction t generalizing b with
  | nil => rfl
  | cons e t ih =>
    obtain ⟨j, u⟩ := e
    have ht := tabRising_tail h
    simp only [tabErase]
    split
    · rename_i hj; subst hj; exact tabFind_of_rising ht (Nat.le_refl _)
    · split
      · rename_i h1 h2; simp [tabFind, h1, h2]
      · rename_i h1 h2; simp [tabFind, h1, h2, ih ht]

/-- Erasing changes what no other key reads, where the keys rise. -/
theorem tabFind_erase_other {b : Option Nat} {t : Tab α} (h : tabRising b t = true) {k q : Nat} (hq : q ≠ k) :
    tabFind (tabErase t k) q = tabFind t q := by
  induction t generalizing b with
  | nil => rfl
  | cons e t ih =>
    obtain ⟨j, u⟩ := e
    have ht := tabRising_tail h
    simp only [tabErase]
    split
    · rename_i hj; subst hj
      simp only [tabFind]
      split
      · omega
      · split
        · rename_i h1 h2; exact tabFind_of_rising ht (by omega)
        · rfl
    · split
      · rfl
      · simp only [tabFind, ih ht]

/-! ## Setting and changing a key -/

theorem tabGet_set_self [DecidableEq α] {d : α} {t : Tab α} (h : tabRising none t = true) (k : Nat) (v : α) :
    tabGet d (tabSet d t k v) k = v := by
  unfold tabSet
  split
  · rename_i hv; subst hv; simp [tabGet, tabFind_erase_self h]
  · simp

theorem tabGet_set_other [DecidableEq α] {d : α} {t : Tab α} (h : tabRising none t = true) {k q : Nat} (v : α) (hq : q ≠ k) :
    tabGet d (tabSet d t k v) q = tabGet d t q := by
  unfold tabSet
  split
  · simp [tabGet, tabFind_erase_other h hq]
  · exact tabGet_insert_other d t v hq

/-- A value that is not the default reads back, whatever the table. -/
theorem tabGet_set_value [DecidableEq α] {d : α} (t : Tab α) (k : Nat) {v : α} (hv : v ≠ d) : tabGet d (tabSet d t k v) k = v := by
  simp [tabSet, hv]

theorem tabGet_modify_self [DecidableEq α] {d : α} {t : Tab α} (h : tabRising none t = true) (k : Nat) (f : α → α) :
    tabGet d (tabModify d t k f) k = f (tabGet d t k) := tabGet_set_self h k _

theorem tabGet_modify_other [DecidableEq α] {d : α} {t : Tab α} (h : tabRising none t = true) {k q : Nat} (f : α → α) (hq : q ≠ k) :
    tabGet d (tabModify d t k f) q = tabGet d t q := tabGet_set_other h _ hq

theorem tabGet_modify_value [DecidableEq α] {d : α} (t : Tab α) (k : Nat) {f : α → α} (hv : f (tabGet d t k) ≠ d) :
    tabGet d (tabModify d t k f) k = f (tabGet d t k) := tabGet_set_value t k hv

/-- Counting adds, where the keys rise. -/
theorem tabGet_count {t : Tab Nat} (h : tabRising none t = true) (k n : Nat) : tabGet 0 (tabCount t k n) k = tabGet 0 t k + n :=
  tabGet_modify_self h k _

/-! ## The canonical form -/

theorem all_insert {p : Nat × α → Bool} {t : Tab α} {k : Nat} {v : α} (h : t.all p = true) (hv : p (k, v) = true) :
    (tabInsert t k v).all p = true := by
  induction t with
  | nil => simp [tabInsert, hv]
  | cons e t ih =>
    obtain ⟨j, u⟩ := e
    simp only [List.all_cons, Bool.and_eq_true] at h
    simp only [tabInsert]
    split
    · simp [hv, h.2]
    · split
      · simp [hv, h.1, h.2]
      · simp [h.1, ih h.2]

theorem all_erase {p : Nat × α → Bool} {t : Tab α} {k : Nat} (h : t.all p = true) : (tabErase t k).all p = true := by
  induction t with
  | nil => rfl
  | cons e t ih =>
    obtain ⟨j, u⟩ := e
    simp only [List.all_cons, Bool.and_eq_true] at h
    simp only [tabErase]
    split
    · exact h.2
    · split
      · simp [h.1, h.2]
      · simp [h.1, ih h.2]

/-- Setting a key keeps the canonical form. -/
theorem tabWf_set [DecidableEq α] {d : α} {t : Tab α} (h : tabWf d t = true) (k : Nat) (v : α) : tabWf d (tabSet d t k v) = true := by
  simp only [tabWf, Bool.and_eq_true] at *
  unfold tabSet
  split
  · exact ⟨tabRising_erase h.1, all_erase h.2⟩
  · rename_i hv; exact ⟨tabRising_insert h.1, all_insert h.2 (by simpa using hv)⟩

theorem tabWf_modify [DecidableEq α] {d : α} {t : Tab α} (h : tabWf d t = true) (k : Nat) (f : α → α) : tabWf d (tabModify d t k f) = true :=
  tabWf_set h k _

theorem tabWf_drop [DecidableEq α] {d : α} {t : Tab α} (h : tabWf d t = true) (lo hi : Nat) : tabWf d (tabDrop t lo hi) = true := by
  simp only [tabWf, Bool.and_eq_true] at *
  refine ⟨tabRising_drop h.1, ?_⟩
  simp only [List.all_eq_true, tabDrop, List.mem_filter] at *
  exact fun x hx => h.2 x hx.1

end Sys2Proof.Machine
end

