-- ==== Sys2Proof/Laws/Memory.lean ====
section
/-! SUPPORT. Protected memory: a word written reads back, other bytes stay, every operation keeps the canonical form, and reading
words whose codes hold changes nothing. -/

namespace Sys2Proof.Machine

open Sys2Proof

/-! ## The canonical form -/

theorem Memory.wf_iff {m : Memory} : m.wf = true ↔ tabRising none m.cells = true ∧ tabWf 0 m.synd = true := by
  simp [Memory.wf]

@[simp] theorem neverWritten_wf : Memory.neverWritten.wf = true := rfl

theorem tabRising_putBytes {t : Tab Byte} {a : Nat} {l : List Byte} (h : tabRising none t = true) : tabRising none (putBytes t a l) = true := by
  induction l generalizing t a with
  | nil => exact h
  | cons b l ih => exact ih (tabRising_insert h)

/-- Writing a word keeps the canonical form. -/
theorem putWord_wf {m : Memory} (h : m.wf = true) (w : Nat) (d : Word64) (p : Bool) : (putWord m w d p).wf = true := by
  rw [Memory.wf_iff] at *
  exact ⟨tabRising_putBytes h.1, tabWf_set h.2 _ _⟩

/-- Forgetting a range keeps the canonical form. -/
theorem forget_wf {m : Memory} (h : m.wf = true) (lo hi : Nat) : (forget m lo hi).wf = true := by
  rw [Memory.wf_iff] at *
  exact ⟨tabRising_drop h.1, tabWf_drop h.2 _ _⟩

/-! ## What writing stores -/

theorem tabFind_putBytes_before {t : Tab Byte} {a q : Nat} {l : List Byte} (h : q < a) : tabFind (putBytes t a l) q = tabFind t q := by
  induction l generalizing t a with
  | nil => rfl
  | cons b l ih => rw [putBytes, ih (by omega), tabFind_insert_other t b (by omega)]

theorem tabFind_putBytes_after {t : Tab Byte} {a q : Nat} {l : List Byte} (h : a + l.length ≤ q) :
    tabFind (putBytes t a l) q = tabFind t q := by
  induction l generalizing t a with
  | nil => rfl
  | cons b l ih =>
    simp only [List.length_cons] at h
    rw [putBytes, ih (by omega), tabFind_insert_other t b (by omega)]

/-- Bytes written read back. -/
theorem tabFind_putBytes {t : Tab Byte} {a i : Nat} {l : List Byte} (h : i < l.length) : tabFind (putBytes t a l) (a + i) = l[i]? := by
  induction l generalizing t a i with
  | nil => simp at h
  | cons b l ih =>
    cases i with
    | zero => rw [putBytes]; simp [tabFind_putBytes_before (Nat.lt_succ_self a)]
    | succ i =>
      simp only [List.length_cons] at h
      have := ih (t := tabInsert t a b) (a := a + 1) (i := i) (by omega)
      rw [putBytes, show a + (i + 1) = a + 1 + i by omega, this]; rfl

theorem bytesOfNat_length (n v : Nat) : (bytesOfNat n v).length = n := by
  induction n generalizing v with
  | zero => rfl
  | succ n ih => simp [bytesOfNat, ih]

/-- A byte of a word written. -/
theorem memByte?_putWord_in (m : Memory) (w : Nat) (d : Word64) (p : Bool) {i : Nat} (h : i < 8) :
    memByte? (putWord m w d p) (8 * w + i) = (bytesOfNat 8 d.toNat)[i]? :=
  tabFind_putBytes (by rw [bytesOfNat_length]; exact h)

/-- A byte outside the word written stays. -/
theorem memByte?_putWord_out (m : Memory) (w : Nat) (d : Word64) (p : Bool) {a : Nat} (h : a < 8 * w ∨ 8 * w + 8 ≤ a) :
    memByte? (putWord m w d p) a = memByte? m a := by
  rcases h with h | h
  · exact tabFind_putBytes_before h
  · exact tabFind_putBytes_after (by rw [bytesOfNat_length]; exact h)

theorem heldByte_of_memByte? {m m' : Memory} {n a : Nat} (h : memByte? m' a = memByte? m a) : heldByte m' n a = heldByte m n a := by
  simp [heldByte, h]

/-- The syndrome of a word written: none, or that of poison. -/
theorem synd_putWord {m : Memory} (h : m.wf = true) (w : Nat) (d : Word64) (p : Bool) :
    tabGet 0 (putWord m w d p).synd w = if p then 0xFF else 0 := by
  rw [Memory.wf_iff] at h
  simp only [tabWf, Bool.and_eq_true] at h
  exact tabGet_set_self h.2.1 _ _

theorem synd_putWord_other {m : Memory} (h : m.wf = true) {w q : Nat} (d : Word64) (p : Bool) (hq : q ≠ w) :
    tabGet 0 (putWord m w d p).synd q = tabGet 0 m.synd q := by
  rw [Memory.wf_iff] at h
  simp only [tabWf, Bool.and_eq_true] at h
  exact tabGet_set_other h.2.1 _ hq

/-! ## Reading words whose codes hold -/

/-- The word is written and its code holds. -/
abbrev clean (m : Memory) (w : Nat) : Prop := neverWritten m w = false ∧ tabGet 0 m.synd w = 0

theorem heldSyndrome_clean {m : Memory} {n w : Nat} (h : clean m w) : heldSyndrome m n w = 0 := by
  have h2 : tabGet 0 m.synd w = 0 := h.2
  unfold heldSyndrome
  rw [h.1, if_neg Bool.false_ne_true]
  exact h2

/-- Reading such a word gives its data and changes nothing. -/
theorem readWord_clean {s : State} {w : Nat} (h : clean s.mem w) : readWord s w = (.good (heldWord s.mem s.free w), s) := by
  have h0 : decodeSyndrome (heldSyndrome s.mem s.free w) = .clean := by rw [heldSyndrome_clean h]; rfl
  unfold readWord
  simp only [h0]
  split <;> rfl

/-- The bytes of `n` words from `w` up, unmarked. -/
def wordBytes (s : State) (w n : Nat) : List (Byte × Bool) :=
  (List.range n).flatMap (fun i => (bytesOfNat 8 (heldWord s.mem s.free (w + i)).toNat).map (fun b => (b, false)))

theorem wordBytes_succ (s : State) (w n : Nat) : wordBytes s w (n + 1) =
    (bytesOfNat 8 (heldWord s.mem s.free w).toNat).map (fun b => (b, false)) ++ wordBytes s (w + 1) n := by
  have e : (fun i => (bytesOfNat 8 (heldWord s.mem s.free (w + (i + 1))).toNat).map (fun b => (b, false))) =
      fun i => (bytesOfNat 8 (heldWord s.mem s.free (w + 1 + i)).toNat).map (fun b => (b, false)) := by
    funext i
    rw [Nat.add_assoc w 1 i, Nat.add_comm 1 i]
  rw [wordBytes, List.range_succ_eq_map, List.flatMap_cons, List.flatMap_map, Nat.add_zero]
  exact congrArg _ (congrArg (fun f => (List.range n).flatMap f) e)

theorem readWords_clean {s : State} {n w : Nat} (h : ∀ i, i < n → clean s.mem (w + i)) :
    readWords n s w = (⟨wordBytes s w n, false, false⟩, s) := by
  induction n generalizing w with
  | zero => rfl
  | succ n ih =>
    have h0 : clean s.mem w := h 0 (by omega)
    have hr := ih (w := w + 1) (fun i hi => by have := h (i + 1) (by omega); rwa [show w + (i + 1) = w + 1 + i by omega] at this)
    unfold readWords
    simp only [readWord_clean h0, hr, wordBytes_succ]

/-- Reading bytes of such words gives them unmarked and changes nothing. -/
theorem readBytes_clean {s : State} {a len : Nat} (h : ∀ w, a / 8 ≤ w → w < (a + len + 7) / 8 → clean s.mem w) :
    readBytes s a len =
      (⟨((wordBytes s (a / 8) ((a + len + 7) / 8 - a / 8)).drop (a - 8 * (a / 8))).take len, false, false⟩, s) := by
  simp only [readBytes]
  rw [readWords_clean (fun i hi => h _ (by omega) (by omega))]

end Sys2Proof.Machine
end

