-- ==== Sys2Proof/Laws/State.lean ====
section
/-! SUPPORT. The projections of the updates of State: one lemma for each field of each update. -/

namespace Sys2Proof.Machine

open Sys2Proof

/-! ## onPower -/

@[simp] theorem onPower_power (s : State) (f : Power → Power) : (s.onPower f).power = f s.power := rfl
@[simp] theorem onPower_flash (s : State) (f : Power → Power) : (s.onPower f).flash = s.flash := rfl
@[simp] theorem onPower_boot (s : State) (f : Power → Power) : (s.onPower f).boot = s.boot := rfl
@[simp] theorem onPower_dict (s : State) (f : Power → Power) : (s.onPower f).dict = s.dict := rfl
@[simp] theorem onPower_mem (s : State) (f : Power → Power) : (s.onPower f).mem = s.mem := rfl
@[simp] theorem onPower_banks (s : State) (f : Power → Power) : (s.onPower f).banks = s.banks := rfl
@[simp] theorem onPower_rowMasks (s : State) (f : Power → Power) : (s.onPower f).rowMasks = s.rowMasks := rfl
@[simp] theorem onPower_colMasks (s : State) (f : Power → Power) : (s.onPower f).colMasks = s.colMasks := rfl
@[simp] theorem onPower_tiles (s : State) (f : Power → Power) : (s.onPower f).tiles = s.tiles := rfl
@[simp] theorem onPower_stack (s : State) (f : Power → Power) : (s.onPower f).stack = s.stack := rfl
@[simp] theorem onPower_uses (s : State) (f : Power → Power) : (s.onPower f).uses = s.uses := rfl
@[simp] theorem onPower_cache (s : State) (f : Power → Power) : (s.onPower f).cache = s.cache := rfl
@[simp] theorem onPower_prot (s : State) (f : Power → Power) : (s.onPower f).prot = s.prot := rfl
@[simp] theorem onPower_cracker (s : State) (f : Power → Power) : (s.onPower f).cracker = s.cracker := rfl
@[simp] theorem onPower_train (s : State) (f : Power → Power) : (s.onPower f).train = s.train := rfl
@[simp] theorem onPower_fabric (s : State) (f : Power → Power) : (s.onPower f).fabric = s.fabric := rfl
@[simp] theorem onPower_front (s : State) (f : Power → Power) : (s.onPower f).front = s.front := rfl
@[simp] theorem onPower_resil (s : State) (f : Power → Power) : (s.onPower f).resil = s.resil := rfl
@[simp] theorem onPower_out (s : State) (f : Power → Power) : (s.onPower f).out = s.out := rfl
@[simp] theorem onPower_free (s : State) (f : Power → Power) : (s.onPower f).free = s.free := rfl
@[simp] theorem onPower_pending (s : State) (f : Power → Power) : (s.onPower f).pending = s.pending := rfl

/-! ## onBoot -/

@[simp] theorem onBoot_power (s : State) (f : Boot → Boot) : (s.onBoot f).power = s.power := rfl
@[simp] theorem onBoot_flash (s : State) (f : Boot → Boot) : (s.onBoot f).flash = s.flash := rfl
@[simp] theorem onBoot_boot (s : State) (f : Boot → Boot) : (s.onBoot f).boot = f s.boot := rfl
@[simp] theorem onBoot_dict (s : State) (f : Boot → Boot) : (s.onBoot f).dict = s.dict := rfl
@[simp] theorem onBoot_mem (s : State) (f : Boot → Boot) : (s.onBoot f).mem = s.mem := rfl
@[simp] theorem onBoot_banks (s : State) (f : Boot → Boot) : (s.onBoot f).banks = s.banks := rfl
@[simp] theorem onBoot_rowMasks (s : State) (f : Boot → Boot) : (s.onBoot f).rowMasks = s.rowMasks := rfl
@[simp] theorem onBoot_colMasks (s : State) (f : Boot → Boot) : (s.onBoot f).colMasks = s.colMasks := rfl
@[simp] theorem onBoot_tiles (s : State) (f : Boot → Boot) : (s.onBoot f).tiles = s.tiles := rfl
@[simp] theorem onBoot_stack (s : State) (f : Boot → Boot) : (s.onBoot f).stack = s.stack := rfl
@[simp] theorem onBoot_uses (s : State) (f : Boot → Boot) : (s.onBoot f).uses = s.uses := rfl
@[simp] theorem onBoot_cache (s : State) (f : Boot → Boot) : (s.onBoot f).cache = s.cache := rfl
@[simp] theorem onBoot_prot (s : State) (f : Boot → Boot) : (s.onBoot f).prot = s.prot := rfl
@[simp] theorem onBoot_cracker (s : State) (f : Boot → Boot) : (s.onBoot f).cracker = s.cracker := rfl
@[simp] theorem onBoot_train (s : State) (f : Boot → Boot) : (s.onBoot f).train = s.train := rfl
@[simp] theorem onBoot_fabric (s : State) (f : Boot → Boot) : (s.onBoot f).fabric = s.fabric := rfl
@[simp] theorem onBoot_front (s : State) (f : Boot → Boot) : (s.onBoot f).front = s.front := rfl
@[simp] theorem onBoot_resil (s : State) (f : Boot → Boot) : (s.onBoot f).resil = s.resil := rfl
@[simp] theorem onBoot_out (s : State) (f : Boot → Boot) : (s.onBoot f).out = s.out := rfl
@[simp] theorem onBoot_free (s : State) (f : Boot → Boot) : (s.onBoot f).free = s.free := rfl
@[simp] theorem onBoot_pending (s : State) (f : Boot → Boot) : (s.onBoot f).pending = s.pending := rfl

/-! ## onFlash -/

@[simp] theorem onFlash_power (s : State) (f : Flash → Flash) : (s.onFlash f).power = s.power := rfl
@[simp] theorem onFlash_flash (s : State) (f : Flash → Flash) : (s.onFlash f).flash = f s.flash := rfl
@[simp] theorem onFlash_boot (s : State) (f : Flash → Flash) : (s.onFlash f).boot = s.boot := rfl
@[simp] theorem onFlash_dict (s : State) (f : Flash → Flash) : (s.onFlash f).dict = s.dict := rfl
@[simp] theorem onFlash_mem (s : State) (f : Flash → Flash) : (s.onFlash f).mem = s.mem := rfl
@[simp] theorem onFlash_banks (s : State) (f : Flash → Flash) : (s.onFlash f).banks = s.banks := rfl
@[simp] theorem onFlash_rowMasks (s : State) (f : Flash → Flash) : (s.onFlash f).rowMasks = s.rowMasks := rfl
@[simp] theorem onFlash_colMasks (s : State) (f : Flash → Flash) : (s.onFlash f).colMasks = s.colMasks := rfl
@[simp] theorem onFlash_tiles (s : State) (f : Flash → Flash) : (s.onFlash f).tiles = s.tiles := rfl
@[simp] theorem onFlash_stack (s : State) (f : Flash → Flash) : (s.onFlash f).stack = s.stack := rfl
@[simp] theorem onFlash_uses (s : State) (f : Flash → Flash) : (s.onFlash f).uses = s.uses := rfl
@[simp] theorem onFlash_cache (s : State) (f : Flash → Flash) : (s.onFlash f).cache = s.cache := rfl
@[simp] theorem onFlash_prot (s : State) (f : Flash → Flash) : (s.onFlash f).prot = s.prot := rfl
@[simp] theorem onFlash_cracker (s : State) (f : Flash → Flash) : (s.onFlash f).cracker = s.cracker := rfl
@[simp] theorem onFlash_train (s : State) (f : Flash → Flash) : (s.onFlash f).train = s.train := rfl
@[simp] theorem onFlash_fabric (s : State) (f : Flash → Flash) : (s.onFlash f).fabric = s.fabric := rfl
@[simp] theorem onFlash_front (s : State) (f : Flash → Flash) : (s.onFlash f).front = s.front := rfl
@[simp] theorem onFlash_resil (s : State) (f : Flash → Flash) : (s.onFlash f).resil = s.resil := rfl
@[simp] theorem onFlash_out (s : State) (f : Flash → Flash) : (s.onFlash f).out = s.out := rfl
@[simp] theorem onFlash_free (s : State) (f : Flash → Flash) : (s.onFlash f).free = s.free := rfl
@[simp] theorem onFlash_pending (s : State) (f : Flash → Flash) : (s.onFlash f).pending = s.pending := rfl

/-! ## onDict -/

@[simp] theorem onDict_power (s : State) (f : Dict → Dict) : (s.onDict f).power = s.power := rfl
@[simp] theorem onDict_flash (s : State) (f : Dict → Dict) : (s.onDict f).flash = s.flash := rfl
@[simp] theorem onDict_boot (s : State) (f : Dict → Dict) : (s.onDict f).boot = s.boot := rfl
@[simp] theorem onDict_dict (s : State) (f : Dict → Dict) : (s.onDict f).dict = f s.dict := rfl
@[simp] theorem onDict_mem (s : State) (f : Dict → Dict) : (s.onDict f).mem = s.mem := rfl
@[simp] theorem onDict_banks (s : State) (f : Dict → Dict) : (s.onDict f).banks = s.banks := rfl
@[simp] theorem onDict_rowMasks (s : State) (f : Dict → Dict) : (s.onDict f).rowMasks = s.rowMasks := rfl
@[simp] theorem onDict_colMasks (s : State) (f : Dict → Dict) : (s.onDict f).colMasks = s.colMasks := rfl
@[simp] theorem onDict_tiles (s : State) (f : Dict → Dict) : (s.onDict f).tiles = s.tiles := rfl
@[simp] theorem onDict_stack (s : State) (f : Dict → Dict) : (s.onDict f).stack = s.stack := rfl
@[simp] theorem onDict_uses (s : State) (f : Dict → Dict) : (s.onDict f).uses = s.uses := rfl
@[simp] theorem onDict_cache (s : State) (f : Dict → Dict) : (s.onDict f).cache = s.cache := rfl
@[simp] theorem onDict_prot (s : State) (f : Dict → Dict) : (s.onDict f).prot = s.prot := rfl
@[simp] theorem onDict_cracker (s : State) (f : Dict → Dict) : (s.onDict f).cracker = s.cracker := rfl
@[simp] theorem onDict_train (s : State) (f : Dict → Dict) : (s.onDict f).train = s.train := rfl
@[simp] theorem onDict_fabric (s : State) (f : Dict → Dict) : (s.onDict f).fabric = s.fabric := rfl
@[simp] theorem onDict_front (s : State) (f : Dict → Dict) : (s.onDict f).front = s.front := rfl
@[simp] theorem onDict_resil (s : State) (f : Dict → Dict) : (s.onDict f).resil = s.resil := rfl
@[simp] theorem onDict_out (s : State) (f : Dict → Dict) : (s.onDict f).out = s.out := rfl
@[simp] theorem onDict_free (s : State) (f : Dict → Dict) : (s.onDict f).free = s.free := rfl
@[simp] theorem onDict_pending (s : State) (f : Dict → Dict) : (s.onDict f).pending = s.pending := rfl

/-! ## onCache -/

@[simp] theorem onCache_power (s : State) (f : Cache → Cache) : (s.onCache f).power = s.power := rfl
@[simp] theorem onCache_flash (s : State) (f : Cache → Cache) : (s.onCache f).flash = s.flash := rfl
@[simp] theorem onCache_boot (s : State) (f : Cache → Cache) : (s.onCache f).boot = s.boot := rfl
@[simp] theorem onCache_dict (s : State) (f : Cache → Cache) : (s.onCache f).dict = s.dict := rfl
@[simp] theorem onCache_mem (s : State) (f : Cache → Cache) : (s.onCache f).mem = s.mem := rfl
@[simp] theorem onCache_banks (s : State) (f : Cache → Cache) : (s.onCache f).banks = s.banks := rfl
@[simp] theorem onCache_rowMasks (s : State) (f : Cache → Cache) : (s.onCache f).rowMasks = s.rowMasks := rfl
@[simp] theorem onCache_colMasks (s : State) (f : Cache → Cache) : (s.onCache f).colMasks = s.colMasks := rfl
@[simp] theorem onCache_tiles (s : State) (f : Cache → Cache) : (s.onCache f).tiles = s.tiles := rfl
@[simp] theorem onCache_stack (s : State) (f : Cache → Cache) : (s.onCache f).stack = s.stack := rfl
@[simp] theorem onCache_uses (s : State) (f : Cache → Cache) : (s.onCache f).uses = s.uses := rfl
@[simp] theorem onCache_cache (s : State) (f : Cache → Cache) : (s.onCache f).cache = f s.cache := rfl
@[simp] theorem onCache_prot (s : State) (f : Cache → Cache) : (s.onCache f).prot = s.prot := rfl
@[simp] theorem onCache_cracker (s : State) (f : Cache → Cache) : (s.onCache f).cracker = s.cracker := rfl
@[simp] theorem onCache_train (s : State) (f : Cache → Cache) : (s.onCache f).train = s.train := rfl
@[simp] theorem onCache_fabric (s : State) (f : Cache → Cache) : (s.onCache f).fabric = s.fabric := rfl
@[simp] theorem onCache_front (s : State) (f : Cache → Cache) : (s.onCache f).front = s.front := rfl
@[simp] theorem onCache_resil (s : State) (f : Cache → Cache) : (s.onCache f).resil = s.resil := rfl
@[simp] theorem onCache_out (s : State) (f : Cache → Cache) : (s.onCache f).out = s.out := rfl
@[simp] theorem onCache_free (s : State) (f : Cache → Cache) : (s.onCache f).free = s.free := rfl
@[simp] theorem onCache_pending (s : State) (f : Cache → Cache) : (s.onCache f).pending = s.pending := rfl

/-! ## onProt -/

@[simp] theorem onProt_power (s : State) (f : Protect → Protect) : (s.onProt f).power = s.power := rfl
@[simp] theorem onProt_flash (s : State) (f : Protect → Protect) : (s.onProt f).flash = s.flash := rfl
@[simp] theorem onProt_boot (s : State) (f : Protect → Protect) : (s.onProt f).boot = s.boot := rfl
@[simp] theorem onProt_dict (s : State) (f : Protect → Protect) : (s.onProt f).dict = s.dict := rfl
@[simp] theorem onProt_mem (s : State) (f : Protect → Protect) : (s.onProt f).mem = s.mem := rfl
@[simp] theorem onProt_banks (s : State) (f : Protect → Protect) : (s.onProt f).banks = s.banks := rfl
@[simp] theorem onProt_rowMasks (s : State) (f : Protect → Protect) : (s.onProt f).rowMasks = s.rowMasks := rfl
@[simp] theorem onProt_colMasks (s : State) (f : Protect → Protect) : (s.onProt f).colMasks = s.colMasks := rfl
@[simp] theorem onProt_tiles (s : State) (f : Protect → Protect) : (s.onProt f).tiles = s.tiles := rfl
@[simp] theorem onProt_stack (s : State) (f : Protect → Protect) : (s.onProt f).stack = s.stack := rfl
@[simp] theorem onProt_uses (s : State) (f : Protect → Protect) : (s.onProt f).uses = s.uses := rfl
@[simp] theorem onProt_cache (s : State) (f : Protect → Protect) : (s.onProt f).cache = s.cache := rfl
@[simp] theorem onProt_prot (s : State) (f : Protect → Protect) : (s.onProt f).prot = f s.prot := rfl
@[simp] theorem onProt_cracker (s : State) (f : Protect → Protect) : (s.onProt f).cracker = s.cracker := rfl
@[simp] theorem onProt_train (s : State) (f : Protect → Protect) : (s.onProt f).train = s.train := rfl
@[simp] theorem onProt_fabric (s : State) (f : Protect → Protect) : (s.onProt f).fabric = s.fabric := rfl
@[simp] theorem onProt_front (s : State) (f : Protect → Protect) : (s.onProt f).front = s.front := rfl
@[simp] theorem onProt_resil (s : State) (f : Protect → Protect) : (s.onProt f).resil = s.resil := rfl
@[simp] theorem onProt_out (s : State) (f : Protect → Protect) : (s.onProt f).out = s.out := rfl
@[simp] theorem onProt_free (s : State) (f : Protect → Protect) : (s.onProt f).free = s.free := rfl
@[simp] theorem onProt_pending (s : State) (f : Protect → Protect) : (s.onProt f).pending = s.pending := rfl

/-! ## onStack -/

@[simp] theorem onStack_power (s : State) (f : Stack → Stack) : (s.onStack f).power = s.power := rfl
@[simp] theorem onStack_flash (s : State) (f : Stack → Stack) : (s.onStack f).flash = s.flash := rfl
@[simp] theorem onStack_boot (s : State) (f : Stack → Stack) : (s.onStack f).boot = s.boot := rfl
@[simp] theorem onStack_dict (s : State) (f : Stack → Stack) : (s.onStack f).dict = s.dict := rfl
@[simp] theorem onStack_mem (s : State) (f : Stack → Stack) : (s.onStack f).mem = s.mem := rfl
@[simp] theorem onStack_banks (s : State) (f : Stack → Stack) : (s.onStack f).banks = s.banks := rfl
@[simp] theorem onStack_rowMasks (s : State) (f : Stack → Stack) : (s.onStack f).rowMasks = s.rowMasks := rfl
@[simp] theorem onStack_colMasks (s : State) (f : Stack → Stack) : (s.onStack f).colMasks = s.colMasks := rfl
@[simp] theorem onStack_tiles (s : State) (f : Stack → Stack) : (s.onStack f).tiles = s.tiles := rfl
@[simp] theorem onStack_stack (s : State) (f : Stack → Stack) : (s.onStack f).stack = f s.stack := rfl
@[simp] theorem onStack_uses (s : State) (f : Stack → Stack) : (s.onStack f).uses = s.uses := rfl
@[simp] theorem onStack_cache (s : State) (f : Stack → Stack) : (s.onStack f).cache = s.cache := rfl
@[simp] theorem onStack_prot (s : State) (f : Stack → Stack) : (s.onStack f).prot = s.prot := rfl
@[simp] theorem onStack_cracker (s : State) (f : Stack → Stack) : (s.onStack f).cracker = s.cracker := rfl
@[simp] theorem onStack_train (s : State) (f : Stack → Stack) : (s.onStack f).train = s.train := rfl
@[simp] theorem onStack_fabric (s : State) (f : Stack → Stack) : (s.onStack f).fabric = s.fabric := rfl
@[simp] theorem onStack_front (s : State) (f : Stack → Stack) : (s.onStack f).front = s.front := rfl
@[simp] theorem onStack_resil (s : State) (f : Stack → Stack) : (s.onStack f).resil = s.resil := rfl
@[simp] theorem onStack_out (s : State) (f : Stack → Stack) : (s.onStack f).out = s.out := rfl
@[simp] theorem onStack_free (s : State) (f : Stack → Stack) : (s.onStack f).free = s.free := rfl
@[simp] theorem onStack_pending (s : State) (f : Stack → Stack) : (s.onStack f).pending = s.pending := rfl

/-! ## onCracker -/

@[simp] theorem onCracker_power (s : State) (f : Cracker → Cracker) : (s.onCracker f).power = s.power := rfl
@[simp] theorem onCracker_flash (s : State) (f : Cracker → Cracker) : (s.onCracker f).flash = s.flash := rfl
@[simp] theorem onCracker_boot (s : State) (f : Cracker → Cracker) : (s.onCracker f).boot = s.boot := rfl
@[simp] theorem onCracker_dict (s : State) (f : Cracker → Cracker) : (s.onCracker f).dict = s.dict := rfl
@[simp] theorem onCracker_mem (s : State) (f : Cracker → Cracker) : (s.onCracker f).mem = s.mem := rfl
@[simp] theorem onCracker_banks (s : State) (f : Cracker → Cracker) : (s.onCracker f).banks = s.banks := rfl
@[simp] theorem onCracker_rowMasks (s : State) (f : Cracker → Cracker) : (s.onCracker f).rowMasks = s.rowMasks := rfl
@[simp] theorem onCracker_colMasks (s : State) (f : Cracker → Cracker) : (s.onCracker f).colMasks = s.colMasks := rfl
@[simp] theorem onCracker_tiles (s : State) (f : Cracker → Cracker) : (s.onCracker f).tiles = s.tiles := rfl
@[simp] theorem onCracker_stack (s : State) (f : Cracker → Cracker) : (s.onCracker f).stack = s.stack := rfl
@[simp] theorem onCracker_uses (s : State) (f : Cracker → Cracker) : (s.onCracker f).uses = s.uses := rfl
@[simp] theorem onCracker_cache (s : State) (f : Cracker → Cracker) : (s.onCracker f).cache = s.cache := rfl
@[simp] theorem onCracker_prot (s : State) (f : Cracker → Cracker) : (s.onCracker f).prot = s.prot := rfl
@[simp] theorem onCracker_cracker (s : State) (f : Cracker → Cracker) : (s.onCracker f).cracker = f s.cracker := rfl
@[simp] theorem onCracker_train (s : State) (f : Cracker → Cracker) : (s.onCracker f).train = s.train := rfl
@[simp] theorem onCracker_fabric (s : State) (f : Cracker → Cracker) : (s.onCracker f).fabric = s.fabric := rfl
@[simp] theorem onCracker_front (s : State) (f : Cracker → Cracker) : (s.onCracker f).front = s.front := rfl
@[simp] theorem onCracker_resil (s : State) (f : Cracker → Cracker) : (s.onCracker f).resil = s.resil := rfl
@[simp] theorem onCracker_out (s : State) (f : Cracker → Cracker) : (s.onCracker f).out = s.out := rfl
@[simp] theorem onCracker_free (s : State) (f : Cracker → Cracker) : (s.onCracker f).free = s.free := rfl
@[simp] theorem onCracker_pending (s : State) (f : Cracker → Cracker) : (s.onCracker f).pending = s.pending := rfl

/-! ## onTrain -/

@[simp] theorem onTrain_power (s : State) (f : Training → Training) : (s.onTrain f).power = s.power := rfl
@[simp] theorem onTrain_flash (s : State) (f : Training → Training) : (s.onTrain f).flash = s.flash := rfl
@[simp] theorem onTrain_boot (s : State) (f : Training → Training) : (s.onTrain f).boot = s.boot := rfl
@[simp] theorem onTrain_dict (s : State) (f : Training → Training) : (s.onTrain f).dict = s.dict := rfl
@[simp] theorem onTrain_mem (s : State) (f : Training → Training) : (s.onTrain f).mem = s.mem := rfl
@[simp] theorem onTrain_banks (s : State) (f : Training → Training) : (s.onTrain f).banks = s.banks := rfl
@[simp] theorem onTrain_rowMasks (s : State) (f : Training → Training) : (s.onTrain f).rowMasks = s.rowMasks := rfl
@[simp] theorem onTrain_colMasks (s : State) (f : Training → Training) : (s.onTrain f).colMasks = s.colMasks := rfl
@[simp] theorem onTrain_tiles (s : State) (f : Training → Training) : (s.onTrain f).tiles = s.tiles := rfl
@[simp] theorem onTrain_stack (s : State) (f : Training → Training) : (s.onTrain f).stack = s.stack := rfl
@[simp] theorem onTrain_uses (s : State) (f : Training → Training) : (s.onTrain f).uses = s.uses := rfl
@[simp] theorem onTrain_cache (s : State) (f : Training → Training) : (s.onTrain f).cache = s.cache := rfl
@[simp] theorem onTrain_prot (s : State) (f : Training → Training) : (s.onTrain f).prot = s.prot := rfl
@[simp] theorem onTrain_cracker (s : State) (f : Training → Training) : (s.onTrain f).cracker = s.cracker := rfl
@[simp] theorem onTrain_train (s : State) (f : Training → Training) : (s.onTrain f).train = f s.train := rfl
@[simp] theorem onTrain_fabric (s : State) (f : Training → Training) : (s.onTrain f).fabric = s.fabric := rfl
@[simp] theorem onTrain_front (s : State) (f : Training → Training) : (s.onTrain f).front = s.front := rfl
@[simp] theorem onTrain_resil (s : State) (f : Training → Training) : (s.onTrain f).resil = s.resil := rfl
@[simp] theorem onTrain_out (s : State) (f : Training → Training) : (s.onTrain f).out = s.out := rfl
@[simp] theorem onTrain_free (s : State) (f : Training → Training) : (s.onTrain f).free = s.free := rfl
@[simp] theorem onTrain_pending (s : State) (f : Training → Training) : (s.onTrain f).pending = s.pending := rfl

/-! ## onFabric -/

@[simp] theorem onFabric_power (s : State) (f : Fabric → Fabric) : (s.onFabric f).power = s.power := rfl
@[simp] theorem onFabric_flash (s : State) (f : Fabric → Fabric) : (s.onFabric f).flash = s.flash := rfl
@[simp] theorem onFabric_boot (s : State) (f : Fabric → Fabric) : (s.onFabric f).boot = s.boot := rfl
@[simp] theorem onFabric_dict (s : State) (f : Fabric → Fabric) : (s.onFabric f).dict = s.dict := rfl
@[simp] theorem onFabric_mem (s : State) (f : Fabric → Fabric) : (s.onFabric f).mem = s.mem := rfl
@[simp] theorem onFabric_banks (s : State) (f : Fabric → Fabric) : (s.onFabric f).banks = s.banks := rfl
@[simp] theorem onFabric_rowMasks (s : State) (f : Fabric → Fabric) : (s.onFabric f).rowMasks = s.rowMasks := rfl
@[simp] theorem onFabric_colMasks (s : State) (f : Fabric → Fabric) : (s.onFabric f).colMasks = s.colMasks := rfl
@[simp] theorem onFabric_tiles (s : State) (f : Fabric → Fabric) : (s.onFabric f).tiles = s.tiles := rfl
@[simp] theorem onFabric_stack (s : State) (f : Fabric → Fabric) : (s.onFabric f).stack = s.stack := rfl
@[simp] theorem onFabric_uses (s : State) (f : Fabric → Fabric) : (s.onFabric f).uses = s.uses := rfl
@[simp] theorem onFabric_cache (s : State) (f : Fabric → Fabric) : (s.onFabric f).cache = s.cache := rfl
@[simp] theorem onFabric_prot (s : State) (f : Fabric → Fabric) : (s.onFabric f).prot = s.prot := rfl
@[simp] theorem onFabric_cracker (s : State) (f : Fabric → Fabric) : (s.onFabric f).cracker = s.cracker := rfl
@[simp] theorem onFabric_train (s : State) (f : Fabric → Fabric) : (s.onFabric f).train = s.train := rfl
@[simp] theorem onFabric_fabric (s : State) (f : Fabric → Fabric) : (s.onFabric f).fabric = f s.fabric := rfl
@[simp] theorem onFabric_front (s : State) (f : Fabric → Fabric) : (s.onFabric f).front = s.front := rfl
@[simp] theorem onFabric_resil (s : State) (f : Fabric → Fabric) : (s.onFabric f).resil = s.resil := rfl
@[simp] theorem onFabric_out (s : State) (f : Fabric → Fabric) : (s.onFabric f).out = s.out := rfl
@[simp] theorem onFabric_free (s : State) (f : Fabric → Fabric) : (s.onFabric f).free = s.free := rfl
@[simp] theorem onFabric_pending (s : State) (f : Fabric → Fabric) : (s.onFabric f).pending = s.pending := rfl

/-! ## onFront -/

@[simp] theorem onFront_power (s : State) (f : FrontEnd → FrontEnd) : (s.onFront f).power = s.power := rfl
@[simp] theorem onFront_flash (s : State) (f : FrontEnd → FrontEnd) : (s.onFront f).flash = s.flash := rfl
@[simp] theorem onFront_boot (s : State) (f : FrontEnd → FrontEnd) : (s.onFront f).boot = s.boot := rfl
@[simp] theorem onFront_dict (s : State) (f : FrontEnd → FrontEnd) : (s.onFront f).dict = s.dict := rfl
@[simp] theorem onFront_mem (s : State) (f : FrontEnd → FrontEnd) : (s.onFront f).mem = s.mem := rfl
@[simp] theorem onFront_banks (s : State) (f : FrontEnd → FrontEnd) : (s.onFront f).banks = s.banks := rfl
@[simp] theorem onFront_rowMasks (s : State) (f : FrontEnd → FrontEnd) : (s.onFront f).rowMasks = s.rowMasks := rfl
@[simp] theorem onFront_colMasks (s : State) (f : FrontEnd → FrontEnd) : (s.onFront f).colMasks = s.colMasks := rfl
@[simp] theorem onFront_tiles (s : State) (f : FrontEnd → FrontEnd) : (s.onFront f).tiles = s.tiles := rfl
@[simp] theorem onFront_stack (s : State) (f : FrontEnd → FrontEnd) : (s.onFront f).stack = s.stack := rfl
@[simp] theorem onFront_uses (s : State) (f : FrontEnd → FrontEnd) : (s.onFront f).uses = s.uses := rfl
@[simp] theorem onFront_cache (s : State) (f : FrontEnd → FrontEnd) : (s.onFront f).cache = s.cache := rfl
@[simp] theorem onFront_prot (s : State) (f : FrontEnd → FrontEnd) : (s.onFront f).prot = s.prot := rfl
@[simp] theorem onFront_cracker (s : State) (f : FrontEnd → FrontEnd) : (s.onFront f).cracker = s.cracker := rfl
@[simp] theorem onFront_train (s : State) (f : FrontEnd → FrontEnd) : (s.onFront f).train = s.train := rfl
@[simp] theorem onFront_fabric (s : State) (f : FrontEnd → FrontEnd) : (s.onFront f).fabric = s.fabric := rfl
@[simp] theorem onFront_front (s : State) (f : FrontEnd → FrontEnd) : (s.onFront f).front = f s.front := rfl
@[simp] theorem onFront_resil (s : State) (f : FrontEnd → FrontEnd) : (s.onFront f).resil = s.resil := rfl
@[simp] theorem onFront_out (s : State) (f : FrontEnd → FrontEnd) : (s.onFront f).out = s.out := rfl
@[simp] theorem onFront_free (s : State) (f : FrontEnd → FrontEnd) : (s.onFront f).free = s.free := rfl
@[simp] theorem onFront_pending (s : State) (f : FrontEnd → FrontEnd) : (s.onFront f).pending = s.pending := rfl

/-! ## onResil -/

@[simp] theorem onResil_power (s : State) (f : Resilience → Resilience) : (s.onResil f).power = s.power := rfl
@[simp] theorem onResil_flash (s : State) (f : Resilience → Resilience) : (s.onResil f).flash = s.flash := rfl
@[simp] theorem onResil_boot (s : State) (f : Resilience → Resilience) : (s.onResil f).boot = s.boot := rfl
@[simp] theorem onResil_dict (s : State) (f : Resilience → Resilience) : (s.onResil f).dict = s.dict := rfl
@[simp] theorem onResil_mem (s : State) (f : Resilience → Resilience) : (s.onResil f).mem = s.mem := rfl
@[simp] theorem onResil_banks (s : State) (f : Resilience → Resilience) : (s.onResil f).banks = s.banks := rfl
@[simp] theorem onResil_rowMasks (s : State) (f : Resilience → Resilience) : (s.onResil f).rowMasks = s.rowMasks := rfl
@[simp] theorem onResil_colMasks (s : State) (f : Resilience → Resilience) : (s.onResil f).colMasks = s.colMasks := rfl
@[simp] theorem onResil_tiles (s : State) (f : Resilience → Resilience) : (s.onResil f).tiles = s.tiles := rfl
@[simp] theorem onResil_stack (s : State) (f : Resilience → Resilience) : (s.onResil f).stack = s.stack := rfl
@[simp] theorem onResil_uses (s : State) (f : Resilience → Resilience) : (s.onResil f).uses = s.uses := rfl
@[simp] theorem onResil_cache (s : State) (f : Resilience → Resilience) : (s.onResil f).cache = s.cache := rfl
@[simp] theorem onResil_prot (s : State) (f : Resilience → Resilience) : (s.onResil f).prot = s.prot := rfl
@[simp] theorem onResil_cracker (s : State) (f : Resilience → Resilience) : (s.onResil f).cracker = s.cracker := rfl
@[simp] theorem onResil_train (s : State) (f : Resilience → Resilience) : (s.onResil f).train = s.train := rfl
@[simp] theorem onResil_fabric (s : State) (f : Resilience → Resilience) : (s.onResil f).fabric = s.fabric := rfl
@[simp] theorem onResil_front (s : State) (f : Resilience → Resilience) : (s.onResil f).front = s.front := rfl
@[simp] theorem onResil_resil (s : State) (f : Resilience → Resilience) : (s.onResil f).resil = f s.resil := rfl
@[simp] theorem onResil_out (s : State) (f : Resilience → Resilience) : (s.onResil f).out = s.out := rfl
@[simp] theorem onResil_free (s : State) (f : Resilience → Resilience) : (s.onResil f).free = s.free := rfl
@[simp] theorem onResil_pending (s : State) (f : Resilience → Resilience) : (s.onResil f).pending = s.pending := rfl

/-! ## onTile -/

@[simp] theorem onTile_power (s : State) (n : Nat) (f : Tile → Tile) : (onTile s n f).power = s.power := rfl
@[simp] theorem onTile_flash (s : State) (n : Nat) (f : Tile → Tile) : (onTile s n f).flash = s.flash := rfl
@[simp] theorem onTile_boot (s : State) (n : Nat) (f : Tile → Tile) : (onTile s n f).boot = s.boot := rfl
@[simp] theorem onTile_dict (s : State) (n : Nat) (f : Tile → Tile) : (onTile s n f).dict = s.dict := rfl
@[simp] theorem onTile_mem (s : State) (n : Nat) (f : Tile → Tile) : (onTile s n f).mem = s.mem := rfl
@[simp] theorem onTile_banks (s : State) (n : Nat) (f : Tile → Tile) : (onTile s n f).banks = s.banks := rfl
@[simp] theorem onTile_rowMasks (s : State) (n : Nat) (f : Tile → Tile) : (onTile s n f).rowMasks = s.rowMasks := rfl
@[simp] theorem onTile_colMasks (s : State) (n : Nat) (f : Tile → Tile) : (onTile s n f).colMasks = s.colMasks := rfl
@[simp] theorem onTile_stack (s : State) (n : Nat) (f : Tile → Tile) : (onTile s n f).stack = s.stack := rfl
@[simp] theorem onTile_uses (s : State) (n : Nat) (f : Tile → Tile) : (onTile s n f).uses = s.uses := rfl
@[simp] theorem onTile_cache (s : State) (n : Nat) (f : Tile → Tile) : (onTile s n f).cache = s.cache := rfl
@[simp] theorem onTile_prot (s : State) (n : Nat) (f : Tile → Tile) : (onTile s n f).prot = s.prot := rfl
@[simp] theorem onTile_cracker (s : State) (n : Nat) (f : Tile → Tile) : (onTile s n f).cracker = s.cracker := rfl
@[simp] theorem onTile_train (s : State) (n : Nat) (f : Tile → Tile) : (onTile s n f).train = s.train := rfl
@[simp] theorem onTile_fabric (s : State) (n : Nat) (f : Tile → Tile) : (onTile s n f).fabric = s.fabric := rfl
@[simp] theorem onTile_front (s : State) (n : Nat) (f : Tile → Tile) : (onTile s n f).front = s.front := rfl
@[simp] theorem onTile_resil (s : State) (n : Nat) (f : Tile → Tile) : (onTile s n f).resil = s.resil := rfl
@[simp] theorem onTile_out (s : State) (n : Nat) (f : Tile → Tile) : (onTile s n f).out = s.out := rfl
@[simp] theorem onTile_free (s : State) (n : Nat) (f : Tile → Tile) : (onTile s n f).free = s.free := rfl
@[simp] theorem onTile_pending (s : State) (n : Nat) (f : Tile → Tile) : (onTile s n f).pending = s.pending := rfl

/-! ## onChannel -/

@[simp] theorem onChannel_power (s : State) (n : Nat) (f : Channel → Channel) : (onChannel s n f).power = s.power := rfl
@[simp] theorem onChannel_flash (s : State) (n : Nat) (f : Channel → Channel) : (onChannel s n f).flash = s.flash := rfl
@[simp] theorem onChannel_boot (s : State) (n : Nat) (f : Channel → Channel) : (onChannel s n f).boot = s.boot := rfl
@[simp] theorem onChannel_dict (s : State) (n : Nat) (f : Channel → Channel) : (onChannel s n f).dict = s.dict := rfl
@[simp] theorem onChannel_mem (s : State) (n : Nat) (f : Channel → Channel) : (onChannel s n f).mem = s.mem := rfl
@[simp] theorem onChannel_banks (s : State) (n : Nat) (f : Channel → Channel) : (onChannel s n f).banks = s.banks := rfl
@[simp] theorem onChannel_rowMasks (s : State) (n : Nat) (f : Channel → Channel) : (onChannel s n f).rowMasks = s.rowMasks := rfl
@[simp] theorem onChannel_colMasks (s : State) (n : Nat) (f : Channel → Channel) : (onChannel s n f).colMasks = s.colMasks := rfl
@[simp] theorem onChannel_tiles (s : State) (n : Nat) (f : Channel → Channel) : (onChannel s n f).tiles = s.tiles := rfl
@[simp] theorem onChannel_stack (s : State) (n : Nat) (f : Channel → Channel) : (onChannel s n f).stack = s.stack := rfl
@[simp] theorem onChannel_uses (s : State) (n : Nat) (f : Channel → Channel) : (onChannel s n f).uses = s.uses := rfl
@[simp] theorem onChannel_cache (s : State) (n : Nat) (f : Channel → Channel) : (onChannel s n f).cache = s.cache := rfl
@[simp] theorem onChannel_prot (s : State) (n : Nat) (f : Channel → Channel) : (onChannel s n f).prot = s.prot := rfl
@[simp] theorem onChannel_train (s : State) (n : Nat) (f : Channel → Channel) : (onChannel s n f).train = s.train := rfl
@[simp] theorem onChannel_fabric (s : State) (n : Nat) (f : Channel → Channel) : (onChannel s n f).fabric = s.fabric := rfl
@[simp] theorem onChannel_front (s : State) (n : Nat) (f : Channel → Channel) : (onChannel s n f).front = s.front := rfl
@[simp] theorem onChannel_resil (s : State) (n : Nat) (f : Channel → Channel) : (onChannel s n f).resil = s.resil := rfl
@[simp] theorem onChannel_out (s : State) (n : Nat) (f : Channel → Channel) : (onChannel s n f).out = s.out := rfl
@[simp] theorem onChannel_free (s : State) (n : Nat) (f : Channel → Channel) : (onChannel s n f).free = s.free := rfl
@[simp] theorem onChannel_pending (s : State) (n : Nat) (f : Channel → Channel) : (onChannel s n f).pending = s.pending := rfl

/-! ## onBinding -/

@[simp] theorem onBinding_power (s : State) (n : Nat) (f : BindingWork → BindingWork) : (onBinding s n f).power = s.power := rfl
@[simp] theorem onBinding_flash (s : State) (n : Nat) (f : BindingWork → BindingWork) : (onBinding s n f).flash = s.flash := rfl
@[simp] theorem onBinding_boot (s : State) (n : Nat) (f : BindingWork → BindingWork) : (onBinding s n f).boot = s.boot := rfl
@[simp] theorem onBinding_dict (s : State) (n : Nat) (f : BindingWork → BindingWork) : (onBinding s n f).dict = s.dict := rfl
@[simp] theorem onBinding_mem (s : State) (n : Nat) (f : BindingWork → BindingWork) : (onBinding s n f).mem = s.mem := rfl
@[simp] theorem onBinding_banks (s : State) (n : Nat) (f : BindingWork → BindingWork) : (onBinding s n f).banks = s.banks := rfl
@[simp] theorem onBinding_rowMasks (s : State) (n : Nat) (f : BindingWork → BindingWork) : (onBinding s n f).rowMasks = s.rowMasks := rfl
@[simp] theorem onBinding_colMasks (s : State) (n : Nat) (f : BindingWork → BindingWork) : (onBinding s n f).colMasks = s.colMasks := rfl
@[simp] theorem onBinding_tiles (s : State) (n : Nat) (f : BindingWork → BindingWork) : (onBinding s n f).tiles = s.tiles := rfl
@[simp] theorem onBinding_stack (s : State) (n : Nat) (f : BindingWork → BindingWork) : (onBinding s n f).stack = s.stack := rfl
@[simp] theorem onBinding_uses (s : State) (n : Nat) (f : BindingWork → BindingWork) : (onBinding s n f).uses = s.uses := rfl
@[simp] theorem onBinding_cache (s : State) (n : Nat) (f : BindingWork → BindingWork) : (onBinding s n f).cache = s.cache := rfl
@[simp] theorem onBinding_prot (s : State) (n : Nat) (f : BindingWork → BindingWork) : (onBinding s n f).prot = s.prot := rfl
@[simp] theorem onBinding_train (s : State) (n : Nat) (f : BindingWork → BindingWork) : (onBinding s n f).train = s.train := rfl
@[simp] theorem onBinding_fabric (s : State) (n : Nat) (f : BindingWork → BindingWork) : (onBinding s n f).fabric = s.fabric := rfl
@[simp] theorem onBinding_front (s : State) (n : Nat) (f : BindingWork → BindingWork) : (onBinding s n f).front = s.front := rfl
@[simp] theorem onBinding_resil (s : State) (n : Nat) (f : BindingWork → BindingWork) : (onBinding s n f).resil = s.resil := rfl
@[simp] theorem onBinding_out (s : State) (n : Nat) (f : BindingWork → BindingWork) : (onBinding s n f).out = s.out := rfl
@[simp] theorem onBinding_free (s : State) (n : Nat) (f : BindingWork → BindingWork) : (onBinding s n f).free = s.free := rfl
@[simp] theorem onBinding_pending (s : State) (n : Nat) (f : BindingWork → BindingWork) : (onBinding s n f).pending = s.pending := rfl

/-! ## onWork -/

@[simp] theorem onWork_power (s : State) (n : Nat) (f : GroupWork → GroupWork) : (onWork s n f).power = s.power := rfl
@[simp] theorem onWork_flash (s : State) (n : Nat) (f : GroupWork → GroupWork) : (onWork s n f).flash = s.flash := rfl
@[simp] theorem onWork_boot (s : State) (n : Nat) (f : GroupWork → GroupWork) : (onWork s n f).boot = s.boot := rfl
@[simp] theorem onWork_dict (s : State) (n : Nat) (f : GroupWork → GroupWork) : (onWork s n f).dict = s.dict := rfl
@[simp] theorem onWork_mem (s : State) (n : Nat) (f : GroupWork → GroupWork) : (onWork s n f).mem = s.mem := rfl
@[simp] theorem onWork_banks (s : State) (n : Nat) (f : GroupWork → GroupWork) : (onWork s n f).banks = s.banks := rfl
@[simp] theorem onWork_rowMasks (s : State) (n : Nat) (f : GroupWork → GroupWork) : (onWork s n f).rowMasks = s.rowMasks := rfl
@[simp] theorem onWork_colMasks (s : State) (n : Nat) (f : GroupWork → GroupWork) : (onWork s n f).colMasks = s.colMasks := rfl
@[simp] theorem onWork_tiles (s : State) (n : Nat) (f : GroupWork → GroupWork) : (onWork s n f).tiles = s.tiles := rfl
@[simp] theorem onWork_stack (s : State) (n : Nat) (f : GroupWork → GroupWork) : (onWork s n f).stack = s.stack := rfl
@[simp] theorem onWork_uses (s : State) (n : Nat) (f : GroupWork → GroupWork) : (onWork s n f).uses = s.uses := rfl
@[simp] theorem onWork_cache (s : State) (n : Nat) (f : GroupWork → GroupWork) : (onWork s n f).cache = s.cache := rfl
@[simp] theorem onWork_prot (s : State) (n : Nat) (f : GroupWork → GroupWork) : (onWork s n f).prot = s.prot := rfl
@[simp] theorem onWork_cracker (s : State) (n : Nat) (f : GroupWork → GroupWork) : (onWork s n f).cracker = s.cracker := rfl
@[simp] theorem onWork_fabric (s : State) (n : Nat) (f : GroupWork → GroupWork) : (onWork s n f).fabric = s.fabric := rfl
@[simp] theorem onWork_front (s : State) (n : Nat) (f : GroupWork → GroupWork) : (onWork s n f).front = s.front := rfl
@[simp] theorem onWork_resil (s : State) (n : Nat) (f : GroupWork → GroupWork) : (onWork s n f).resil = s.resil := rfl
@[simp] theorem onWork_out (s : State) (n : Nat) (f : GroupWork → GroupWork) : (onWork s n f).out = s.out := rfl
@[simp] theorem onWork_free (s : State) (n : Nat) (f : GroupWork → GroupWork) : (onWork s n f).free = s.free := rfl
@[simp] theorem onWork_pending (s : State) (n : Nat) (f : GroupWork → GroupWork) : (onWork s n f).pending = s.pending := rfl

/-! ## onLedger -/

@[simp] theorem onLedger_power (s : State) (n : Nat) (f : GroupLedger → GroupLedger) : (onLedger s n f).power = s.power := rfl
@[simp] theorem onLedger_flash (s : State) (n : Nat) (f : GroupLedger → GroupLedger) : (onLedger s n f).flash = s.flash := rfl
@[simp] theorem onLedger_boot (s : State) (n : Nat) (f : GroupLedger → GroupLedger) : (onLedger s n f).boot = s.boot := rfl
@[simp] theorem onLedger_dict (s : State) (n : Nat) (f : GroupLedger → GroupLedger) : (onLedger s n f).dict = s.dict := rfl
@[simp] theorem onLedger_mem (s : State) (n : Nat) (f : GroupLedger → GroupLedger) : (onLedger s n f).mem = s.mem := rfl
@[simp] theorem onLedger_banks (s : State) (n : Nat) (f : GroupLedger → GroupLedger) : (onLedger s n f).banks = s.banks := rfl
@[simp] theorem onLedger_rowMasks (s : State) (n : Nat) (f : GroupLedger → GroupLedger) : (onLedger s n f).rowMasks = s.rowMasks := rfl
@[simp] theorem onLedger_colMasks (s : State) (n : Nat) (f : GroupLedger → GroupLedger) : (onLedger s n f).colMasks = s.colMasks := rfl
@[simp] theorem onLedger_tiles (s : State) (n : Nat) (f : GroupLedger → GroupLedger) : (onLedger s n f).tiles = s.tiles := rfl
@[simp] theorem onLedger_stack (s : State) (n : Nat) (f : GroupLedger → GroupLedger) : (onLedger s n f).stack = s.stack := rfl
@[simp] theorem onLedger_uses (s : State) (n : Nat) (f : GroupLedger → GroupLedger) : (onLedger s n f).uses = s.uses := rfl
@[simp] theorem onLedger_cache (s : State) (n : Nat) (f : GroupLedger → GroupLedger) : (onLedger s n f).cache = s.cache := rfl
@[simp] theorem onLedger_prot (s : State) (n : Nat) (f : GroupLedger → GroupLedger) : (onLedger s n f).prot = s.prot := rfl
@[simp] theorem onLedger_cracker (s : State) (n : Nat) (f : GroupLedger → GroupLedger) : (onLedger s n f).cracker = s.cracker := rfl
@[simp] theorem onLedger_fabric (s : State) (n : Nat) (f : GroupLedger → GroupLedger) : (onLedger s n f).fabric = s.fabric := rfl
@[simp] theorem onLedger_front (s : State) (n : Nat) (f : GroupLedger → GroupLedger) : (onLedger s n f).front = s.front := rfl
@[simp] theorem onLedger_resil (s : State) (n : Nat) (f : GroupLedger → GroupLedger) : (onLedger s n f).resil = s.resil := rfl
@[simp] theorem onLedger_out (s : State) (n : Nat) (f : GroupLedger → GroupLedger) : (onLedger s n f).out = s.out := rfl
@[simp] theorem onLedger_free (s : State) (n : Nat) (f : GroupLedger → GroupLedger) : (onLedger s n f).free = s.free := rfl
@[simp] theorem onLedger_pending (s : State) (n : Nat) (f : GroupLedger → GroupLedger) : (onLedger s n f).pending = s.pending := rfl

/-! ## onPort -/

@[simp] theorem onPort_power (s : State) (n : Nat) (f : Port → Port) : (onPort s n f).power = s.power := rfl
@[simp] theorem onPort_flash (s : State) (n : Nat) (f : Port → Port) : (onPort s n f).flash = s.flash := rfl
@[simp] theorem onPort_boot (s : State) (n : Nat) (f : Port → Port) : (onPort s n f).boot = s.boot := rfl
@[simp] theorem onPort_dict (s : State) (n : Nat) (f : Port → Port) : (onPort s n f).dict = s.dict := rfl
@[simp] theorem onPort_mem (s : State) (n : Nat) (f : Port → Port) : (onPort s n f).mem = s.mem := rfl
@[simp] theorem onPort_banks (s : State) (n : Nat) (f : Port → Port) : (onPort s n f).banks = s.banks := rfl
@[simp] theorem onPort_rowMasks (s : State) (n : Nat) (f : Port → Port) : (onPort s n f).rowMasks = s.rowMasks := rfl
@[simp] theorem onPort_colMasks (s : State) (n : Nat) (f : Port → Port) : (onPort s n f).colMasks = s.colMasks := rfl
@[simp] theorem onPort_tiles (s : State) (n : Nat) (f : Port → Port) : (onPort s n f).tiles = s.tiles := rfl
@[simp] theorem onPort_stack (s : State) (n : Nat) (f : Port → Port) : (onPort s n f).stack = s.stack := rfl
@[simp] theorem onPort_uses (s : State) (n : Nat) (f : Port → Port) : (onPort s n f).uses = s.uses := rfl
@[simp] theorem onPort_cache (s : State) (n : Nat) (f : Port → Port) : (onPort s n f).cache = s.cache := rfl
@[simp] theorem onPort_prot (s : State) (n : Nat) (f : Port → Port) : (onPort s n f).prot = s.prot := rfl
@[simp] theorem onPort_cracker (s : State) (n : Nat) (f : Port → Port) : (onPort s n f).cracker = s.cracker := rfl
@[simp] theorem onPort_train (s : State) (n : Nat) (f : Port → Port) : (onPort s n f).train = s.train := rfl
@[simp] theorem onPort_front (s : State) (n : Nat) (f : Port → Port) : (onPort s n f).front = s.front := rfl
@[simp] theorem onPort_resil (s : State) (n : Nat) (f : Port → Port) : (onPort s n f).resil = s.resil := rfl
@[simp] theorem onPort_out (s : State) (n : Nat) (f : Port → Port) : (onPort s n f).out = s.out := rfl
@[simp] theorem onPort_free (s : State) (n : Nat) (f : Port → Port) : (onPort s n f).free = s.free := rfl
@[simp] theorem onPort_pending (s : State) (n : Nat) (f : Port → Port) : (onPort s n f).pending = s.pending := rfl

/-! ## onConn -/

@[simp] theorem onConn_power (s : State) (n : Nat) (f : Conn → Conn) : (onConn s n f).power = s.power := rfl
@[simp] theorem onConn_flash (s : State) (n : Nat) (f : Conn → Conn) : (onConn s n f).flash = s.flash := rfl
@[simp] theorem onConn_boot (s : State) (n : Nat) (f : Conn → Conn) : (onConn s n f).boot = s.boot := rfl
@[simp] theorem onConn_dict (s : State) (n : Nat) (f : Conn → Conn) : (onConn s n f).dict = s.dict := rfl
@[simp] theorem onConn_mem (s : State) (n : Nat) (f : Conn → Conn) : (onConn s n f).mem = s.mem := rfl
@[simp] theorem onConn_banks (s : State) (n : Nat) (f : Conn → Conn) : (onConn s n f).banks = s.banks := rfl
@[simp] theorem onConn_rowMasks (s : State) (n : Nat) (f : Conn → Conn) : (onConn s n f).rowMasks = s.rowMasks := rfl
@[simp] theorem onConn_colMasks (s : State) (n : Nat) (f : Conn → Conn) : (onConn s n f).colMasks = s.colMasks := rfl
@[simp] theorem onConn_tiles (s : State) (n : Nat) (f : Conn → Conn) : (onConn s n f).tiles = s.tiles := rfl
@[simp] theorem onConn_stack (s : State) (n : Nat) (f : Conn → Conn) : (onConn s n f).stack = s.stack := rfl
@[simp] theorem onConn_uses (s : State) (n : Nat) (f : Conn → Conn) : (onConn s n f).uses = s.uses := rfl
@[simp] theorem onConn_cache (s : State) (n : Nat) (f : Conn → Conn) : (onConn s n f).cache = s.cache := rfl
@[simp] theorem onConn_prot (s : State) (n : Nat) (f : Conn → Conn) : (onConn s n f).prot = s.prot := rfl
@[simp] theorem onConn_cracker (s : State) (n : Nat) (f : Conn → Conn) : (onConn s n f).cracker = s.cracker := rfl
@[simp] theorem onConn_train (s : State) (n : Nat) (f : Conn → Conn) : (onConn s n f).train = s.train := rfl
@[simp] theorem onConn_fabric (s : State) (n : Nat) (f : Conn → Conn) : (onConn s n f).fabric = s.fabric := rfl
@[simp] theorem onConn_resil (s : State) (n : Nat) (f : Conn → Conn) : (onConn s n f).resil = s.resil := rfl
@[simp] theorem onConn_out (s : State) (n : Nat) (f : Conn → Conn) : (onConn s n f).out = s.out := rfl
@[simp] theorem onConn_free (s : State) (n : Nat) (f : Conn → Conn) : (onConn s n f).free = s.free := rfl
@[simp] theorem onConn_pending (s : State) (n : Nat) (f : Conn → Conn) : (onConn s n f).pending = s.pending := rfl

/-! ## onQueue -/

@[simp] theorem onQueue_power (s : State) (n : Nat) (f : Queue → Queue) : (onQueue s n f).power = s.power := rfl
@[simp] theorem onQueue_flash (s : State) (n : Nat) (f : Queue → Queue) : (onQueue s n f).flash = s.flash := rfl
@[simp] theorem onQueue_boot (s : State) (n : Nat) (f : Queue → Queue) : (onQueue s n f).boot = s.boot := rfl
@[simp] theorem onQueue_dict (s : State) (n : Nat) (f : Queue → Queue) : (onQueue s n f).dict = s.dict := rfl
@[simp] theorem onQueue_mem (s : State) (n : Nat) (f : Queue → Queue) : (onQueue s n f).mem = s.mem := rfl
@[simp] theorem onQueue_banks (s : State) (n : Nat) (f : Queue → Queue) : (onQueue s n f).banks = s.banks := rfl
@[simp] theorem onQueue_rowMasks (s : State) (n : Nat) (f : Queue → Queue) : (onQueue s n f).rowMasks = s.rowMasks := rfl
@[simp] theorem onQueue_colMasks (s : State) (n : Nat) (f : Queue → Queue) : (onQueue s n f).colMasks = s.colMasks := rfl
@[simp] theorem onQueue_tiles (s : State) (n : Nat) (f : Queue → Queue) : (onQueue s n f).tiles = s.tiles := rfl
@[simp] theorem onQueue_stack (s : State) (n : Nat) (f : Queue → Queue) : (onQueue s n f).stack = s.stack := rfl
@[simp] theorem onQueue_uses (s : State) (n : Nat) (f : Queue → Queue) : (onQueue s n f).uses = s.uses := rfl
@[simp] theorem onQueue_cache (s : State) (n : Nat) (f : Queue → Queue) : (onQueue s n f).cache = s.cache := rfl
@[simp] theorem onQueue_prot (s : State) (n : Nat) (f : Queue → Queue) : (onQueue s n f).prot = s.prot := rfl
@[simp] theorem onQueue_cracker (s : State) (n : Nat) (f : Queue → Queue) : (onQueue s n f).cracker = s.cracker := rfl
@[simp] theorem onQueue_train (s : State) (n : Nat) (f : Queue → Queue) : (onQueue s n f).train = s.train := rfl
@[simp] theorem onQueue_fabric (s : State) (n : Nat) (f : Queue → Queue) : (onQueue s n f).fabric = s.fabric := rfl
@[simp] theorem onQueue_resil (s : State) (n : Nat) (f : Queue → Queue) : (onQueue s n f).resil = s.resil := rfl
@[simp] theorem onQueue_out (s : State) (n : Nat) (f : Queue → Queue) : (onQueue s n f).out = s.out := rfl
@[simp] theorem onQueue_free (s : State) (n : Nat) (f : Queue → Queue) : (onQueue s n f).free = s.free := rfl
@[simp] theorem onQueue_pending (s : State) (n : Nat) (f : Queue → Queue) : (onQueue s n f).pending = s.pending := rfl

/-! ## emit and noteChanges -/

@[simp] theorem emit_power (s : State) (o : Output) : (emit s o).power = s.power := rfl
@[simp] theorem emit_flash (s : State) (o : Output) : (emit s o).flash = s.flash := rfl
@[simp] theorem emit_boot (s : State) (o : Output) : (emit s o).boot = s.boot := rfl
@[simp] theorem emit_dict (s : State) (o : Output) : (emit s o).dict = s.dict := rfl
@[simp] theorem emit_mem (s : State) (o : Output) : (emit s o).mem = s.mem := rfl
@[simp] theorem emit_banks (s : State) (o : Output) : (emit s o).banks = s.banks := rfl
@[simp] theorem emit_rowMasks (s : State) (o : Output) : (emit s o).rowMasks = s.rowMasks := rfl
@[simp] theorem emit_colMasks (s : State) (o : Output) : (emit s o).colMasks = s.colMasks := rfl
@[simp] theorem emit_tiles (s : State) (o : Output) : (emit s o).tiles = s.tiles := rfl
@[simp] theorem emit_stack (s : State) (o : Output) : (emit s o).stack = s.stack := rfl
@[simp] theorem emit_uses (s : State) (o : Output) : (emit s o).uses = s.uses := rfl
@[simp] theorem emit_cache (s : State) (o : Output) : (emit s o).cache = s.cache := rfl
@[simp] theorem emit_prot (s : State) (o : Output) : (emit s o).prot = s.prot := rfl
@[simp] theorem emit_cracker (s : State) (o : Output) : (emit s o).cracker = s.cracker := rfl
@[simp] theorem emit_train (s : State) (o : Output) : (emit s o).train = s.train := rfl
@[simp] theorem emit_fabric (s : State) (o : Output) : (emit s o).fabric = s.fabric := rfl
@[simp] theorem emit_front (s : State) (o : Output) : (emit s o).front = s.front := rfl
@[simp] theorem emit_resil (s : State) (o : Output) : (emit s o).resil = s.resil := rfl
@[simp] theorem emit_free (s : State) (o : Output) : (emit s o).free = s.free := rfl
@[simp] theorem emit_pending (s : State) (o : Output) : (emit s o).pending = s.pending := rfl
@[simp] theorem emit_out (s : State) (o : Output) : (emit s o).out = s.out ++ [o] := rfl
@[simp] theorem noteChanges_power (s t : State) : (noteChanges s t).power = t.power := by rw [noteChanges]
@[simp] theorem noteChanges_flash (s t : State) : (noteChanges s t).flash = t.flash := by rw [noteChanges]
@[simp] theorem noteChanges_boot (s t : State) : (noteChanges s t).boot = t.boot := by rw [noteChanges]
@[simp] theorem noteChanges_mem (s t : State) : (noteChanges s t).mem = t.mem := by rw [noteChanges]
@[simp] theorem noteChanges_banks (s t : State) : (noteChanges s t).banks = t.banks := by rw [noteChanges]
@[simp] theorem noteChanges_rowMasks (s t : State) : (noteChanges s t).rowMasks = t.rowMasks := by rw [noteChanges]
@[simp] theorem noteChanges_colMasks (s t : State) : (noteChanges s t).colMasks = t.colMasks := by rw [noteChanges]
@[simp] theorem noteChanges_tiles (s t : State) : (noteChanges s t).tiles = t.tiles := by rw [noteChanges]
@[simp] theorem noteChanges_stack (s t : State) : (noteChanges s t).stack = t.stack := by rw [noteChanges]
@[simp] theorem noteChanges_uses (s t : State) : (noteChanges s t).uses = t.uses := by rw [noteChanges]
@[simp] theorem noteChanges_cache (s t : State) : (noteChanges s t).cache = t.cache := by rw [noteChanges]
@[simp] theorem noteChanges_prot (s t : State) : (noteChanges s t).prot = t.prot := by rw [noteChanges]
@[simp] theorem noteChanges_cracker (s t : State) : (noteChanges s t).cracker = t.cracker := by rw [noteChanges]
@[simp] theorem noteChanges_train (s t : State) : (noteChanges s t).train = t.train := by rw [noteChanges]
@[simp] theorem noteChanges_fabric (s t : State) : (noteChanges s t).fabric = t.fabric := by rw [noteChanges]
@[simp] theorem noteChanges_front (s t : State) : (noteChanges s t).front = t.front := by rw [noteChanges]
@[simp] theorem noteChanges_resil (s t : State) : (noteChanges s t).resil = t.resil := by rw [noteChanges]
@[simp] theorem noteChanges_out (s t : State) : (noteChanges s t).out = t.out := by rw [noteChanges]
@[simp] theorem noteChanges_pending (s t : State) : (noteChanges s t).pending = t.pending := by rw [noteChanges]
@[simp] theorem noteChanges_free (s t : State) : (noteChanges s t).free = s.free + 1 := by rw [noteChanges]
@[simp] theorem noteChanges_values (s t : State) : (noteChanges s t).dict.values = t.dict.values := by rw [noteChanges]
@[simp] theorem noteChanges_sessions (s t : State) : (noteChanges s t).dict.sessions = t.dict.sessions := by rw [noteChanges]

/-! ## raise -/

/-- Raising an event changes the event log alone, or what start-up holds of it (R338). -/
theorem raise_mem (s : State) (c : Code) (a : Nat) : (raise s c a).mem = s.mem := by
  unfold raise
  split
  · rfl
  · unfold logEvent
    dsimp only
    split
    · split <;> rfl
    · rfl

end Sys2Proof.Machine
end

