-- ==== Sys2Proof/Laws/Wire.lean ====
section
/-! SUPPORT. What sending a packet can do: it changes the fabric, the flits given to the ports and the event log, and nothing else. -/

namespace Sys2Proof.Machine

open Sys2Proof

/-- Raising an event changes the event log, or what start-up holds of it, and nothing else (R338). -/
theorem raise_frame (s : State) (c : Code) (a : Nat) : ∃ b d, raise s c a = { s with boot := b, dict := d } := by
  unfold raise
  split
  · exact ⟨_, _, rfl⟩
  · unfold logEvent
    dsimp only
    split
    · split <;> exact ⟨_, _, rfl⟩
    · exact ⟨_, _, rfl⟩

/-- `t` differs from `s` in the fabric, the outputs, the dictionary's log and what start-up holds of it alone. -/
def linkOnly (s t : State) : Prop := ∃ f o d b, t = { s with fabric := f, out := o, dict := d, boot := b }

theorem linkOnly_refl (s : State) : linkOnly s s := ⟨_, _, _, _, rfl⟩

theorem linkOnly_trans {s t u : State} (h : linkOnly s t) (k : linkOnly t u) : linkOnly s u := by
  obtain ⟨_, _, _, _, rfl⟩ := h
  obtain ⟨_, _, _, _, rfl⟩ := k
  exact ⟨_, _, _, _, rfl⟩

theorem linkOnly_raise (s : State) (c : Code) (a : Nat) : linkOnly s (raise s c a) := by
  obtain ⟨b, d, h⟩ := raise_frame s c a
  exact ⟨_, _, _, _, h⟩

theorem linkOnly_onFabric (s : State) (f : Fabric → Fabric) : linkOnly s (s.onFabric f) := ⟨_, _, _, _, rfl⟩

theorem linkOnly_onPort (s : State) (n : Nat) (f : Port → Port) : linkOnly s (onPort s n f) := ⟨_, _, _, _, rfl⟩

theorem linkOnly_emit (s : State) (o : Output) : linkOnly s (emit s o) := ⟨_, _, _, _, rfl⟩

theorem linkOnly_idleFlit (s : State) (port : Nat) (nak : Bool) (vc n : Nat) : linkOnly s (idleFlit s port nak vc n) :=
  linkOnly_emit _ _

/-- Credits returned touch the port and the outputs alone (R223). -/
theorem linkOnly_returnCredits (s : State) (port vc : Nat) : linkOnly s (returnCredits s port vc) := by
  unfold returnCredits
  extract_lets n
  split
  · exact linkOnly_refl s
  · exact linkOnly_trans (linkOnly_onPort s port _) (linkOnly_idleFlit _ _ _ _ _)

/-- Taking a delivered packet touches the fabric and the outputs alone. -/
theorem linkOnly_removeDelivered (s : State) (p : Packet) : linkOnly s (removeDelivered s p) := by
  unfold removeDelivered
  extract_lets s1
  split
  · exact linkOnly_trans (linkOnly_trans (linkOnly_onFabric s _) (linkOnly_onFabric _ _)) (linkOnly_returnCredits _ _ _)
  · exact linkOnly_onFabric s _

theorem linkOnly_sendFlit (s : State) (port : Nat) (f : OutFlit) : linkOnly s (sendFlit s port f) := by
  unfold sendFlit
  extract_lets p h bytes s1 s2
  have hs : linkOnly s s2 := linkOnly_trans (linkOnly_trans (linkOnly_onPort s port _) (linkOnly_onFabric _ _)) (linkOnly_emit _ _)
  clear_value s2
  split
  · exact linkOnly_trans hs (linkOnly_returnCredits _ _ _)
  · exact hs

theorem linkOnly_pump (k : Nat) (s : State) (port : Nat) : linkOnly s (pump k s port) := by
  induction k generalizing s with
  | zero => exact linkOnly_refl s
  | succ k ih =>
    unfold pump
    extract_lets p
    split
    · exact linkOnly_refl s
    · split
      · exact linkOnly_trans (linkOnly_trans (linkOnly_onPort s port _) (linkOnly_sendFlit _ _ _)) (ih _)
      · exact linkOnly_refl s

theorem linkOnly_pumpPort (s : State) (port : Nat) : linkOnly s (pumpPort s port) := linkOnly_pump _ _ _

theorem linkOnly_queueFlits (s : State) (port : Nat) (l : List OutFlit) : linkOnly s (queueFlits s port l) :=
  linkOnly_trans (linkOnly_onPort s port _) (linkOnly_pumpPort _ _)

theorem linkOnly_putOnPort (s : State) (p : Packet) (port vc : Nat) : linkOnly s (putOnPort s p port vc) :=
  linkOnly_trans (linkOnly_onFabric s _) (linkOnly_queueFlits _ _ _)

theorem linkOnly_holdReroute (s : State) (p : Packet) (arrival : Option (Nat × Bool)) (room : Option InputRoom) :
    linkOnly s (holdReroute s p arrival room) :=
  linkOnly_trans (linkOnly_onFabric s _) (linkOnly_raise _ _ _)

theorem linkOnly_countDetour (s : State) (detour : Bool) : linkOnly s (countDetour s detour) := by
  unfold countDetour
  split
  · exact linkOnly_onFabric s _
  · exact linkOnly_refl s

theorem linkOnly_forwardFrom (s : State) (p : Packet) (arrival : Option (Nat × Bool)) (room : Option InputRoom) :
    linkOnly s (forwardFrom s p arrival room) := by
  unfold forwardFrom
  split
  · exact linkOnly_onFabric _ _
  · exact linkOnly_holdReroute _ _ _ _
  · exact linkOnly_trans (linkOnly_countDetour _ _) (linkOnly_putOnPort _ _ _ _)

theorem linkOnly_forward (s : State) (p : Packet) (arrival : Option (Nat × Bool)) : linkOnly s (forward s p arrival) :=
  linkOnly_forwardFrom s p arrival none

theorem linkOnly_sendStream (s : State) (p : Packet) : linkOnly s (sendStream s p) :=
  linkOnly_trans (linkOnly_onFabric s _) (linkOnly_forward _ _ _)

/-- Sending a packet touches the fabric, the outputs and the event log alone (R228 to R233). -/
theorem linkOnly_sendPacket (s : State) (p : Packet) : linkOnly s (sendPacket s p) := by
  unfold sendPacket
  extract_lets q
  split
  · exact linkOnly_onFabric _ _
  · split
    · exact linkOnly_forward _ _ _
    · split
      · exact linkOnly_sendStream _ _
      · exact linkOnly_onFabric _ _

/-- Packets sent for each element of a list. -/
theorem linkOnly_foldl {α : Type} {f : State → α → State} (h : ∀ s x, linkOnly s (f s x)) (s : State) (l : List α) : linkOnly s (l.foldl f s) := by
  induction l generalizing s with
  | nil => exact linkOnly_refl s
  | cons x l ih => exact linkOnly_trans (h s x) (ih _)

theorem linkOnly_mem {s t : State} (h : linkOnly s t) : t.mem = s.mem := by obtain ⟨_, _, _, _, rfl⟩ := h; rfl
theorem linkOnly_banks {s t : State} (h : linkOnly s t) : t.banks = s.banks := by obtain ⟨_, _, _, _, rfl⟩ := h; rfl
theorem linkOnly_tiles {s t : State} (h : linkOnly s t) : t.tiles = s.tiles := by obtain ⟨_, _, _, _, rfl⟩ := h; rfl
theorem linkOnly_train {s t : State} (h : linkOnly s t) : t.train = s.train := by obtain ⟨_, _, _, _, rfl⟩ := h; rfl
theorem linkOnly_resil {s t : State} (h : linkOnly s t) : t.resil = s.resil := by obtain ⟨_, _, _, _, rfl⟩ := h; rfl
theorem linkOnly_flash {s t : State} (h : linkOnly s t) : t.flash = s.flash := by obtain ⟨_, _, _, _, rfl⟩ := h; rfl

end Sys2Proof.Machine
end

