-- ==== Sys2Proof/Laws/MemOps.lean ====
section
/-! SUPPORT. Every operation on protected memory and on the banks keeps their canonical form, and what raising an event leaves. -/

namespace Sys2Proof.Machine

open Sys2Proof

@[simp] theorem raise_banks (s : State) (c : Code) (a : Nat) : (raise s c a).banks = s.banks := by
  obtain ⟨b, d, h⟩ := raise_frame s c a
  rw [h]

/-- Both memories in canonical form. -/
def canonical (s : State) : Prop := s.mem.wf = true ∧ s.banks.wf = true

theorem canonical_of_eq {s t : State} (h : canonical s) (hm : t.mem = s.mem) (hb : t.banks = s.banks) : canonical t := by
  rw [canonical, hm, hb]; exact h

theorem canonical_raise {s : State} (h : canonical s) (c : Code) (a : Nat) : canonical (raise s c a) :=
  canonical_of_eq h (raise_mem s c a) (raise_banks s c a)

theorem canonical_putWord {s : State} (h : canonical s) (w : Nat) (d : Word64) (p : Bool) : canonical { s with mem := putWord s.mem w d p } :=
  ⟨putWord_wf h.1 w d p, h.2⟩

theorem canonical_putBank {s : State} (h : canonical s) (w : Nat) (d : Word64) (p : Bool) : canonical { s with banks := putWord s.banks w d p } :=
  ⟨h.1, putWord_wf h.2 w d p⟩

theorem canonical_forget {s : State} (h : canonical s) (lo hi : Nat) : canonical { s with mem := forget s.mem lo hi } :=
  ⟨forget_wf h.1 lo hi, h.2⟩

theorem canonical_noteChanges {s t : State} (h : canonical t) : canonical (noteChanges s t) := by
  simpa [canonical] using h

theorem canonical_onProt {s : State} (h : canonical s) (f : Protect → Protect) : canonical (s.onProt f) := h

theorem canonical_holdLine {s : State} (h : canonical s) (a : Nat) : canonical (holdLine s a) := by
  simp only [holdLine]
  split
  · exact h
  · exact canonical_raise (canonical_onProt h _) _ _

/-! ## Reads -/

theorem canonical_copyRow {s : State} (h : canonical s) (bank row : Nat) : canonical (copyRow s bank row) := by
  have step : ∀ (l : List (Nat × Byte)) (t : State), canonical t → canonical (l.foldl (fun (t : State) (e : Nat × Byte) =>
      let a := 8 * e.1
      if regionOf a ≠ some .hbm ∨ bankKey s a ≠ bank ∨ rowNumber s a ≠ row then t
      else
        match decodeSyndrome e.2 with
        | .uncorrectable =>
          if isDetect t a then
            { t.onProt (fun p => { p with poisoned := countStore p.poisoned 3 }) with
              mem := putWord t.mem e.1 (heldWord t.mem t.free e.1) true }
          else if inSavedState t a then holdLine t a
          else t
        | _ => t) t) := by
    intro l
    induction l with
    | nil => exact fun t ht => ht
    | cons e l ih =>
      intro t ht
      refine ih _ ?_
      dsimp only
      split
      · exact ht
      · split
        · split
          · exact canonical_putWord (s := t.onProt _) ht _ _ _
          · split
            · exact canonical_holdLine ht _
            · exact ht
        · exact ht
  exact step _ _ h

theorem canonical_repairRowAt {s : State} (h : canonical s) (a : Nat) : canonical (repairRowAt s a) := by
  unfold repairRowAt
  extract_lets bank row
  split
  · exact canonical_copyRow (canonical_onProt h _) _ _
  · exact h

theorem canonical_demandRow {s : State} (h : canonical s) (a : Nat) : canonical (demandRow s a) := by
  unfold demandRow
  split
  · exact canonical_repairRowAt h a
  · exact h

theorem canonical_readWord {s : State} (h : canonical s) (w : Nat) : canonical (readWord s w).2 := by
  simp only [readWord]
  split
  · split
    · exact h
    · exact h
    · have h1 := canonical_putWord (s := s.onProt (fun p => { p with poisoned := countStore p.poisoned (storeOf s (8 * w)) })) h w
        (heldWord s.mem s.free w) true
      dsimp only
      split
      · exact canonical_demandRow h1 _
      · exact h1
  · split
    · exact h
    · exact canonical_putWord (s := s.onProt _) h w _ _
    · exact canonical_putWord (s := s.onProt _) h w _ _
    · exact h
    · split
      · exact canonical_demandRow (canonical_holdLine (canonical_onProt h _) _) _
      · exact canonical_demandRow (canonical_onProt h _) _

theorem canonical_readWords {n : Nat} {s : State} (h : canonical s) (w : Nat) : canonical (readWords n s w).2 := by
  induction n generalizing s w with
  | zero => exact h
  | succ n ih =>
    have h1 := canonical_readWord h w
    have h2 := ih h1 (w + 1)
    simp only [readWords]
    split <;> exact h2

theorem canonical_readBytes {s : State} (h : canonical s) (a len : Nat) : canonical (readBytes s a len).2 := by
  simp only [readBytes]
  exact canonical_readWords h _

/-! ## Writes -/

theorem canonical_linkOnly {s t : State} (h : canonical s) (k : linkOnly s t) : canonical t :=
  canonical_of_eq h (linkOnly_mem k) (linkOnly_banks k)

theorem canonical_enterHolding {s : State} (h : canonical s) : canonical (enterHolding s) := by
  unfold enterHolding
  split <;> exact h

theorem linkOnly_sendHoldNotices (s : State) : linkOnly s (sendHoldNotices s) := by
  refine linkOnly_foldl (fun t n => ?_) s _
  split
  · exact linkOnly_sendPacket _ _
  · exact linkOnly_refl _

theorem canonical_leavePair {s : State} (h : canonical s) : canonical (leavePair s) := by
  unfold leavePair
  split
  · exact canonical_linkOnly (s := s.onResil _) h (linkOnly_sendPacket _ _)
  · exact h

theorem canonical_withholdCut {s : State} (h : canonical s) : canonical (withholdCut s) := by
  unfold withholdCut
  split
  · exact canonical_enterHolding (s := s.onTrain _) h
  · split
    · exact h
    · exact canonical_leavePair (canonical_linkOnly (canonical_enterHolding (s := s.onTrain _) h) (linkOnly_sendHoldNotices _))

theorem canonical_poisonEscape {s : State} (h : canonical s) : canonical (poisonEscape s) := by
  unfold poisonEscape
  split
  · exact h
  · extract_lets s1 s2 s3
    have h1 : canonical s1 := h
    split
    · exact canonical_raise h1 _ _
    · refine canonical_withholdCut ?_
      show canonical (if s.train.cut then s2 else s2.onProt _)
      split <;> exact canonical_raise h1 _ _

theorem canonical_writeWhole {s : State} (h : canonical s) (w : Nat) (d : Word64) (p : Bool) : canonical (writeWhole s w d p) := by
  unfold writeWhole
  extract_lets s1
  have h1 : canonical s1 := canonical_putWord h w d p
  split
  · exact canonical_poisonEscape h1
  · exact h1

theorem canonical_writeNarrow {s : State} (h : canonical s) (w : Nat) (new : List (Option (Byte × Bool))) : canonical (writeNarrow s w new).1 := by
  have hm : ∀ {t : State} (f : Protect → Protect) (x : Word64) (mark : Bool), canonical t → canonical (writeWhole (t.onProt f) w x mark) :=
    fun f x mark k => canonical_writeWhole (canonical_onProt k f) _ _ _
  unfold writeNarrow
  extract_lets a store merge d merged mark
  split
  · split
    · exact hm _ _ _ h
    · exact hm _ _ _ h
    · rename_i t _ _ _ _
      have ht : canonical t := hm _ _ _ (canonical_onProt h _)
      dsimp only
      split
      · exact canonical_demandRow ht _
      · exact ht
  · have h2 := canonical_readWord h w
    split <;> rename_i e <;> rw [e] at h2
    · exact hm _ _ _ h2
    · exact hm _ _ _ h2
    · exact h2
    · exact h2

theorem canonical_writeWords {n : Nat} {s : State} (h : canonical s) (w a : Nat) (l : List (Byte × Bool)) : canonical (writeWords n s w a l).1 := by
  induction n generalizing s w with
  | zero => exact h
  | succ n ih =>
    simp only [writeWords]
    split
    · exact ih (canonical_writeWhole h _ _ _) _
    · exact ih (canonical_writeNarrow h _ _) _

theorem canonical_writeMarked {s : State} (h : canonical s) (a : Nat) (l : List (Byte × Bool)) : canonical (writeMarked s a l).1 := by
  simp only [writeMarked]
  split
  · exact h
  · exact canonical_writeWords h _ _ _

theorem canonical_putFor {s : State} (h : canonical s) (block a : Nat) (l : List Byte) : canonical (putFor block s a l) := by
  have h1 := canonical_writeMarked h a (l.map (fun b => (b, false)))
  unfold putFor writeBytes
  split
  rename_i e
  rw [e] at h1
  split
  · exact canonical_raise h1 _ _
  · exact h1

/-- Bytes put into memory keep both canonical forms. -/
theorem canonical_putMem {s : State} (h : canonical s) (a : Nat) (l : List Byte) : canonical (putMem s a l) :=
  canonical_putFor h _ _ _

/-! ## Undefined contents -/

theorem canonical_spoilWord {s : State} (h : canonical s) (w : Nat) : canonical (spoilWord s w) := by
  have hc := Memory.wf_iff.mp h.1
  refine ⟨?_, h.2⟩
  unfold spoilWord
  exact Memory.wf_iff.mpr ⟨tabRising_putBytes hc.1, tabWf_set hc.2 w 0x03⟩

/-- Steps that keep both canonical forms, one for each element of a list. -/
theorem canonical_foldl {α : Type} {f : State → α → State} (hf : ∀ t x, canonical t → canonical (f t x)) {s : State} (h : canonical s)
    (l : List α) : canonical (l.foldl f s) := by
  induction l generalizing s with
  | nil => exact h
  | cons x l ih => exact ih (hf s x h)

theorem canonical_lookupTag {s : State} (h : canonical s) (n : Nat) : canonical (lookupTag s n) := by
  unfold lookupTag
  extract_lets drop
  have hd : ∀ t, canonical t → canonical (drop t) := fun t k => k
  clear_value drop
  split
  · exact h
  · exact hd _ (canonical_onProt h _)
  · exact hd _ (canonical_onProt h _)
  · exact hd _ (canonical_foldl (fun t i k => canonical_spoilWord k _) h _)

/-- A lookup of the lines of an access keeps both canonical forms (R195). -/
theorem canonical_lookupTags {s : State} (h : canonical s) (a len : Nat) : canonical (lookupTags s a len) := by
  unfold lookupTags
  split
  · exact h
  · exact canonical_foldl (fun t n k => canonical_lookupTag k n) h _

/-! ## Banks -/

theorem canonical_readBankWord {s : State} (h : canonical s) (w : Nat) : canonical (readBankWord s w).2 := by
  simp only [readBankWord]
  split
  · exact h
  · exact canonical_putBank (s := s.onProt _) h w _ _
  · exact canonical_putBank (s := s.onProt _) h w _ _
  · exact h
  · exact h

theorem canonical_writeBankWord {s : State} (h : canonical s) (w d : Nat) (p : Bool) : canonical (writeBankWord s w d p) := by
  unfold writeBankWord
  extract_lets s1
  have h1 : canonical s1 := canonical_putBank h w _ p
  split
  · exact canonical_poisonEscape h1
  · exact h1

end Sys2Proof.Machine
end

