-- ==== Sys2Proof/Laws/Slices.lean ====
section
/-! SUPPORT. What an access does in the home slices: it changes the slices' own state and nothing else; an access through them keeps
the canonical form of memory. -/

namespace Sys2Proof.Machine

open Sys2Proof

/-- `t` differs from `s` in the home slices alone. -/
def sliceOnly (s t : State) : Prop := ∃ c, t = { s with cache := c }

theorem sliceOnly_refl (s : State) : sliceOnly s s := ⟨_, rfl⟩

theorem sliceOnly_trans {s t u : State} (h : sliceOnly s t) (k : sliceOnly t u) : sliceOnly s u := by
  obtain ⟨_, rfl⟩ := h
  obtain ⟨_, rfl⟩ := k
  exact ⟨_, rfl⟩

theorem sliceOnly_onCache (s : State) (f : Cache → Cache) : sliceOnly s (s.onCache f) := ⟨_, rfl⟩

theorem sliceOnly_setLines (s : State) (g : Nat) (l : List Line) : sliceOnly s (setLines s g l) := ⟨_, rfl⟩

theorem sliceOnly_touchLine (s : State) (x : Line) : sliceOnly s (touchLine s x) := ⟨_, rfl⟩

theorem sliceOnly_evictLine (s : State) (x : Line) : sliceOnly s (evictLine s x) := by
  unfold evictLine
  extract_lets s1
  split
  · exact ⟨_, rfl⟩
  · exact ⟨_, rfl⟩

theorem sliceOnly_requestFill (s : State) (who : Initiator) (line : Nat) (want : BitVec 8) (hint : Nat) :
    sliceOnly s (requestFill s who line want hint) := by
  unfold requestFill
  split
  · exact ⟨_, rfl⟩
  · split <;> exact ⟨_, rfl⟩

theorem sliceOnly_accessHint (s : State) (x : Line) (cls : Nat) : sliceOnly s (accessHint s x cls).2 := by
  unfold accessHint
  split
  · exact sliceOnly_refl s
  · dsimp only
    split
    · exact sliceOnly_trans (sliceOnly_setLines s _ _) (sliceOnly_evictLine _ _)
    · exact sliceOnly_refl s

theorem sliceOnly_allocateLine {s t : State} {x : Line} (h : allocateLine s x = some t) : sliceOnly s t := by
  unfold allocateLine at h
  extract_lets g ways at h
  split at h
  split at h
  · cases h
  · extract_lets s1 at h
    have h1 : sliceOnly s s1 := by
      simp only [s1]
      split
      · exact sliceOnly_trans (sliceOnly_setLines s _ _) (sliceOnly_evictLine _ _)
      · exact sliceOnly_refl s
    clear_value s1
    split at h
    · cases h; exact h1
    · split at h
      · cases h; exact sliceOnly_trans h1 (sliceOnly_setLines _ _ _)
      · split at h
        · split at h
          · cases h
          · cases h; exact sliceOnly_trans h1 (sliceOnly_trans (sliceOnly_evictLine _ _) (sliceOnly_setLines _ _ _))
        · cases h; exact h1

/-- What an access to a line does in its home slice (R154, R155). -/
theorem sliceOnly_serveLine (s : State) (x : SliceAccess) : sliceOnly s (serveLine s x).2 := by
  unfold serveLine
  extract_lets layer cls hit miss noteWrite
  have hh : ∀ t, sliceOnly t (hit t) := fun t => ⟨_, rfl⟩
  have hm : ∀ t, sliceOnly t (miss t) := fun t => ⟨_, rfl⟩
  have hn : ∀ t, sliceOnly t (noteWrite t) := fun t => ⟨_, rfl⟩
  clear_value hit miss noteWrite
  split
  · exact sliceOnly_refl s
  · split
    · rename_i l _
      have ha := sliceOnly_accessHint s l cls
      dsimp only
      split
      · exact sliceOnly_trans ha (sliceOnly_trans (hh _) (sliceOnly_trans (sliceOnly_touchLine _ _) (hn _)))
      · exact sliceOnly_trans ha (sliceOnly_trans (hm _) (sliceOnly_trans (sliceOnly_touchLine _ _)
          (sliceOnly_trans (hn _) (sliceOnly_requestFill _ _ _ _ _))))
    · split
      · split
        · exact hh s
        · split
          · rename_i t e
            exact sliceOnly_trans (sliceOnly_allocateLine e) (hh t)
          · exact sliceOnly_refl s
      · split
        · exact sliceOnly_refl s
        · rename_i t e
          have ht := sliceOnly_allocateLine e
          split
          · exact sliceOnly_trans ht (hm t)
          · exact sliceOnly_trans ht (sliceOnly_trans (hm t) (sliceOnly_requestFill _ _ _ _ _))

theorem sliceOnly_accessLine (s : State) (x : SliceAccess) : sliceOnly s (accessLine s x) := by
  have h := sliceOnly_serveLine s x
  unfold accessLine
  split <;> rename_i e <;> rw [e] at h
  · exact sliceOnly_trans h (sliceOnly_onCache _ _)
  · exact h

/-- The accesses of one request change the home slices alone (R24, R154). -/
theorem sliceOnly_accessSlices (s : State) (who : Initiator) (a len : Nat) (write : Bool) : sliceOnly s (accessSlices s who a len write) := by
  unfold accessSlices
  split
  · generalize linesTouched a len = l
    induction l generalizing s with
    | nil => exact sliceOnly_refl s
    | cons n l ih => exact sliceOnly_trans (sliceOnly_accessLine s _) (ih _)
  · exact sliceOnly_refl s

theorem sliceOnly_mem {s t : State} (h : sliceOnly s t) : t.mem = s.mem := by obtain ⟨_, rfl⟩ := h; rfl
theorem sliceOnly_banks {s t : State} (h : sliceOnly s t) : t.banks = s.banks := by obtain ⟨_, rfl⟩ := h; rfl
theorem sliceOnly_tiles {s t : State} (h : sliceOnly s t) : t.tiles = s.tiles := by obtain ⟨_, rfl⟩ := h; rfl
theorem sliceOnly_train {s t : State} (h : sliceOnly s t) : t.train = s.train := by obtain ⟨_, rfl⟩ := h; rfl
theorem sliceOnly_fabric {s t : State} (h : sliceOnly s t) : t.fabric = s.fabric := by obtain ⟨_, rfl⟩ := h; rfl

theorem canonical_sliceOnly {s t : State} (h : canonical s) (k : sliceOnly s t) : canonical t :=
  canonical_of_eq h (sliceOnly_mem k) (sliceOnly_banks k)

/-! ## Undefined contents (R86, R90) -/

theorem forgetRuns_wf {m : Memory} (h : m.wf = true) (l : List Run) : (forgetRuns m l).wf = true := by
  induction l generalizing m with
  | nil => exact h
  | cons r l ih => exact ih (forget_wf h _ _)

theorem canonical_forgetIssued {s : State} (h : canonical s) (d : Issued) : canonical (forgetIssued s d) :=
  ⟨forgetRuns_wf h.1 _, forgetRuns_wf h.2 _⟩

theorem canonical_raceWrites {s : State} (h : canonical s) (others : List (Nat × Issued)) (l : List Run) :
    canonical (raceWrites s others l) := by
  unfold raceWrites
  induction others generalizing s with
  | nil => exact h
  | cons e es ih =>
    refine ih ?_
    have h1 : canonical (if runsMeet l e.2.sources then forgetIssued s e.2 else s) := by
      split
      · exact canonical_forgetIssued h _
      · exact h
    dsimp only
    split
    · exact ⟨forgetRuns_wf h1.1 _, h1.2⟩
    · exact h1

theorem canonical_disturb {s : State} (h : canonical s) (l : List Run) : canonical (disturb s l) :=
  canonical_raceWrites (s := noteWritten s l) h _ _

/-! ## Accesses through the home slices -/

theorem canonical_readThrough {s : State} (h : canonical s) (who : Initiator) (a len : Nat) : canonical (readThrough s who a len).2 := by
  have h1 := canonical_readBytes (canonical_lookupTags h a len) a len
  unfold readThrough
  dsimp only
  exact canonical_sliceOnly h1 (sliceOnly_accessSlices _ _ _ _ _)

theorem canonical_writeThrough {s : State} (h : canonical s) (who : Initiator) (a : Nat) (l : List (Byte × Bool)) :
    canonical (writeThrough s who a l).1 := by
  have h1 := canonical_writeMarked (canonical_lookupTags h a l.length) a l
  unfold writeThrough
  dsimp only
  exact canonical_sliceOnly (canonical_disturb h1 _) (sliceOnly_accessSlices _ _ _ _ _)

end Sys2Proof.Machine
end

