-- ==== Sys2Proof/Laws/Tile.lean ====
section
/-! SUPPORT. The fetches of a tile: what reading a descriptor, a tensor or an operand gives where the words read hold. -/

namespace Sys2Proof.Machine

open Sys2Proof

theorem wordBytes_unmarked (s : State) (w n : Nat) : ∀ b ∈ wordBytes s w n, b.2 = false := by
  intro b hb
  simp only [wordBytes, List.mem_flatMap, List.mem_map] at hb
  obtain ⟨_, _, c, _, rfl⟩ := hb
  rfl

theorem unmarked_any {l : List (Byte × Bool)} (h : ∀ b ∈ l, b.2 = false) (i j : Nat) : ((l.drop i).take j).any (fun b => b.2) = false := by
  rw [List.any_eq_false]
  intro b hb
  simp [h b (List.mem_of_mem_drop (List.mem_of_mem_take hb))]

/-- An access that is allowed, over words whose codes hold and lines whose tags hold, gives their bytes and changes nothing. -/
theorem readFor_clean {s : State} {who : Initiator} {block a len : Nat} (ha : accessDetail s who false a len = none)
    (ht : s.cache.tagSynd = [])
    (h : ∀ w, a / 8 ≤ w → w < (a + len + 7) / 8 → clean s.mem w) :
    readFor who block a len s =
      (.ok ⟨((wordBytes s (a / 8) ((a + len + 7) / 8 - a / 8)).drop (a - 8 * (a / 8))).take len, false, false⟩, s) := by
  simp [readFor, lookupTags, ha, ht, readBytes_clean h]

/-- The value of eight words from `w` up. -/
def lineNat (s : State) (w : Nat) : Nat := natOfBytes ((wordBytes s w 8).map (fun b => b.1))

theorem wordBytes_length (s : State) (w n : Nat) : (wordBytes s w n).length = 8 * n := by
  induction n generalizing w with
  | zero => rfl
  | succ n ih => rw [wordBytes_succ, List.length_append, ih, List.length_map, bytesOfNat_length]; omega

/-- A descriptor fetched from words whose codes hold. -/
theorem fetch64_clean {s : State} {n a : Nat} (ha : a % 64 = 0) (hx : accessDetail s (.pip n) false a 64 = none) (ht : s.cache.tagSynd = [])
    (h : ∀ i, i < 8 → clean s.mem (a / 8 + i)) : fetch64 n a s = (.ok (lineNat s (a / 8)), s) := by
  have hw : ∀ w, a / 8 ≤ w → w < (a + 64 + 7) / 8 → clean s.mem w := fun w h1 h2 => by
    have := h (w - a / 8) (by omega)
    rwa [Nat.add_sub_cancel' h1] at this
  have e1 : (a + 64 + 7) / 8 - a / 8 = 8 := by omega
  have e2 : a - 8 * (a / 8) = 0 := by omega
  have e3 : ((wordBytes s (a / 8) 8).drop 0).take 64 = wordBytes s (a / 8) 8 := by
    rw [List.drop_zero, List.take_of_length_le (by rw [wordBytes_length])]
  have hp := unmarked_any (wordBytes_unmarked s (a / 8) 8) 0 64
  rw [e3] at hp
  simp only [fetch64, ha, readFor_clean hx ht hw, e1, e2, e3]
  simp [Got.andThen, Bytes.poisoned, Bytes.nat, Bytes.bytes, lineNat, hp]

/-- A pointer to a tensor whose descriptor is well formed. -/
theorem fetchTensor_ok {s : State} {n v : Nat} {t : Tile} {p : Nat} {side : Bool} {x : Tensor} (h0 : bitsAt p 52 11 = 0)
    (h1 : bitAt p 63 = true) (hv : fetch64 n (baseOffset t (bitsAt p 0 4) (bitsAt p 4 48)) s = (.ok v, s)) (hx : tensorOf t v side = .ok x) :
    fetchTensor n t p side s = (.ok (some x), s) := by
  simp [fetchTensor, h0, h1, hv, Got.andThen, hx]

/-- An absent pointer. -/
theorem fetchTensor_absent {s : State} {n : Nat} {t : Tile} {p : Nat} {side : Bool} (h0 : bitsAt p 52 11 = 0) (h1 : bitAt p 63 = false) :
    fetchTensor n t p side s = (.ok none, s) := by
  simp [fetchTensor, h0, h1]

end Sys2Proof.Machine
end

