-- ==== Sys2Proof/Tests/Slice0.lean ====
section
/-! SUPPORT. Tests of the model: ill-formed commands refused by each check of WellFormed, values written out from the spec, and, for
every statement that has hypotheses, states and operands that meet them. -/

namespace Sys2Proof.Tests

open Sys2Proof Sys2Proof.Machine

set_option Elab.async false

/-! ## Small states -/

/-- A module in phase 8 that runs a job: the state after reset with its converters on. -/
def up : State := { State.reset with
  boot := { Boot.phase0 with phase := 8 }
  resil := { Resilience.none with state := 0 }
  power := { Power.atPowerOn with convertersOn := true } }

/-- Bytes of an object's value set. -/
def conf (s : State) (key off : Nat) (l : List Byte) : State :=
  s.onDict (fun d => { d with values := storeWrite d.values key off l })

/-- Bytes from an address up, as cells. -/
def cellsFrom : Nat → List Byte → Tab Byte
  | _, [] => []
  | a, b :: l => (a, b) :: cellsFrom (a + 1) l

/-- Bytes of memory set, above all that are set. -/
def poke (s : State) (a : Nat) (l : List Byte) : State := { s with mem := ⟨s.mem.cells ++ cellsFrom a l, s.mem.synd⟩ }

/-- A descriptor of 64 bytes. -/
def desc (v : Nat) : List Byte := bytesOfNat 64 v

/-- The store of tile 0. -/
def store0 : Nat := 0x020000000000

/-- Tile 0 runs, with the descriptor `v` at its program counter. -/
def running (v : Nat) : State := poke (onTile up 0 (fun t => { t with state := 1, pc := store0 })) store0 (desc v)

/-- The record of dense group 1: 32 replicated elements, layer 0, slots at 0x1_0000 and 0x2_0000, reduced at 0x3_0000. -/
def dense1 : Nat := 1 + 2 ^ 13 + 2 ^ 14 + 0x10000 * 2 ^ 64 + 0x20000 * 2 ^ 128 + 64 * 2 ^ 192 + 0x30000 * 2 ^ 256 + 32 * 2 ^ 320 + 2 ^ 457

/-- A module with dense group 1. -/
def withDense : State := conf up 0x481201 128 (bytesOfNat 128 dense1)

/-- The record of sweep group 4,096: 4 rows of 8 elements, one stage row. -/
def sweep0 : Nat := 4096 + 2 ^ 13 + 0x40000 * 2 ^ 64 + 0x50000 * 2 ^ 128 + 64 * 2 ^ 192 + 0x60000 * 2 ^ 256 + 4 * 2 ^ 320 + 8 * 2 ^ 360 + 2 ^ 896

/-- A module with sweep group 4,096, bound by binding 0 to table region 0. -/
def withSweep : State := conf (conf up 0x481202 0 (bytesOfNat 128 sweep0)) 0x380102 0
  (bytesOfNat 64 (4096 + 2 ^ 13 + 0x70000 * 2 ^ 64 + 4 * 2 ^ 128 + 4 * 2 ^ 160 + 0x80000 * 2 ^ 192 + 0x90000 * 2 ^ 256))

/-- A result that is ok, with the state beside it. -/
theorem ok_pair {α : Type} {x : Got α × State} {a : α} (h : x.1 = .ok a) : x = (.ok a, x.2) := by
  cases x; simp_all

/-- A descriptor held at an address. -/
theorem fetched {s : State} {n a v : Nat} (ha : a % 64 = 0) (hx : accessDetail s (.pip n) false a 64 = none)
    (ht : s.cache.tagSynd = []) (h : ∀ i, i < 8 → clean s.mem (a / 8 + i)) (hv : lineNat s (a / 8) = v) : fetch64 n a s = (.ok v, s) :=
  hv ▸ fetch64_clean ha hx ht h

/-- A computation on a tile or channel came through. -/
def gotOk {α : Type} (x : Got α × State) : Bool := match x.1 with | .ok _ => true | _ => false
/-! ## Power, rails, start-up -/

/-- Low and high ends of the input range; J1 mated (R367). -/
theorem witness_start : 28000 ≤ 28000 ∧ 44000 ≤ 44000 ∧ State.reset.power.modPresent = true ∧ State.reset.power.shutdownLow = false := by
  decide +kernel

theorem witness_release :
    let s := { State.reset with power := { State.reset.power with inputMv := 28000, v36 := true, shutdownLow := true } }
    28000 ≤ s.power.inputMv ∧ s.power.inputMv ≤ 44000 ∧ s.power.v36 = true ∧ s.power.modPresent = true ∧ s.power.shutdownLow = true := by
  decide +kernel

theorem witness_insert :
    let s := { State.reset with power := { State.reset.power with inputMv := 44000, v36 := true, modPresent := false } }
    28000 ≤ s.power.inputMv ∧ s.power.inputMv ≤ 44000 ∧ s.power.v36 = true ∧ s.power.modPresent = false ∧ s.power.shutdownLow = false := by
  decide +kernel

/-- A temperature of 125 °C at a sensor of the compute die (R321). -/
theorem witness_trip :
    let s := { up with power := { up.power with temps := List.replicate 236 1260 } }
    tripSensor s = some 0 ∧ s.power.convertersOn = true := by decide +kernel

/-- The stack resets while the converters run; the first cause and the last (R344). -/
theorem witness_reset : up.power.convertersOn = true ∧ 1 ≤ 6 ∧ 449 < 450 := by decide +kernel

theorem witness_converter : (3 : Nat) < 4 ∧ up.power.converterFailed.contains 3 = false ∧ up.power.converterFailed = [] := by decide +kernel

theorem witness_converter_second :
    let s := up.onPower (fun p => { p with converterFailed := [0] })
    s.power.converterFailed.contains 3 = false ∧ s.power.converterFailed.length = 1 := by decide +kernel

theorem witness_converter_third :
    let s := up.onPower (fun p => { p with converterFailed := [0, 1] })
    s.power.converterFailed.contains 3 = false ∧ 2 ≤ s.power.converterFailed.length := by decide +kernel

theorem witness_boot : (State.reset.onPower (fun p => { p with convertersOn := true })).power.convertersOn = true ∧
    State.reset.boot.phase = 0 ∧ (State.reset.onBoot (fun b => { b with phase := 2 })).boot.phase = 2 := by decide +kernel

theorem witness_phases :
    let s := fun (p : Nat) => State.reset.onBoot (fun b => { b with phase := p })
    (s 3).boot.phase = 3 ∧ (s 4).flash.retirements = [] ∧ (s 4).boot.bistReport = [] ∧ (s 6).boot.userRunning = 0xFF ∧
      (s 7).boot.phase = 7 := by decide +kernel

theorem witness_rails : (5 : Nat) < 6 ∧ floorOf 5 - 1 < floorOf 5 ∧ up.power.stopped.contains 5 = false ∧ floorOf 5 < floorOf 5 + 1 := by decide +kernel

theorem witness_droop :
    let s := up.onPower (fun p => { p with droop := [7] })
    (7 : Nat) < 8 ∧ 100 + 25 < up.power.railSet.getD 7 0 ∧ up.power.droop.contains 7 = false ∧ s.power.droop.contains 7 = true ∧
      s.power.railSet.getD 7 0 ≤ (s.power.railSet.getD 7 0 - 10) + 10 ∧ s.power.rampWait = false := by decide +kernel

/-- A ramp step waits for two droops; after the one of rail 1 it waits for that of rail 0, and then no longer. -/
theorem witness_droop_ramp :
    let s := up.onPower (fun p => { p with droop := [0, 1], rampWait := true })
    let t := up.onPower (fun p => { p with droop := [0], rampWait := true })
    s.power.droop.contains 1 = true ∧ s.power.rampWait = true ∧ s.power.railSet.getD 1 0 ≤ s.power.railSet.getD 1 0 + 10 ∧
      rampHeld (endDroop s 1 (s.power.railSet.getD 1 0)) = true ∧ t.power.droop.contains 0 = true ∧ t.power.rampWait = true ∧
      rampHeld (endDroop t 0 (t.power.railSet.getD 0 0)) = false := by decide +kernel

theorem witness_ramp_up :
    let s := up.onPower (fun p => { p with railSet := List.replicate 8 700 })
    rampHeld s = false ∧ s.power.railSet.headD 0 < railTarget s ∧ rampHeld (s.onPower (fun p => { p with droop := [0] })) = true := by
  decide +kernel

theorem witness_ramp_down :
    let s := up.onPower (fun p => { p with railSet := List.replicate 8 850, powerLimitMv := 620 })
    rampHeld s = false ∧ railTarget s < s.power.railSet.headD 0 := by decide +kernel

theorem witness_ramp_there :
    let s := up.onPower (fun p => { p with railSet := List.replicate 8 (railTarget up) })
    rampHeld s = false ∧ s.power.railSet.headD 0 = railTarget s := by decide +kernel

theorem witness_restart :
    let s := up.onPower (fun p => { p with restart := [(15, 4)] })
    tabGet 16 s.power.restart 15 = 4 ∧ tabGet 16 (up.onPower (fun p => { p with restart := [(15, 8)] })).power.restart 15 = 8 := by
  decide +kernel

/-- A reading of no load. -/
def reading : PowerReading := ⟨36000, 100, List.replicate 8 800, List.replicate 8 0, List.replicate 236 400, List.replicate 43 0, 0, 0⟩

theorem witness_reading : reading.railMv.length = 8 ∧ reading.railMa.length = 8 ∧ reading.temps.length = 236 ∧ reading.energyMj.length = 43 ∧
    reading.wf = true := by decide +kernel

/-! ## The stack, memory, scrubbing -/

/-- One attempt with a word whose codes hold, and one with a wrong data bit. -/
def cleanAttempt : TransferAttempt := ⟨[(0, eccCheck 0)], true⟩
def wrongAttempt : TransferAttempt := ⟨[(1, eccCheck 0)], true⟩

theorem witness_transfer : (383 : Nat) < 384 ∧ (4 : Nat) < 5 ∧ interfaceStopped up 4 = false ∧ interfaceRetired up (5 * 383 + 4) = false ∧
    tabGet 0 up.stack.interfaces (5 * 383 + 4) = 0 ∧
    splitAttempts attemptClean 4 [wrongAttempt, wrongAttempt, wrongAttempt, cleanAttempt] =
      ([wrongAttempt, wrongAttempt, wrongAttempt], some cleanAttempt) := by decide +kernel

theorem witness_transfer_degraded :
    let s := up.onStack (fun k => { k with interfaces := [(0, 1)] })
    interfaceStopped s 0 = false ∧ interfaceRetired s 0 = false ∧ tabGet 0 s.stack.interfaces 0 = 1 ∧ splitAttempts attemptCorrectable 4 [wrongAttempt] = ([], some wrongAttempt) := by decide +kernel

theorem witness_transfer_cut :
    let s := up.onStack (fun k => { k with interfaces := [(1, 2)] })
    interfaceStopped s 1 = false ∧ interfaceRetired s 1 = false ∧ tabGet 0 s.stack.interfaces 1 = 2 := by decide +kernel

theorem witness_transfer_stopped :
    interfaceStopped (up.onPower (fun p => { p with stopped := [5] })) 0 = true ∧
      interfaceRetired (up.onStack (fun k => { k with interfaces := [(0, 2)], retired := [0], slices := (List.range 384).map (fun i => (i, 1)) })) 0 = true := by
  decide +kernel

theorem witness_cluster : 8 ≤ up.boot.phase ∧ tabGet 0 up.stack.clusters 383 = 0 ∧ up.stack.retired.contains 383 = false := by decide +kernel

theorem witness_floor_timeout :
    let s := up.onPower (fun p => { p with tileFloor := [0] })
    s.power.tileFloor.contains 0 = true ∧ s.stack.retired.contains 0 = false ∧ s.train.cut = false := by decide +kernel

/-- The last byte of the HBM range. -/
theorem witness_home_write :
    let s := poke up 0xBFFFFFFFF8 [0, 0, 0, 0, 0, 0, 0, 0]
    s.mem.wf = true ∧ 0xBFFFFFFFFF + [(7 : Byte)].length ≤ hbmEnd ∧ (∀ c, Initiator.hazel ≠ .remote c) ∧ inFlight s = [] ∧
      accessStopped s 0xBFFFFFFFFF 1 = false ∧ s.cache.tagSynd = [] ∧ inRdmaRegion s .hazel false 0xBFFFFFFFFF 1 = true ∧
      ∀ w, 0xBFFFFFFFFF / 8 ≤ w → 8 * w < 0xBFFFFFFFFF + [(7 : Byte)].length →
        neverWritten s.mem w = false ∧ tabGet 0 s.mem.synd w = 0 := by
  refine ⟨by decide +kernel, by decide +kernel, by simp, by decide +kernel, by decide +kernel, by decide +kernel, by decide +kernel, ?_⟩
  intro w h1 h2
  have : w = 0xBFFFFFFFFF / 8 := by simp only [List.length_singleton] at h2; omega
  subst this; decide +kernel

theorem witness_unmapped : regionOf hbmEnd = none ∧ hbmEnd < 2 ^ 48 := by decide +kernel

theorem witness_fill :
    let f : Fill := ⟨5, .hazel, 1, 0, 0⟩
    let s := (poke up 320 [1, 2, 3, 4, 5, 6, 7, 8]).onCache (fun c => { c with fills := [f] })
    s.cache.fills.find? (fun x => x.line == f.line) = some f ∧ s.cache.waiting = [] ∧ s.cache.blocked = [] ∧ s.tiles = [] ∧
      sliceStopped s f.line = false ∧ hbmServes s f.line false = true ∧
      ∀ i, i < 8 → (f.want &&& ~~~ f.written).getLsbD i = true → wordLost s (8 * f.line + i) = false := by decide +kernel

theorem witness_writeback :
    let w : WriteBack := ⟨5, 1, 0xFF⟩
    let s := up.onCache (fun c => { c with writebacks := [w] })
    s.cache.writebacks.find? (fun x => x.line == 5) = some w ∧ s.cache.waiting = [] ∧ s.cache.blocked = [] ∧ s.tiles = [] ∧
      sliceStopped s 5 = false ∧ hbmServes s 5 true = true := by decide +kernel

theorem witness_scrub_clean :
    let s := poke up store0 [1, 2, 3, 4, 5, 6, 7, 8]
    scrubOff s 0 = false ∧ tabGet 0 s.prot.scrubAt 0 = 0 ∧ scrubTarget s 0 0 = some (.memory store0) ∧ s.cache.tagSynd = [] ∧ (scrubTarget s 0 1).isSome = true ∧
      decodeSyndrome (heldSyndrome s.mem s.free (store0 / 8)) = .clean := by decide +kernel

theorem witness_scrub_bit :
    let s0 := poke up store0 [1, 2, 3, 4, 5, 6, 7, 8]
    let s := { s0 with mem := ⟨s0.mem.cells, [(store0 / 8, eccCheck (BitVec.ofNat 64 (2 ^ 63)))]⟩ }
    scrubOff s 0 = false ∧ scrubTarget s 0 0 = some (.memory store0) ∧ s.cache.tagSynd = [] ∧ isDetect s store0 = false ∧ (0 : Nat) ≠ 3 ∧
      decodeSyndrome (heldSyndrome s.mem s.free (store0 / 8)) = .dataBit 63 := by decide +kernel

theorem witness_scrub_end :
    let s := up.onProt (fun p => { p with scrubAt := [(3, hbmEnd / 8)] })
    scrubOff s 3 = false ∧ tabGet 0 s.prot.scrubAt 3 = hbmEnd / 8 ∧ scrubTarget s 3 (hbmEnd / 8) = none := by decide +kernel

/-- The last word of Husk state storage, whose first copy has a wrong data bit. -/
theorem witness_scrub_husk :
    let s := up.onProt (fun p => { p with scrubAt := [(4, 2 * (huskCount - 1))], huskSynd := [(huskCount - 1, (eccCheck 1, 0))] })
    scrubOff s 4 = false ∧ tabGet 0 s.prot.scrubAt 4 = 2 * (huskCount - 1) ∧ huskCount - 1 < huskCount ∧
      tabGet (0, 0) s.prot.huskSynd (huskCount - 1) = (eccCheck 1, 0) ∧ decodeSyndrome (eccCheck 1) = .dataBit 0 := by
  refine ⟨by decide +kernel, by simp [State.onProt, tabGet, tabFind], by simp [huskCount], by simp [State.onProt, tabGet, tabFind], by decide +kernel⟩

theorem witness_channel :
    let s := up.onProt (fun p => { p with spread := [0] })
    (up.prot.spread ++ up.prot.spreading).any (fun d => decide (d / 32 = 11)) = false ∧
      (s.prot.spread ++ s.prot.spreading).contains 31 = false ∧
      (s.prot.spread ++ s.prot.spreading).any (fun d => decide (d / 32 = 0)) = true := by decide +kernel

/-- The first line of group 1, its first word uncorrectable, held for Hazel. -/
def lineHeld : State :=
  let s := (poke withDense 0x10000 [1, 2, 3, 4, 5, 6, 7, 8]).onProt (fun p => { p with heldLines := [(0x400, 0xF)] })
  { s with mem := ⟨s.mem.cells, [(0x2000, 0x03)]⟩ }

theorem witness_line_bad : lineBad lineHeld 0x400 = true := by decide +kernel

/-- A held line that was written anew can be read. -/
theorem witness_line_good :
    let s := (poke withDense 0x10000 (List.replicate 64 1)).onProt (fun p => { p with heldLines := [(0x400, 0xF)] })
    s.prot.heldLines.any (fun h => decide (h.1 = 0x400)) = true ∧ (groupAt s (64 * 0x400)).isSome = true ∧ lineBad s 0x400 = false := by
  decide +kernel

/-- A read that finds an uncorrectable word has its row repaired. -/
theorem test_row_repair : (readWord lineHeld 0x2000).2.prot.repaired = [(bankKey lineHeld 0x10000, 0)] := by decide +kernel

theorem witness_line_lost :
    lineHeld.prot.heldLines.find? (fun h => decide (h.1 = 0x400)) = some (0x400, 0xF) ∧
      (groupAt lineHeld (64 * 0x400)).isSome = true ∧ lineValue lineHeld (groupNow lineHeld 1) 0x400 = none ∧
      groupAt lineHeld (64 * 0x400) = some (groupNow lineHeld 1) ∧ lineSource lineHeld (groupNow lineHeld 1) 0x400 = .none := by decide +kernel

theorem witness_line_value :
    let s := lineHeld.onProt (fun p => { p with lineValues := [(0x400, List.replicate 64 7)] })
    groupAt s (64 * 0x400) = some (groupNow s 1) ∧ lineValue s (groupNow s 1) 0x400 = some (List.replicate 64 7) ∧
      lineBad s 0x400 = true ∧ s.cracker.heldRequests = [] ∧ s.prot.heldAccesses = [] ∧ s.tiles = [] := by decide +kernel

theorem witness_line_request :
    let s := (lineHeld.onProt (fun p => { p with lineValues := [(0x400, List.replicate 64 7)] })).onCracker (fun k =>
      { k with heldRequests := [blankPacket 8 0x7001] })
    groupAt s (64 * 0x400) = some (groupNow s 1) ∧ lineValue s (groupNow s 1) 0x400 = some (List.replicate 64 7) ∧
      s.prot.heldLines.find? (fun h => decide (h.1 = 0x400)) = some (0x400, 0xF) ∧ s.cracker.heldRequests ≠ [] := by decide +kernel

theorem witness_line_source :
    let s := conf (conf lineHeld 0x600101 1 [1]) 0x600001 0 [0, 0x70, 0, 0]
    groupAt s (64 * 0x400) = some (groupNow s 1) ∧ lineBad s 0x400 = true ∧ lineValue s (groupNow s 1) 0x400 = none ∧
      lineSource s (groupNow s 1) 0x400 = .ask (buddyNode s) := by decide +kernel

/-- The generation of group 1 is in transfer to the buddy. -/
theorem witness_line_later :
    let s := (conf (conf lineHeld 0x600101 1 [1]) 0x600001 0 [0, 0x70, 0, 0]).onResil (fun r => { r with gate := [⟨6, 0x7000, 0, 0, 1, 0, 1, [], []⟩] })
    groupAt s (64 * 0x400) = some (groupNow s 1) ∧ lineBad s 0x400 = true ∧ lineValue s (groupNow s 1) 0x400 = none ∧
      lineSource s (groupNow s 1) 0x400 = .later := by decide +kernel

/-! ## Tiles -/

theorem witness_nop : atCounter (running 0) 0 0 ∧ headerMet (running 0) 0 0 ∧ hazardFree (tileOf (running 0) 0) [] = true := by
  refine ⟨⟨by decide +kernel, by decide +kernel⟩, ⟨by decide +kernel, by decide +kernel, by decide +kernel, by decide +kernel⟩, by decide +kernel⟩

/-- LOOP of 4,096 descriptors, once. -/
def loopD : Nat := 0x01 + 4096 * 2 ^ 64 + 2 ^ 80

theorem witness_loop : atCounter (running loopD) 0 loopD ∧ headerMet (running loopD) 0 loopD ∧ loopReserved loopD = false ∧
    bitsAt loopD 64 16 = 4096 ∧ bitsAt loopD 80 32 = 1 ∧ (tileOf (running loopD) 0).loops = [] := by
  refine ⟨⟨by decide +kernel, by decide +kernel⟩, ⟨by decide +kernel, by decide +kernel, by decide +kernel, by decide +kernel⟩, by decide +kernel⟩

/-- SETB b14 := b3 + 5. -/
def setbD : Nat := 0x02 + 14 * 2 ^ 64 + 3 * 2 ^ 68 + 5 * 2 ^ 128

theorem witness_setb : atCounter (running setbD) 0 setbD ∧ bitsAt setbD 72 56 = 0 ∧ bitsAt setbD 192 320 = 0 := by
  refine ⟨⟨by decide +kernel, by decide +kernel⟩, by decide +kernel⟩

/-- LOADB b1 from b15 + 0x0200_0000_0040. -/
def loadbD : Nat := 0x03 + 1 * 2 ^ 64 + 15 * 2 ^ 68 + (store0 + 64) * 2 ^ 72

theorem witness_loadb :
    let s := poke (running loadbD) (store0 + 64) (bytesOfNat 8 77)
    atCounter s 0 loadbD ∧ baseOffset (tileOf s 0) (bitsAt loadbD 68 4) (bitsAt loadbD 72 48) = store0 + 64 ∧
      (readFor (.pip 0) 1 (store0 + 64) 8 s).2 = s ∧
      (readFor (.pip 0) 1 (store0 + 64) 8 s).1 = .ok ⟨(bytesOfNat 8 77).map (fun b => (b, false)), false, false⟩ ∧
      hazardFree (tileOf s 0) (storePart 0 (store0 + 64) (store0 + 71) false) = true := by
  refine ⟨⟨by decide +kernel, by decide +kernel⟩, by decide +kernel, by decide +kernel, by decide +kernel, by decide +kernel⟩

theorem witness_end : atCounter (running 0x3F) 0 0x3F ∧ (tileOf (running 0x3F) 0).issued = [] := by
  refine ⟨⟨by decide +kernel, by decide +kernel⟩, by decide +kernel⟩

theorem witness_reserved : atCounter (running 0x3E) 0 0x3E ∧ opKnown (bitsAt 0x3E 0 8) = false := by
  refine ⟨⟨by decide +kernel, by decide +kernel⟩, by decide +kernel⟩

theorem witness_idle : tileIssues up 383 = false := by decide +kernel

/-- A NOP that waits for counter 0 to reach 1; one with a fence and an earlier descriptor. -/
theorem witness_hold :
    let d := 2 ^ 16 + 2 ^ 32
    atCounter (running d) 0 d ∧ bitAt d 11 = false ∧ bitAt d 17 = false ∧ fencesMet (tileOf (running d) 0) d = true ∧
      counterMet (tileOf (running d) 0) d = false := by
  refine ⟨⟨by decide +kernel, by decide +kernel⟩, by decide +kernel⟩

/-- MATMUL of one BF16 line of one element by another, from +0 into bank 0. -/
def matD : Nat := 0x10 + 15 * 2 ^ 64 + (store0 + 128) * 2 ^ 68 + 5 * 2 ^ 116 + 15 * 2 ^ 256 + (store0 + 136) * 2 ^ 260 + 5 * 2 ^ 308
  + 2 ^ 462 + 2 ^ 487 + 5 * 2 ^ 488 + 5 * 2 ^ 492

def matS : State :=
  let s := poke (running matD) (store0 + 128) (bytesOfNat 16 (0x3F80 + 0x4000 * 2 ^ 64))
  { s with banks := ⟨putBytes [] (bankAt 0 0 0) (bytesOfNat 8 0), []⟩ }

theorem witness_matmul :
    let m := matOf (tileOf matS 0) matD
    atCounter matS 0 matD ∧ headerMet matS 0 matD ∧ matReserved matD = false ∧ checkMatmul (contextOf matS 0).profile m = none ∧
      hazardFree (tileOf matS 0) (⟨1 + m.bank, 0, 65535, true⟩ :: Operand.foot 0 m.a ++ Operand.foot 0 m.b) = true ∧
      runMatmul 0 m matS = (.ok (), (runMatmul 0 m matS).2) := by
  refine ⟨⟨by decide +kernel, fetched (by decide +kernel) (by decide +kernel) rfl (by decide +kernel) (by decide +kernel)⟩, ⟨by decide +kernel, by decide +kernel, by decide +kernel, by decide +kernel⟩,
    by decide +kernel, by decide +kernel, by decide +kernel, ok_pair (by decide +kernel)⟩

/-- The row gates of a tile: open, and held closed by a restart at 0. -/
theorem witness_gates :
    let s := matS.onPower (fun p => { p with restart := [(0, 0)] })
    let m := matOf (tileOf s 0) matD
    gateOpen matS 0 = true ∧ gateOpen s 0 = false ∧ atCounter s 0 matD ∧ headerMet s 0 matD ∧ checkMatmul (contextOf s 0).profile m = none ∧
      hazardFree (tileOf s 0) (⟨1 + m.bank, 0, 65535, true⟩ :: Operand.foot 0 m.a ++ Operand.foot 0 m.b) = true := by
  refine ⟨by decide +kernel, by decide +kernel, ⟨by decide +kernel, fetched (by decide +kernel) (by decide +kernel) rfl (by decide +kernel)
    (by decide +kernel)⟩, ⟨by decide +kernel, by decide +kernel, by decide +kernel, by decide +kernel⟩, by decide +kernel, by decide +kernel⟩

/-- The product is 2 (R99). -/
theorem test_matmul_product :
    (match matmulOuts 0 (matOf (tileOf matS 0) matD) (contextOf matS 0) matS with
      | (.ok (r, _, _), _) => r.map (fun e => e.2.1)
      | _ => []) = [0x40000000] := by decide +kernel

/-- A tensor of one binary32 element at an address. -/
def one32 (a : Nat) : Nat := 15 + a * 2 ^ 4 + 7 * 2 ^ 52 + 2 ^ 64 + 2 ^ 88 + 2 ^ 104 + 2 ^ 128 + 2 ^ 144

/-- A pointer by b15. -/
def ptr (a : Nat) : Nat := 15 + a * 2 ^ 4 + 2 ^ 63

/-- COPY of one element. -/
def copyD : Nat := 0x20 + 0x01 * 2 ^ 64 + ptr (store0 + 256) * 2 ^ 128 + ptr (store0 + 320) * 2 ^ 192

def copyS : State := poke (poke (poke (poke (running copyD) (store0 + 256) (desc (one32 (store0 + 512)))) (store0 + 320) (desc (one32 (store0 + 576))))
  (store0 + 512) (bytesOfNat 8 0)) (store0 + 576) (bytesOfNat 8 0x3F800000)

def tensor32 (a : Nat) : Tensor := ⟨a, 7, false, 0, [1, 1, 1, 1, 1], [0, 0, 0, 0, 0]⟩

def copyV : Vec := ⟨0x01, false, false, 0, 0, 0, tensor32 (store0 + 512), tensor32 (store0 + 576), absentTensor, absentTensor, absentTensor⟩

theorem witness_vector : gateOpen copyS 0 = true ∧ atCounter copyS 0 copyD ∧ headerMet copyS 0 copyD ∧ vectorAt copyS 0 copyD copyV ∧ checkVector 0 copyV = none ∧
    hazardFree (tileOf copyS 0) (vectorFoot 0 copyV) = true ∧ runVector 0 copyV copyS = (.ok (), (runVector 0 copyV copyS).2) := by
  refine ⟨by decide +kernel, ⟨by decide +kernel, fetched (by decide +kernel) (by decide +kernel) rfl (by decide +kernel) (by decide +kernel)⟩, ⟨by decide +kernel, by decide +kernel, by decide +kernel, by decide +kernel⟩,
    ⟨by decide +kernel, some (tensor32 (store0 + 512)), some (tensor32 (store0 + 576)), none, none, none, ?_⟩,
    by decide +kernel, by decide +kernel, ok_pair (by decide +kernel)⟩
  refine ⟨fetchTensor_ok (v := one32 (store0 + 512)) (by decide +kernel) (by decide +kernel) (fetched (by decide +kernel) (by decide +kernel) rfl (by decide +kernel) (by decide +kernel))
      (by decide +kernel),
    fetchTensor_ok (v := one32 (store0 + 576)) (by decide +kernel) (by decide +kernel) (fetched (by decide +kernel) (by decide +kernel) rfl (by decide +kernel) (by decide +kernel))
      (by decide +kernel),
    fetchTensor_absent (by decide +kernel) (by decide +kernel), fetchTensor_absent (by decide +kernel) (by decide +kernel),
    fetchTensor_absent (by decide +kernel) (by decide +kernel), by decide +kernel, by decide +kernel, by decide +kernel, by decide +kernel⟩

/-- A source all of whose coordinates are one element (all strides 0). -/
theorem witness_reduction : vopReduces 0x20 = true ∧
    ∀ c, readNum 0 7 (tensor32 (store0 + 576)) c copyS = (.ok (decodeNum 7 0x3F800000, false), copyS) := by
  refine ⟨by decide, fun c => ?_⟩
  have hz : ∀ (l : List Nat) (k : Nat) (z : Int),
      (List.zipWith (fun (j : Nat) (m : Int) => (j : Int) * m) l (List.replicate k 0)).foldl (· + ·) z = z := by
    intro l
    induction l with
    | nil => intros; rfl
    | cons a l ih => intro k z; cases k with
      | zero => rfl
      | succ k => simpa [List.replicate_succ] using ih k z
  have hs : ∀ c : List Nat, strideSum 7 c [0, 0, 0, 0, 0] = 0 := by
    intro c
    cases c with
    | nil => rfl
    | cons a l => simpa [strideSum] using hz l 4 0
  have h : ∀ c, (tensor32 (store0 + 576)).at c = (tensor32 (store0 + 576)).at [] := by
    intro c
    simp only [Tensor.at, tensor32, hs]
  have e : readNum 0 7 (tensor32 (store0 + 576)) c copyS = readNum 0 7 (tensor32 (store0 + 576)) [] copyS := by
    simp only [readNum, readElem, h (clipCoord _ _)]
    rfl
  rw [e]
  decide +kernel

/-- The lines that the MATMUL of `matS` reads, and its start values. -/
theorem witness_accumulate :
    let m := matOf (tileOf matS 0) matD
    m.a.lines = 1 ∧ m.b.lines = 1 ∧ readLine 0 0 m.a 0 matS = (.ok ([decodeNum 5 0x3F80], false), matS) ∧
      readLine 0 0 m.b 0 matS = (.ok ([decodeNum 5 0x4000], false), matS) ∧
      startValue 0 m 0 matS = (.ok (.fin false 0 0, false), matS) := by decide +kernel

theorem witness_elementwise : ∀ c ∈ coords copyV.dst.ext, ∀ x ∈ copyV.sources,
    readNum 0 copyV.format x c copyS = (.ok (decodeNum 7 0x3F800000, false), copyS) := by decide +kernel

theorem witness_vector_stores :
    let o : Outs := ⟨(bytesOfNat 4 0x3F800000).zipIdx.map (fun b => (store0 + 512 + b.2, b.1, false)), [], false⟩
    let s := copyS
    s.mem.wf = true ∧ vectorOuts 0 copyV s = (.ok o, s) ∧ tabRising none o.mem = true ∧ o.mem.all (fun e => !e.2.2) = true ∧
      bundleDetail s (.pip 0) o.mem = none ∧ (∀ e ∈ o.mem, neverWritten s.mem (e.1 / 8) = false ∧ tabGet 0 s.mem.synd (e.1 / 8) = 0) ∧
      copyV.dests.any (fun d => copyV.origins.any (clash d)) = false := by decide +kernel

/-- FILL of one element. -/
def fillD : Nat := 0x08 + 15 * 2 ^ 64 + (store0 + 256) * 2 ^ 68

def fillS : State := poke (poke (poke (running fillD) (store0 + 256) (desc (5 + ptr (store0 + 320) * 2 ^ 64 + 0x3F800000 * 2 ^ 256)))
  (store0 + 320) (desc (one32 (store0 + 512)))) (store0 + 512) (bytesOfNat 8 0)

def fillX : Stream := ⟨5, 4, 0, tensor32 (store0 + 512), noTensor, noTensor, 0x3F800000⟩

theorem witness_stream : gateOpen fillS 0 = true ∧ atCounter fillS 0 fillD ∧ headerMet fillS 0 fillD ∧ bitsAt fillD 118 10 = 0 ∧ bitsAt fillD 128 384 = 0 ∧
    streamAt fillS 0 fillD (5 + ptr (store0 + 320) * 2 ^ 64 + 0x3F800000 * 2 ^ 256) fillX ∧ checkTensors 0 fillX = none ∧ streamAligned fillX = true ∧
    hazardFree (tileOf fillS 0) (streamFoot 0 fillX) = true ∧ runStream 0 0 fillX fillS = (.ok (), (runStream 0 0 fillX fillS).2) := by
  refine ⟨by decide +kernel, ⟨by decide +kernel, fetched (by decide +kernel) (by decide +kernel) rfl (by decide +kernel) (by decide +kernel)⟩, ⟨by decide +kernel, by decide +kernel, by decide +kernel, by decide +kernel⟩,
    by decide +kernel, by decide +kernel, ?_,
    by decide +kernel, by decide +kernel, by decide +kernel, ok_pair (by decide +kernel)⟩
  unfold streamAt
  decide +kernel

theorem witness_loads :
    let x : Stream := ⟨1, 4, 0, tensor32 (store0 + 576), tensor32 (store0 + 512), noTensor, 0⟩
    ∀ c ∈ coords x.far.ext, ∃ b, readFor (.pip 0) 4 (x.far.at c) (elemBytes x.far.fmt) copyS = (.ok b, copyS) ∧
      b.bytes = bytesOfNat 4 0x3F800000 ∧ b.poisoned = false := by
  intro x c h
  have : c = [0, 0, 0, 0, 0] := by simpa [x, tensor32, coords] using h
  subst this
  exact ⟨⟨(bytesOfNat 4 0x3F800000).map (fun b => (b, false)), false, false⟩, by decide +kernel⟩

theorem witness_indexed :
    let x : Stream := ⟨3, 4, 0, ⟨store0, 7, false, 0, [1, 2, 1, 1, 1], [0, 0, 0, 0, 0]⟩, tensor32 0, tensor32 0, 0⟩
    1 < x.far.extent 1 ∧ 1 ≠ 256 ^ x.indexBytes - 1 ∧ x.far.extent 1 ≤ 2 := by decide +kernel

/-- A program waiting for idle tile 351. -/
theorem witness_program :
    let p : Program := ⟨0, 0, 1, store0, List.replicate 12 0⟩
    let s := onTile up 351 (fun t => { t with waiting := [p] })
    (tileOf s 351).waiting = [p] ∧ (tileOf s 351).state = 0 ∧ p.step = currentStep s ∧ tilePowered s 351 = true ∧
      accessDetail s (.pip 351) false p.entry 64 = none ∧ p.args.length = 12 := by decide +kernel

/-- An issued descriptor of the vector engine, without and with a fault, and one of a stream channel. -/
def issued (engine : Nat) (f : Option Code) : State :=
  onTile up 0 (fun t => { t with state := 1, issued := [⟨7, engine, 3, [], none, f, 3, 0, 0, [], [], [], [], [], [], []⟩] })

theorem witness_ends :
    let e : Option Code → Issued := fun f => ⟨7, 1, 3, [], none, f, 3, 0, 0, [], [], [], [], [], [], []⟩
    (tileOf (issued 1 none) 0).issued.find? (fun d => d.number == 7) = some (e none) ∧
      (tileOf (issued 1 none) 0).issued.all (fun x => !(x.engine == 1 && x.channel == 3 && decide (x.number < 7))) = true ∧
      tilePowered (issued 1 none) 0 = true ∧
      (tileOf (issued 1 (some 0x02030801)) 0).issued.find? (fun d => d.number == 7) = some (e (some 0x02030801)) := by decide +kernel

theorem witness_ends_stream :
    let e : Option Code → Issued := fun f => ⟨7, 2, 3, [], none, f, 3, 0, 0, [], [], [], [], [], [], []⟩
    (tileOf (issued 2 none) 0).issued.find? (fun d => d.number == 7) = some (e none) ∧ tabGet 0 (tileOf (issued 2 none) 0).halts 3 = 0 ∧
      (tileOf (issued 2 (some 0x02040801)) 0).issued.find? (fun d => d.number == 7) = some (e (some 0x02040801)) := by decide +kernel

theorem witness_trapping :
    let i : TrapInfo := ⟨0, 0x04010101, 1, 0, store0, []⟩
    let s := fun (p : Option Program) => onTile up 0 (fun t => { t with state := 1, trap := some i, program := p })
    (tileOf (s none) 0).trap = some i ∧ (tileOf (s none) 0).issued = [] ∧ (tileOf (s none) 0).program = none ∧
      (tileOf (s (some ⟨0, 0, 1, store0, []⟩)) 0).program = some ⟨0, 0, 1, store0, []⟩ := by decide +kernel

theorem witness_loops :
    let l : Loop := ⟨64, 128, 2, 0, []⟩
    let t := { Tile.idle with loops := [l], pc := 128 }
    t.loops = [l] ∧ l.last = t.pc ∧ 1 < l.left ∧ ({ l with left := 1 } : Loop).left ≤ 1 ∧ Tile.idle.regs.length = 16 := by decide +kernel

/-! ## The Cracker -/

/-- A module with table region 0: 16 rows of 8 bytes at 0x100000, whole here, writable, bound by binding 0; row 3, an index word
and 32 bytes of data are written; channel 2 holds the command `v` at 0x200000. -/
def withTable (i v : Nat) : State :=
  let s := conf withSweep 0x380101 0 (bytesOfNat 32 (0x100000 + 8 * 2 ^ 64 + 16 * 2 ^ 96 + 2 ^ 128 + 2 ^ 129 + 2 ^ 130 + 2 ^ 131 + 2 ^ 152))
  let s1 := poke (poke (poke s (0x100000 + 24) (bytesOfNat 8 0x1122334455667788)) 0x200000 (desc v)) 0x200040 (bytesOfNat 8 i)
  onChannel (poke s1 0x200080 (bytesOfNat 32 5)) 2 (fun x => { x with cmds := [⟨0x200000, 0, 1, 1⟩] })

/-- A command of a kind: one index of 4 bytes at 0x200040, data at 0x200080. -/
def tableCmd (kind : Nat) : Nat := kind + 0x200040 * 2 ^ 64 + 2 ^ 128 + 0x200080 * 2 ^ 192

/-- The state in which the command of channel 2 has been read. -/
def commandRead (i v : Nat) : State := (readSectors 2 0x200000 64 (withTable i v)).2

theorem headCommand_of {i v : Nat} (h : (readSectors 2 0x200000 64 (withTable i v)).1 =
      .ok ⟨(desc v).map (fun b => (b, false)), false, false⟩) (hv : natOfBytes (desc v) = v)
    (hf : commandFault (commandRead i v) (crackerCommand v) = none) (h2 : (channelOf (withTable i v) 2).cmds = [⟨0x200000, 0, 1, 1⟩])
    (h3 : (channelOf (withTable i v) 2).ran = false) (h4 : (channelOf (withTable i v) 2).halt = 0) (h5 : currentStep (withTable i v) = 1)
    (h6 : huskStopped (withTable i v) = false) :
    headCommand (withTable i v) (commandRead i v) 2 (crackerCommand v) := by
  refine ⟨_, _, _, h2, h3, by decide, h5.symm, h4, h6, ok_pair h, ?_, ?_, hf⟩
  · simp [Bytes.poisoned]
  · show _ = crackerCommand (natOfBytes (((desc v).map (fun b => (b, false))).map (fun b => b.1)))
    rw [List.map_map]
    have : ((fun (b : Byte × Bool) => b.1) ∘ fun b => (b, false)) = id := rfl
    rw [this, List.map_id, hv]

theorem witness_gather : headCommand (withTable 3 (tableCmd 1)) (commandRead 3 (tableCmd 1)) 2 (crackerCommand (tableCmd 1)) ∧
    (crackerCommand (tableCmd 1)).kind = 1 ∧ gotOk (gatherBody 2 (crackerCommand (tableCmd 1)) (commandRead 3 (tableCmd 1))) = true :=
  ⟨headCommand_of (by decide +kernel) (by decide +kernel) (by decide +kernel) (by decide +kernel) (by decide +kernel) (by decide +kernel) (by decide +kernel)
    (by decide +kernel), by decide +kernel, by decide +kernel⟩

theorem witness_scatter : headCommand (withTable 3 (tableCmd 2)) (commandRead 3 (tableCmd 2)) 2 (crackerCommand (tableCmd 2)) ∧
    (crackerCommand (tableCmd 2)).kind = 2 ∧ gotOk (scatterBody 2 (crackerCommand (tableCmd 2)) (commandRead 3 (tableCmd 2))) = true :=
  ⟨headCommand_of (by decide +kernel) (by decide +kernel) (by decide +kernel) (by decide +kernel) (by decide +kernel) (by decide +kernel) (by decide +kernel)
    (by decide +kernel), by decide +kernel, by decide +kernel⟩

theorem witness_grad : headCommand (withTable 3 (tableCmd 3)) (commandRead 3 (tableCmd 3)) 2 (crackerCommand (tableCmd 3)) ∧
    (crackerCommand (tableCmd 3)).kind = 3 ∧ gotOk (gradBody 2 (crackerCommand (tableCmd 3)) (commandRead 3 (tableCmd 3))) = true :=
  ⟨headCommand_of (by decide +kernel) (by decide +kernel) (by decide +kernel) (by decide +kernel) (by decide +kernel) (by decide +kernel) (by decide +kernel)
    (by decide +kernel), by decide +kernel, by decide +kernel⟩

theorem witness_flat : headCommand (withTable (2 ^ 63) (tableCmd 4)) (commandRead (2 ^ 63) (tableCmd 4)) 2 (crackerCommand (tableCmd 4)) ∧
    (crackerCommand (tableCmd 4)).kind = 4 ∧ gotOk (flatBody 2 (crackerCommand (tableCmd 4)) (commandRead (2 ^ 63) (tableCmd 4))) = true :=
  ⟨headCommand_of (by decide +kernel) (by decide +kernel) (by decide +kernel) (by decide +kernel) (by decide +kernel) (by decide +kernel) (by decide +kernel)
    (by decide +kernel), by decide +kernel, by decide +kernel⟩

/-- An index that no row has. -/
theorem witness_index_beyond :
    let s := withTable 99
    let f := fun (k : Nat) => crackerCommand (tableCmd k)
    (gatherBody 2 (f 1) (s (tableCmd 1))).1 = .fault 0x04090704 ∧ (gradBody 2 (f 3) (s (tableCmd 3))).1 = .fault 0x04090704 ∧
      (readIndices 2 (f 1) (s (tableCmd 1))).1 = .ok [99] ∧ isPad (f 1) 99 = false ∧ ownsRow (tableRegion (s (tableCmd 1)) 0) 99 = true ∧
      (tableRegion (s (tableCmd 1)) 0).rows ≤ localRow (tableRegion (s (tableCmd 1)) 0) 99 := by decide +kernel

theorem witness_scatter_beyond :
    let s := withTable 99 (tableCmd 2)
    let f := crackerCommand (tableCmd 2)
    (scatterBody 2 f s).1 = .fault 0x04090704 ∧ (readIndices 2 f s).1 = .ok [99] ∧ isPad f 99 = false ∧ (tableRegion s 0).rows ≤ 99 := by
  decide +kernel

/-- Row 3 is delivered. -/
theorem witness_rows :
    let s := withTable 3 (tableCmd 1)
    let f := crackerCommand (tableCmd 1)
    let r := tableRegion s f.region
    let s1 := rowsAhead 2 f r [3] (readIndices 2 f s).2
    r.shards = 1 ∧ (readIndices 2 f s).1 = .ok [3] ∧ isPad f 3 = false ∧ ownsRow r 3 = true ∧ localRow r 3 < r.rows ∧
      readRow 2 r (localRow r 3) s1 = (.ok ⟨(bytesOfNat 8 0x1122334455667788).map (fun b => (b, false)), false, false⟩, s1) ∧
      gotOk (deliverRows 2 f [(0, (bytesOfNat 8 0x1122334455667788).map (fun b => (b, false)))] s1) = true := by decide +kernel

/-- Two occurrences of row 5 merge into their sum. -/
theorem test_merged_row : mergedRow 1 5 [(5, [0x3F800000], false), (6, [0x3F800000], true), (5, [0x40000000], false)] = ([0x40400000], false) := by
  decide +kernel
/-- Group 0 of two modules: this one, at position 0, its root, and the one at position 1. -/
def pair : CommGroup := ⟨0, 0, [⟨0x7000, 0⟩, ⟨0x7001, 0⟩]⟩

def twoModules (s : State) : State := s.onFabric (fun f => { f with groups := [pair] })

/-- A packet of step 1 from the module at position 1. -/
def from1 (ptype : Nat) : Packet := { blankPacket ptype 0x7000 with src := 0x7001, step := 1, srcSlot := 1 }

/-- The state after a packet is taken. -/
def takenAt (s : State) (ptype : Nat) (p : Packet) : State := (takePacket s ptype p).getD s

theorem taken {s : State} {ptype : Nat} {p : Packet} (h : (takePacket s ptype p).isSome = true) : takePacket s ptype p = some (takenAt s ptype p) := by
  cases e : takePacket s ptype p <;> simp_all [takenAt]

theorem witness_tracker :
    let s := onChannel up 3 (fun x => { x with batches := [(0, [5, 6])] })
    let t := onChannel up 3 (fun x => { x with inflight := [5], ran := true })
    huskStopped s = false ∧ huskStopped t = false ∧ nextBatch s 3 = some (0, [5, 6]) ∧ (channelOf t 3).inflight.contains 5 = true ∧ (channelOf t 3).ran = true ∧ (channelOf t 3).batches = [] ∧
      (channelOf (onChannel up 3 (fun x => { x with ran := true })) 3).inflight = [] ∧ (channelOf t 3).remote = [] := by decide +kernel

/-- Binding 0 of sweep group 4,096 with one inbound row, whose exchange is complete. -/
def withInbound : State :=
  let s := conf withSweep 0x380101 0 (bytesOfNat 32 (0x100000 + 8 * 2 ^ 64 + 16 * 2 ^ 96 + 2 ^ 128 + 2 ^ 131 + 2 ^ 152))
  onBinding (poke s 0x80000 (bytesOfNat 96 (3 + 2 ^ 64))) 0 (fun w => { w with inbound := 1, exchanged := true })

theorem witness_merge :
    (bindingOf withInbound 0).exchanged = true ∧ (bindingOf withInbound 0).merged = false ∧ huskStopped withInbound = false ∧
      (partialRowsOf withInbound 0).1 = [] ∧ (inboundParts (partialRowsOf withInbound 0).2 0).1.map (fun x => (x.row, x.poison)) = [(3, false)] ∧
      (groupNow withInbound (bindingNow withInbound 0).group).stageRows = 1 := by decide +kernel

/-- Binding 0 merged, with row 3 listed, in its sweep; `f` changes its work. -/
def feeding (f : BindingWork → BindingWork) : State :=
  (onBinding (poke withSweep 0x90000 (bytesOfNat 4 3)) 0 (fun w => f { w with merged := true, mergedRows := 1 })).onTrain
    (fun t => { t with sweepBegun := true })

/-- The lines of row 3 are in the cache. -/
def cached (s : State) : State :=
  (rowLines (groupNow s 4096) 3).foldl (fun t l => t.onCache (fun c => { c with
    sets := tabSet [] c.sets (servingSet t (homeSet l)) (⟨l, 0, 255, 0⟩ :: tabGet [] c.sets (servingSet t (homeSet l))) })) s

theorem witness_feed :
    let s := feeding id
    (((List.range (bindingOf s 0).mergedRows).map (listedRow s (bindingNow s 0))).find? (fun x =>
      !rowFed s 0 (bindingNow s 0).group x && (rowPresent s (groupNow s (bindingNow s 0).group) x ||
        decide (stagedAside s < 16384))) = some 3) ∧
    rowPresent s (groupNow s (bindingNow s 0).group) 3 = false ∧ s.train.sweepBegun = true ∧ (bindingOf s 0).merged = true ∧ huskStopped s = false := by decide +kernel

theorem witness_feed_present :
    let s := cached (feeding id)
    (((List.range (bindingOf s 0).mergedRows).map (listedRow s (bindingNow s 0))).find? (fun x =>
      !rowFed s 0 (bindingNow s 0).group x && (rowPresent s (groupNow s (bindingNow s 0).group) x ||
        decide (stagedAside s < 16384))) = some 3) ∧
    rowPresent s (groupNow s (bindingNow s 0).group) 3 = true ∧ s.train.sweepBegun = true ∧ (bindingOf s 0).merged = true ∧ huskStopped s = false := by decide +kernel

theorem witness_staged :
    let s := feeding (fun w => { w with staging := [3] })
    (bindingOf s 0).staging.contains 3 = true ∧ (rowLines (groupNow s (bindingNow s 0).group) 3).all (fun l =>
      s.cache.fills.all (fun f => f.line != l) && s.cache.waiting.all (fun x => x.2.1 != l) && s.cache.blocked.all (fun x => x.line != l)) = true ∧
      huskStopped s = false := by decide +kernel

/-- A request for row 3 of region 0 at a step, whole. -/
def askRow (step : Nat) : Packet := { from1 8 with payload := requestBytes step 1 0 7 [3] }

theorem witness_requests :
    let s := twoModules withInbound
    huskStopped s = false ∧ slotFull s (askRow 1) = false ∧ slotFull s (askRow 2) = false ∧ (takePacket s 8 (askRow 1)).isSome = true ∧
      (takePacket s 8 (askRow 2)).isSome = true ∧ requestWhole (askRow 2) = true ∧ (askRow 1).elemOffset = 0 ∧ requestWhole (askRow 1) = true ∧
      (tableRequestOf (askRow 1).payload).step ≤ currentStep (takenAt s 8 (askRow 1)) ∧
      currentStep (takenAt s 8 (askRow 2)) < (tableRequestOf (askRow 2).payload).step ∧
      requestStatus s (askRow 1) ⟨1, 1, 9, 7, [3]⟩ = 1 ∧ (tableRegion s 9).valid = false := by decide +kernel

/-- Channel 2 waits for row 3 of request 7. -/
def waitingRows : State :=
  onChannel (twoModules (poke up 0x200080 (bytesOfNat 8 0))) 2 (fun x => { x with ran := true, remote := [⟨7, 2, 1, [(0x200080, 3)], 8⟩] })

def answerRow (status : Nat) : Packet := { from1 9 with payload := bytesOfNat 64 (1 + 7 * 2 ^ 64 + status * 2 ^ 96) ++ bytesOfNat 8 5 }

theorem witness_responses :
    let s1 := takenAt waitingRows 9 (answerRow 0)
    let x : RemoteRows := ⟨7, 2, 1, [(0x200080, 3)], 8⟩
    huskStopped waitingRows = false ∧ (takePacket waitingRows 9 (answerRow 3)).isSome = true ∧
      bitsAt (natOfBytes ((answerRow 3).payload.take 64)) 96 4 = 3 ∧ (takePacket waitingRows 9 (answerRow 0)).isSome = true ∧ (takePacket waitingRows 9 (answerRow 2)).isSome = true ∧
      (s1.cracker.channels.find? (fun e => e.2.remote.any (fun y => y.seq == bitsAt (natOfBytes ((answerRow 0).payload.take 64)) 64 32))).map
        (fun e => e.1) = some 2 ∧
      (channelOf s1 2).remote.find? (fun y => y.seq == bitsAt (natOfBytes ((answerRow 0).payload.take 64)) 64 32) = some x ∧
      bitsAt (natOfBytes ((answerRow 0).payload.take 64)) 96 4 = 0 ∧ bitsAt (natOfBytes ((answerRow 2).payload.take 64)) 96 4 = 2 ∧
      gotOk (deliverRemote 2 x 0 (((answerRow 0).payload.drop 64).map (fun b => (b, false))) s1) = true ∧
      x.rows.length * x.rowBytes ≤ ((answerRow 0).payload.drop 64).length := by decide +kernel

/-- The 64 requests that a member slot may have held (R190). -/
theorem witness_slot_full :
    slotFull (withInbound.onCracker (fun k => { k with heldRequests := List.replicate 64 (askRow 2) })) (askRow 2) = true := by decide +kernel

/-- A channel that halts after the cut, with its one row outstanding at the last byte of the row. -/
theorem witness_halt_forgets :
    let s := waitingRows.onTrain (fun t => { t with cut := true })
    (channelOf s 2).remote = [⟨7, 2, 1, [(0x200080, 3)], 8⟩] ∧ accessDetail s (.cracker 2) true 0x200080 8 = none ∧ s.train.cut = true ∧
      0x200080 ≤ 0x200087 ∧ 0x200087 < 0x200080 + 8 := by decide +kernel
/-! ## The peer fabric -/

/-- The module of two with peer port 0 off and its positions' groups in force. -/
def two : State := twoModules up

theorem witness_refused_packets :
    (from1 1).wf = true ∧ (from1 2).ptype ≠ 1 ∧ (from1 1).src ≠ ownNode two ∧ nodeAttach (from1 1).src = 7 ∧
      (packetRows.all (fun row => !unsequenced row.1 || decide (row.1 = 5 ∨ row.1 = 6))) = true ∧
      ({ from1 1 with streamSeq := 9 } : Packet).streamSeq.toNat ≠ (rxOf two (streamKeyOf { from1 1 with streamSeq := 9 })).expect ∧
      ({ from1 1 with dst := 0x7001 } : Packet).dst ≠ ownNode two ∧
      (from1 1).epoch < (two.onFabric (fun f => { f with epoch := 1 })).fabric.epoch ∧
      ([{ from1 1 with streamSeq := 9 }, { from1 2 with streamSeq := 9 }, { from1 1 with dst := 0x7001 }].all (fun (p : Packet) =>
        !packetEarly two p && !holdFull two p && !slotFull two p)) = true ∧
      packetEarly (two.onFabric (fun f => { f with epoch := 1 })) (from1 1) = false ∧
      huskStopped two = false := by decide +kernel

theorem witness_accepted_packet :
    (from1 1).dst = ownNode two ∧ (from1 1).src ≠ ownNode two ∧ nodeAttach (from1 1).src = 7 ∧ unsequenced 1 = false ∧
      (from1 1).epoch = two.fabric.epoch ∧ (from1 1).streamSeq.toNat = (rxOf two (streamKeyOf (from1 1))).expect := by decide +kernel

/-- A free-standing collective of a kind in group 0, with what `f` changes. -/
def free0 : CollKey := ⟨0, noGroup, 1⟩
def withColl (kind : Nat) (f : Coll → Coll) : State := onColl two free0 1 (fun c => f { c with kind := kind })

theorem witness_own_part :
    ([1, 2, 3, 4, 5, 6].all (fun kind =>
      let s := withColl kind (fun c => { c with readySent := true, decisions := [0, 0] })
      let c := collAt s free0 (openStep s free0)
      decide (c.kind = kind ∧ c.readySent = true ∧ c.decisions ≠ [] ∧ c.ran = false))) = true ∧
    (let s := withColl 3 id
     (collAt s free0 (openStep s free0)).kind = 3 ∧ (collAt s free0 (openStep s free0)).readySent = false) := by decide +kernel

theorem witness_chunks : (0 : Nat) < 3 ∧ (2 : Nat) < 3 ∧ packetRuns 4 3 13 = [(3, 4), (7, 4), (11, 2)] := by decide +kernel

/-- Chunk i of 10 elements in 4 chunks is elements floor(i × 10 / 4) to floor((i + 1) × 10 / 4) − 1. -/
theorem test_chunks : (List.range 5).map (chunkStart 10 4) = [0, 2, 5, 7, 10] := by decide +kernel

/-- A packet of the free-standing collective. -/
def ofColl (ptype : Nat) : Packet := { from1 ptype with group := noGroup, collId := 1 }

theorem witness_collective_packets :
    let s := fun (kind : Nat) => withColl kind (fun c => { c with readySent := true, decisions := [0, 0] })
    let ok := fun (kind ptype : Nat) => (takePacket (s kind) ptype (ofColl ptype)).isSome &&
      !stalePacket (takenAt (s kind) ptype (ofColl ptype)) (ofColl ptype) && !packetEarly (s kind) (ofColl ptype) &&
      !holdFull (s kind) (ofColl ptype) && !huskStopped (s kind)
    ok 1 1 = true ∧ ok 2 1 = true ∧ ok 3 1 = true ∧ ok 3 2 = true ∧ ok 3 3 = true ∧
      (collAt (takenAt (s 1) 1 (ofColl 1)) free0 1).kind = 1 ∧ (collAt (takenAt (s 3) 1 (ofColl 1)) free0 1).kind = 3 ∧
      fmtBytes (collAt (takenAt (s 3) 1 (ofColl 1)) free0 1).fmt ≠ 0 ∧ isRoot (takenAt (s 3) 2 (ofColl 2)) free0 = true := by decide +kernel

theorem witness_result_inbound :
    let t := takenAt two 4 (from1 4)
    let v := onColl (twoModules withSweep) ⟨0, 4096, 0⟩ 1 (fun c => { c with kind := 6, decisions := [0, 0] })
    let u := takenAt v 7 { from1 7 with group := 4096 }
    (takePacket two 4 (from1 4)).isSome = true ∧ (from1 4).step = currentStep t ∧ t.train.reducedSummary = none ∧
      (takePacket v 7 { from1 7 with group := 4096 }).isSome = true ∧ stalePacket u { from1 7 with group := 4096 } = false ∧
      packetEarly v { from1 7 with group := 4096 } = false ∧ huskStopped v = false ∧
      bindingOfGroup u 4096 = some 0 := by decide +kernel

theorem witness_stale : ([1, 3, 7].all (fun t => let p := { from1 t with step := 0 }
    (takePacket two t p).isSome && stalePacket (takenAt two t p) p && !packetEarly two p && !holdFull two p)) = true := by decide +kernel

/-- A stream of this module with two packets unacknowledged, and one of which a packet is. -/
def sending : State := two.onFabric (fun f => { f with
  tx := [⟨⟨0x7000, 0x7001, 1, 0⟩, 2, [{ blankPacket 1 0x7001 with src := 0x7000 }, { blankPacket 1 0x7001 with src := 0x7000, streamSeq := 1 }]⟩]
  rx := [⟨⟨0x7001, 0x7000, 1, 0⟩, 1, 1⟩] })

theorem witness_streams :
    let p : Packet := { from1 5 with arg := BitVec.ofNat _ (2 ^ 32) }
    let t := takenAt sending 5 p
    (takePacket sending 5 p).isSome = true ∧
      (txOf t ⟨ownNode t, p.src, p.arg.toNat / 2 ^ 32 % 4, p.comm⟩).unacked.findIdx? (fun q => decide (q.streamSeq.toNat = p.arg.toNat % 2 ^ 32)) = some 0 ∧
      (rxOf sending ⟨0x7001, 0x7000, 1, 0⟩).unackedCount ≠ 0 ∧ (txOf sending ⟨0x7000, 0x7001, 1, 0⟩).unacked ≠ [] ∧
      (takePacket sending 6 (from1 6)).isSome = true := by decide +kernel

theorem witness_deadline :
    let s := withColl 3 (fun c => { c with timer := true })
    let d := withColl 3 (fun c => { c with readySent := true, decisions := [0, 0], ran := true, received := neededElems two c })
    (collAt s free0 (openStep s free0)).timer = true ∧ (collAt s free0 (openStep s free0)).goSent = false ∧ isRoot s free0 = true ∧
      s.fabric.delivered = [] ∧ free0.group = noGroup ∧ (collAt d free0 (openStep d free0)).done = false ∧
      collFinished d (collAt d free0 (openStep d free0)) = true := by decide +kernel

theorem witness_group_done :
    let k : CollKey := ⟨0, 1, 0⟩
    let s := onColl (conf (twoModules withDense) 0x481001 0 [2, 0]) k 1 (fun c => { c with readySent := true, decisions := [0, 0], ran := true, received := neededElems withDense c })
    k.group < 4096 ∧ carrierNow s ≠ some k.group ∧ (collAt s k (openStep s k)).done = false ∧ collFinished s (collAt s k (openStep s k)) = true := by decide +kernel

/-- The exchange of sweep group 4,096, whose rows have all come. -/
theorem witness_sweep_done :
    let k : CollKey := ⟨0, 4096, 0⟩
    let s := onColl (twoModules withSweep) k 1 (fun c => { c with kind := 6, readySent := true, decisions := [1, 1], ran := true })
    collFinished s (collAt s k (openStep s k)) = true ∧ 4096 ≤ k.group ∧ k.group ≠ noGroup ∧ (collAt s k (openStep s k)).done = false ∧ carrierNow s ≠ some k.group ∧
      bindingOfGroup s k.group = some 0 := by decide +kernel

/-- Peer port 1 in a state and a mode. -/
def port1 (mode : Nat) (f : Port → Port) : State := onPort (conf up 0x500001 1 [BitVec.ofNat 8 mode]) 1 f

theorem witness_training :
    let s := port1 1 (fun p => { p with state := 1 })
    let ok := fun (good : NatSet) => (List.range 9).filter (fun n => good.contains n)
    (portOf s 1).state = 1 ∧ 8 ≤ s.boot.phase ∧ cfgElem s 0x500001 1 = 1 ∧ modeVersion 1 = 3 ∧ (2 : Nat) ≠ modeVersion 1 ∧
      (ok [0, 1, 2]).length < 4 ∧ 8 ≤ (ok [0, 1, 2, 3, 4, 5, 6, 8]).length ∧ 4 ≤ (ok [0, 1, 2, 3]).length ∧ (ok [0, 1, 2, 3]).length < 8 ∧
      s.fabric.reroute = [] ∧ (portOf s 1).outbox = [] := by decide +kernel

theorem witness_lanes :
    let s := port1 1 (fun p => { p with state := 2 })
    let t := port1 1 (fun p => { p with state := 1 })
    (portOf s 1).state = 2 ∧ cfgElem s 0x500001 1 = 1 ∧ (portOf s 1).spareUsed = false ∧ (portOf s 1).badLanes = [] ∧
      (portOf t 1).state = 1 ∧ (portOf t 1).badLanes.contains 7 = false ∧
      (portOf (port1 1 (fun p => { p with state := 2, replay := [⟨0, [], none⟩] })) 1).replay ≠ [] ∧
      2 ≤ (portOf (port1 2 (fun p => { p with state := 2 })) 1).state ∧ cfgElem (port1 2 (fun p => { p with state := 2 })) 0x500001 1 ≠ 1 ∧
      (portOf s 1).outbox = [] ∧ (portOf s 1).replay.length < 1280 ∧
      0 < tabGet 0 (portOf (port1 1 (fun p => { p with state := 2, credits := [(0, 8)] })) 1).credits 0 := by decide +kernel

/-- A link header, and its flit of zeros, whose CRC is 0x5BC29F58. -/
def head0 : LinkHeader := ⟨0, true, false, 2, 0, 0xFFF, false, false, 0, 0, 3⟩
def flit0 : List Byte :=
  bytesOfNat 8 head0.nat ++ List.replicate 243 0 ++ [checkByte (BitVec.ofNat 64 head0.nat) false, 0x58, 0x9F, 0xC2, 0x5B]

/-- The CRC of bytes from a value of its register. -/
def crcFrom (c : BitVec 32) (l : List Byte) : BitVec 32 := l.foldl (fun c b => crcBits 8 (c ^^^ b.zeroExtend 32)) c

theorem crc_parts (x y z w : BitVec 32) (l m n k : List Byte) (h1 : crcFrom 0xFFFFFFFF l = x) (h2 : crcFrom x m = y)
    (h3 : crcFrom y n = z) (h4 : crcFrom z k = w) : crc32 (l ++ m ++ n ++ k) = ~~~ w := by
  subst h1 h2 h3 h4
  simp [crc32, crcFrom, List.foldl_append]

theorem flit0_crc : crc32 (flit0.take 252) = ~~~ 2755485863#32 := by
  have e : flit0.take 252 = flit0.take 63 ++ (flit0.drop 63).take 63 ++ (flit0.drop 126).take 63 ++ (flit0.drop 189).take 63 := by decide +kernel
  rw [e]
  exact crc_parts 3663817868#32 1768545958#32 1878631426#32 _ _ _ _ _ (by decide +kernel) (by decide +kernel) (by decide +kernel)
    (by decide +kernel)

theorem witness_flit_good : flitGood flit0 = true := by
  rw [flitGood, flit0_crc]
  decide +kernel

theorem witness_flits :
    let s := port1 1 (fun p => { p with state := 2 })
    let s5 := port1 1 (fun p => { p with state := 2, rxLast := 4 })
    let h := linkHeaderOf (natOfBytes (flit0.take 8))
    flitGood [1] = false ∧ 2 ≤ (portOf s 1).state ∧ h.valid = true ∧ h.probe = false ∧ h.seq = ((portOf s 1).rxLast + 1) % 4096 ∧
      h.seq ≠ ((portOf s5 1).rxLast + 1) % 4096 ∧
      (portOf (port1 1 (fun p => { p with discarding := true })) 1).discarding = true := by decide +kernel
/-! ## The training step -/

/-- Dense group 1 reduced, its live planes zero, group 2 the carrier; `l` the gradient's bytes. -/
def reducedDense (l : List Byte) : State :=
  onWork (poke (poke (conf withDense 0x481001 0 [2, 0]) 0x10000 (List.replicate 384 0)) 0x30000 l) 1 (fun w => { w with final := true, reduced := true })

theorem witness_dense :
    let s := reducedDense (List.replicate 128 0)
    (groupNow s 1).valid = true ∧ (workOf s 1).reduced = true ∧ (workOf s 1).checked = false ∧ carrierNow s = some 2 ∧ s.train.cut = false ∧
      feedsFlag (workOf (makeCheck s (groupNow s 1)) 1) = false ∧ awaitsLine s (groupNow s 1) = false ∧
      (denseReads (makeCheck s (groupNow s 1)) (groupNow s 1)).1.held = false := by decide +kernel

/-- A held line of the live slot makes the update wait. -/
theorem witness_dense_waits :
    let s := (reducedDense (List.replicate 128 0)).onProt (fun p => { p with heldLines := [(liveSlot up (groupNow withDense 1) / 64, 8)] })
    (groupNow s 1).valid = true ∧ (workOf s 1).reduced = true ∧ (workOf s 1).checked = false ∧ carrierNow s = some 2 ∧ s.train.cut = false ∧
      feedsFlag (workOf (makeCheck s (groupNow s 1)) 1) = false ∧ awaitsLine s (groupNow s 1) = true := by decide +kernel

theorem witness_dense_nonfinite :
    let s := reducedDense (bytesOfNat 128 0x7FC00000)
    (workOf s 1).reduced = true ∧ feedsFlag (workOf (makeCheck s (groupNow s 1)) 1) = true := by decide +kernel

theorem witness_cut :
    let s := onWork (conf up 0x481001 0 [2, 0]) 2 (fun w => { w with final := true })
    carrierNow s = some 2 ∧ s.train.cut = false ∧ s.train.withheld = false ∧ s.resil.state = 0 ∧ s.resil.memoryLost = false ∧ s.resil.twinState ≠ 2 ∧
      cutGateOpen s = true ∧ cutReady s 2 = true := by decide +kernel

/-- Summaries: a clean one, and one with a non-finite value and another digest. -/
def clean0 : Summary := ⟨false, false, false, false, 0, 7⟩
def bad0 : Summary := ⟨true, false, false, false, 0, 8⟩

/-- The flags are joined, and the digests that differ do not agree. -/
theorem test_reduced_summary : (reduceSummaries clean0 false [clean0, bad0] []).nonfinite = true ∧ (reduceSummaries clean0 false [clean0, bad0] []).agree = false := by
  decide +kernel

theorem witness_result_send :
    let k : CollKey := ⟨0, 2, 0⟩
    let group : CommGroup := ⟨0, 0, [⟨0x7000, 2⟩, ⟨0x7001, 2⟩]⟩
    let s0 := (conf up 0x481001 0 [2, 0]).onFabric (fun f => { f with groups := [group] })
    let s1 := s0.onTrain (fun t => { t with cut := true, ownSummary := some clean0 })
    let s := onColl s1 k 1 (fun c => { c with decisions := [0, 0], summaries := [(0, clean0), (1, bad0)] })
    (carrierColl s).isSome = true ∧ isRoot s k = true ∧ s.train.cut = true ∧ s.train.ownSummary = some clean0 ∧
      ((carrierColl s).map (fun c => c.decisions)) = some [0, 0] ∧ rootHolds s 0 (currentStep s) = false ∧ olderSlots (collGroup s k).1 = [] ∧
      s.resil.resultSentFor ≠ some (currentStep s) ∧ heneloSlots (collGroup s k).1 = [0, 1] ∧
      summariesOf [(0, clean0), (1, bad0)] [0, 1] = some [clean0, bad0] ∧ summariesOf s.fabric.carrierDeferred [] = some [] := by decide +kernel

/-- Sweep group 4,096 with row 3 read, its state and gradient zero, and an epsilon. -/
def sweeping (eps : Nat) : State :=
  let s := conf withSweep 0x481202 88 (bytesOfNat 8 eps)
  let s1 := (List.range 6).foldl (fun t p => poke t (0x40000 + 64 * p + 48) (bytesOfNat 16 0)) s
  (onBinding (poke (poke s1 0x60000 (bytesOfNat 32 0)) 0x90000 (bytesOfNat 8 3)) 0 (fun w => { w with merged := true, mergedRows := 1, ready := [3] })).onTrain
    (fun t => { t with sweepBegun := true })

/-- What SWEEP_ROW reads and computes for row 3: whether a word is held or uncorrectable, and whether a result is not finite. -/
def sweptRow3 (s : State) : Bool × Bool × Bool :=
  let r := rowReads (writeCoefficients s) (groupNow s 4096) 0 3
  (r.1.held, r.1.error, (updateResults (ownContext r.2) r.1 (groupNow s 4096).rowLen).any (fun y => y.bad))

theorem witness_sweep_row :
    let s := sweeping 0x3FF0000000000000
    bindingOfGroup s 4096 = some 0 ∧ s.train.sweepBegun = true ∧ (bindingOf s 0).ready.contains 3 = true ∧
      ((((List.range (bindingOf s 0).mergedRows).map (listedRow s (bindingNow s 0))).findIdx? (fun x => x == 3)).getD 0) = 0 ∧
      sweepHeld s = false ∧ awaitsRow s (groupNow s 4096) 3 = false ∧ sweptRow3 s = (false, false, false) := by decide +kernel

theorem witness_sweep_held : sweepHeld (sweeping 0) = false ∧ sweptRow3 (sweeping 0) = (false, false, true) ∧ awaitsRow (sweeping 0) (groupNow (sweeping 0) 4096) 3 = false ∧ (bindingOf (sweeping 0) 0).ready.contains 3 = true := by decide +kernel

theorem witness_sweep_ack :
    let x := fun (m w : Bool) => (⟨4096, 3, 0, 0, 2, m, w, false⟩ : SweptRow)
    let s := fun (m : Bool) => up.onTrain (fun t => { t with sweep := [x m false] })
    sweepHeld (s false) = false ∧ sweepHeld (s true) = false ∧ (s false).train.sweep.find? (fun y => decide (y.group = 4096 ∧ y.row = 3)) = some (x false false) ∧
      (s true).train.sweep.find? (fun y => decide (y.group = 4096 ∧ y.row = 3)) = some (x true false) := by decide +kernel

theorem witness_resume :
    let s := fun (state step : Nat) => (poke withSweep 0x50000 (stageHeader step state 4096 8 3)).onTrain (fun t => { t with sweepBegun := true })
    let g := groupNow (s 2 1) 4096
    g.stageRows = 1 ∧ stageState (s 2 1) g 0 = (2, currentStep (s 2 1), 3) ∧ stageState (s 1 1) g 0 = (1, 1, 3) ∧
      (s 2 1).train.sweepBegun = true ∧ sweepHeld (s 2 1) = false := by decide +kernel
/-! ## The dictionary -/

/-- Session 7 in a role; a module in which it is open; a message of it for an object. -/
def session7 (role : Nat) : Session := ⟨7, 0, role, false, [], [], [], [], 0⟩
def openFor (role : Nat) (s : State) : State := s.onDict (fun d => { d with sessions := [session7 role] })
def message (key : Nat) (l : List Byte) : Request :=
  ⟨1, 5, 7, 0xFFFFFF, key / 256, key % 256, BitVec.ofNat 8 (((objFind key).map (fun o => o.typ)).getD 0), 0, l.length, 0, 0, false, false, false, l⟩

/-- `askedBy` and `writes` as tests. -/
def asksB (s : State) (op : Nat) (r : Request) (x : Session) : Bool :=
  s.power.convertersOn && !discarded op r && !forAnother s r && decide (r.version = 1 ∧ sessionOf s r.session = some x ∧ x.pending = false ∧ x.replies = [] ∧
    requestRefusal (inUse s x) op r = none)

def writesB (s : State) (r : Request) (x : Session) : Bool :=
  asksB s 2 r x && decide (r.batch = 0) && (match checkWrite (inUse s x) x r false false with | .ok _ => true | _ => false)

theorem askedBy_of {s : State} {op : Nat} {r : Request} {x : Session} (h : asksB s op r x = true) : askedBy s op r x := by
  simp only [asksB, Bool.and_eq_true, Bool.not_eq_true', decide_eq_true_eq] at h
  obtain ⟨⟨⟨h1, h2⟩, h3⟩, h4, h5, h6, h7, h8⟩ := h
  exact ⟨h1, h2, h3, h4, h5, h6, by rw [h7]; rfl, Or.inl h7, h8⟩

theorem writes_of {s : State} {r : Request} {x : Session} (h : writesB s r x = true) : ∃ o, writes s r x o := by
  simp only [writesB, Bool.and_eq_true, decide_eq_true_eq] at h
  obtain ⟨⟨h1, h2⟩, h3⟩ := h
  cases e : checkWrite (inUse s x) x r false false with
  | ok o => exact ⟨o, askedBy_of h1, h2, e⟩
  | error c => rw [e] at h3; exact absurd h3 (by simp)
theorem witness_switches : ∀ k ∈ ([0x200203, 0x200303, 0x200404, 0x280005, 0x300406, 0x300508, 0x380309, 0x400401, 0x500508, 0x58120C, 0x600009,
    0x680001, 0x180005] : List Nat), ∀ b ∈ ([0, 1] : List Byte), ∃ o, writes (openFor 2 up) (message k [b]) (session7 2) o :=
  fun k hk b hb => writes_of ((by decide +kernel : ∀ k ∈ ([0x200203, 0x200303, 0x200404, 0x280005, 0x300406, 0x300508, 0x380309, 0x400401, 0x500508,
    0x58120C, 0x600009, 0x680001, 0x180005] : List Nat), ∀ b ∈ ([0, 1] : List Byte), writesB (openFor 2 up) (message k [b]) (session7 2) = true) k hk b hb)

/-- The objects of the value rows, with a value's length. -/
def valueKeys : List (Nat × Nat) :=
  [(0x110105, 8), (0x180202, 3), (0x481102, 8), (0x481305, 2), (0x500203, 64), (0x580007, 1), (0x580203, 2), (0x581002, 2), (0x180203, 1),
   (0x600201, 64), (0x600204, 8), (0x600205, 4), (0x700201, 32), (0x701002, 32), (0x180201, 1), (0x500001, 1), (0x580001, 1), (0x600001, 4)]

theorem witness_values : ∀ e ∈ valueKeys, ∃ o, writes (openFor 2 up) (message e.1 (bytesOfNat e.2 1)) (session7 2) o :=
  fun e he => writes_of ((by decide +kernel : ∀ e ∈ valueKeys, writesB (openFor 2 up) (message e.1 (bytesOfNat e.2 1)) (session7 2) = true) e he)

theorem witness_actions :
    let s := conf up 0x581001 0 (bytesOfNat 32 (0x10000 + 5 * 2 ^ 128 + 9 * 2 ^ 160))
    (queueOf s 0).state = 0 ∧ (queueRecord s 0).zero = false ∧ (queueOf (onQueue s 0 (fun q => { q with state := 1 })) 0).state ≠ 0 ∧
      (connOf (onConn s 0 (fun c => { c with state := 1 })) 0).state ≠ 0 ∧ s.boot.testState = 0 ∧
      marginMalformed (4 * 2 ^ 4 + 2 ^ 64 + 2 ^ 96) = false ∧ s.boot.marginState ≠ 1 ∧ 5 ≠ currentStep s ∧ s.resil.state ≠ 5 ∧
      s.boot.uploadTarget = 0 ∧
      targetCopy (s.onBoot (fun b => { b with uploadTarget := 2 })) = some 2 ∧
      (copyOf (s.onFlash (fun f => { f with copies := List.replicate 4 ⟨3, []⟩ })) 2).state = 3 ∧
      (let t := s.onFlash (fun f => { f with sigA := (1, 1000) })
       t.boot.attestState ≠ 1 ∧ t.boot.sigIndex < sigReserved t ∧ sigReserved t < 2 ^ 40) := by decide +kernel

theorem witness_test_again :
    let s := (openFor 2 up).onBoot (fun b => { b with testState := 2, phase := 10 })
    ∃ o, writes s (message 0x701002 (bytesOfNat 32 1)) (session7 2) o ∧ s.boot.testState = 2 :=
  let ⟨o, h⟩ := writes_of (by decide +kernel)
  ⟨o, h, by decide +kernel⟩

/-- A write of RW object member_timeout, of RWS object growth_interval, and the REVERT of the latter. -/
theorem witness_settings :
    let s := openFor 2 up
    let rw := message 0x600008 (bytesOfNat 4 100)
    let rws := message 0x480103 (bytesOfNat 4 5)
    writesB s rw (session7 2) = true ∧ (objFind 0x600008).map (fun o => o.access) = some 2 ∧ typedRw 0x600008 = false ∧
      rwCheck (counted (inUse s (session7 2))) (storeWrite s.dict.values 0x600008 0 rw.data) 0x600008 (coveredEntries 0x600008 0 4) = none ∧
      writesB s rws (session7 2) = true ∧ (objFind 0x480103).map (fun o => o.access) = some 3 ∧
      stagedStep (inUse s (session7 2)) 0 = .ok 2 ∧ asksB s 3 { rws with data := [], length := 0 } (session7 2) = true ∧
      (match checkWrite (inUse s (session7 2)) (session7 2) { rws with data := [], length := 0 } true false with | .ok o => o.access | _ => 0) = 3 := by
  decide +kernel

theorem witness_resets :
    let s := openFor 2 up
    writesB s (message 0x181003 [1]) (session7 2) = true ∧ writesB s (message 0x701001 [0]) (session7 2) = true ∧
      writesB s (message 0x701001 [1]) (session7 2) = true ∧ s.fabric.groups = [] ∧ queueInUse s = false ∧
      (twoModules s).fabric.groups ≠ [] := by decide +kernel

/-- A READ of an object; DESCRIBE and ENUMERATE have no data. -/
def readOf (session : BitVec 64) (key len : Nat) : Request := { message key [] with session := session, length := len }

theorem witness_reads :
    let s := openFor 2 up
    asksB s 1 (readOf 7 0x281001 8) (session7 2) = true ∧ asksB s 6 (readOf 7 0x281001 0) (session7 2) = true ∧
      asksB s 7 (readOf 7 0x281001 0) (session7 2) = true ∧ (objFind 0x281001).map (fun o => (decide (o.access = 4), o.typ)) =
        some (false, (readOf 7 0x281001 8).typ.toNat) ∧
      ((objFind 0x281001).map (fun o => (viewOf s o).length)) = some 8 ∧ objFind 0x999999 = none ∧
      (objFind 0x280005).map (fun o => o.access) = some 4 := by decide +kernel

theorem witness_open_reads : askedOpenly up 1 (readOf 0 0x281001 8) :=
  ⟨by decide +kernel, by decide +kernel, by decide +kernel, by decide +kernel, by decide +kernel, by decide +kernel⟩

/-- A module with batch 3 of session 7 open, with given parts. -/
def withBatch (l : List Part) : State := (openFor 2 up).onDict (fun d => { d with batches := [⟨7, 3, 0, l⟩] })
def sealOf : Request := { message 0 [] with batch := 3 }

theorem witness_batches :
    let good : Part := ⟨0x600008, false, 0, bytesOfNat 4 100, 0, 0⟩
    let bad : Part := { good with code := 0x01100D04 }
    let busy : Part := ⟨0x580201, false, 0, bytesOfNat 64 3, 0, 0⟩
    let ok := fun (l : List Part) => asksB (withBatch l) 4 sealOf (session7 2) && asksB (withBatch l) 5 sealOf (session7 2)
    ok [good] = true ∧ (openBatch (inUse (withBatch [good]) (session7 2)) 7 3).isSome = true ∧ failingPart [] [bad] = some 0x01100D04 ∧
      failingPart [] [good] = none ∧
      (match batchWrites (withBatch []) [good] with
        | .ok l => (match acceptWrites Findings.nothing (withBatch []) 0 l with | .ok _ => true | _ => false) && decide (resetAsked l = none)
        | _ => false) = true ∧
      (match batchWrites (withBatch []) [busy] with
        | .ok l => (match acceptWrites Findings.nothing (withBatch []) 0 l with | .error _ => true | _ => false)
        | _ => false) = true ∧ failingPart [] [busy] = none ∧
      openBatch (inUse (openFor 2 up) (session7 2)) 7 3 = none ∧
      (withBatch []).dict.batches.any (fun b => decide (b.session = 7 ∧ b.number = 3)) = true := by decide +kernel

/-- A HELLO of a slot, and its module with a user image whose key slot 1 is an owner's. -/
def helloOf (slot : Nat) : Request := { message 0 [] with session := 0, length := 64, data := 1 :: BitVec.ofNat 8 slot :: List.replicate 62 0 }
def keyed : State :=
  let bytes := putBytes (putBytes [] 16 (bytesOfNat 32 64)) 256 (bytesOfNat 16 (2 + 48 * 2 ^ 64) ++ [1, 2] ++ List.replicate 14 0 ++ List.replicate 32 7)
  (up.onFlash (fun f => { f with copies := [⟨0, []⟩, ⟨0, []⟩, ⟨1, bytes⟩, ⟨0, []⟩] })).onBoot (fun b => { b with userRunning := 0 })

theorem witness_hello :
    (discarded 8 (helloOf 0xFF) = false ∧ requestRefusal up 8 (helloOf 0xFF) = none ∧ ((helloOf 0xFF).data.headD 0).toNat = 1) ∧
    up.power.convertersOn = true ∧ forAnother up (helloOf 1) = false ∧ (helloOf 1).version = 1 ∧ (helloOf 1).session = 0 ∧
    up.dict.lockout = false ∧ up.boot.userRunning = 0xFF ∧ ((helloOf 1).data.drop 1).headD 0 ≠ 0xFF ∧ up.dict.sessions.length < 16 ∧
    16 ≤ (up.onDict (fun d => { d with sessions := List.replicate 16 (session7 2) })).dict.sessions.length ∧
    (match openHello up (helloOf 0xFF).data with | .ok _ => true | .error _ => false) = true ∧
    (up.onDict (fun d => { d with lockout := true })).dict.lockout = true := by decide +kernel

theorem witness_key : slotKey keyed 1 = some (2, List.replicate 32 7) := by decide +kernel

/-- A tag that is right and one that is not. -/
theorem witness_tags (k m : List Byte) (c : String) :
    (∃ l : List Byte, (l.drop 32).take 32 = kmac256 k m c) ∧ ∃ l : List Byte, (l.drop 32).take 32 ≠ kmac256 k m c := by
  refine ⟨⟨List.replicate 32 0 ++ kmac256 k m c, ?_⟩, ?_⟩
  · simp [kmac256, sponge256, List.take_take]
  · by_cases h : kmac256 k m c = []
    · exact ⟨List.replicate 33 0, by rw [h]; decide⟩
    · exact ⟨[], fun e => h e.symm⟩

/-- PROVE and CLOSE of session 7. -/
theorem witness_prove :
    let x := { session7 2 with pending := true, slot := 1 }
    let s := keyed.onDict (fun d => { d with sessions := [x] })
    let r := { message 0 [] with length := 64, data := 2 :: List.replicate 63 0 }
    s.power.convertersOn = true ∧ discarded 8 r = false ∧ forAnother s r = false ∧ r.version = 1 ∧ sessionOf s r.session = some x ∧
      (r.data.headD 0).toNat = 2 ∧ asksB (openFor 2 up) 8 { r with data := 3 :: List.replicate 63 0 } (session7 2) = true ∧
      (openFor 2 up).dict.sessions.any (fun x => decide (x.number = 7)) = true := by decide +kernel

theorem witness_reports :
    (up.onBoot (fun b => { b with attestState := 1 })).boot.attestState = 1 ∧ (up.onBoot (fun b => { b with marginState := 1 })).boot.marginState = 1 ∧
      up.boot.attestState ≠ 1 := by decide +kernel
/-! ## The front-end -/

/-- A ready connection 0 with what `f` changes, and region key 9: 0x100000 to 0x100FFF, readable and writable, whose first words are zero. -/
def linked (f : Conn → Conn) : State :=
  onConn (poke (conf up 0x580301 0 (bytesOfNat 32 (0x100000 + 0x1000 * 2 ^ 64 + 9 * 2 ^ 128 + 7 * 2 ^ 160))) 0x100000 (bytesOfNat 16 0)) 0
    (fun c => f { c with state := 1 })

theorem witness_links :
    let s := conf (conf up 0x580001 0 [1]) 0x580006 0 [0x83]
    cfgElem s 0x580001 0 ≠ 0 ∧ cfgElem (conf up 0x580001 0 [0]) 0x580001 0 = 0 ∧ bitAt (cfgElem s 0x580006 0) 7 = true ∧
      cfgElem s 0x580006 0 % 8 = 3 ∧ (portAddresses (conf up 0x580004 0 [1, 0, 0, 10]) 0 false).1.contains (0x0A000001#128).toNat = true := by
  decide +kernel

theorem witness_rdma :
    let s := linked id
    (connOf s 0).state = 1 ∧ requestCode s 0 8 0x100000 8 true = some 0x020C0106 ∧ requestCode s 0 8 0x100000 8 false = some 0x020C0106 ∧
      requestCode s 0 9 0x100000 8 true = none ∧ requestCode s 0 9 0x100000 8 false = none ∧ mirrorBase + 8 ≤ 0x030011000000 ∧
      natOfBytes (bytesOfNat 8 5) < 2 ^ 32 := by decide +kernel

theorem witness_flush_read :
    let h : HeldRead := ⟨0x100000, 8, 1, 1, false⟩
    let s := linked (fun c => { c with held := [h], unseen := [⟨0x100008, [1, 2, 3, 4, 5, 6, 7, 8]⟩], doorbells := [⟨3, 8, 0⟩] })
    let s1 := (placeAll 1 s 0).1
    let s2 := takeDoorbells 1 s1 0
    (connOf s 0).held = [h] ∧ (placeAll 1 s 0).2 = true ∧ ((connOf s2 0).held.head?.map (fun x => x.failed)).getD false = false ∧
      (serveRead s2 0 h.addr h.length).2 = false := by decide +kernel

/-- An export of an entry on connection 0, at an event. -/
def exporting (event : Nat) : Export := ⟨some (0, 1), 0, 0, 0x100000, 8, 1, 0, 1, event, 0, []⟩

theorem witness_rates :
    let s := fun (n event : Nat) => (linked (fun c => { c with retriesUsed := n })).onFront (fun f => { f with exports := [exporting event] })
    (connOf (s 0 0) 0).state = 1 ∧ (connOf up 0).state ≠ 1 ∧ activeExport (s 0 0) 0 = some (exporting 0) ∧
      (connOf (conf (s 0 0) 0x580201 40 [0xE0]) 0).retriesUsed < bitsAt (cfgElem (conf (s 0 0) 0x580201 40 [0xE0]) 0x580201 0) 325 3 ∧
      bitsAt (cfgElem (s 7 0) 0x580201 0) 325 3 ≤ (connOf (s 7 0) 0).retriesUsed := by decide +kernel

theorem witness_export_events :
    let s := fun (event : Nat) => (linked id).onFront (fun f => { f with exports := [exporting event] })
    ([0, 1, 2].all (fun e =>
      let y := { exporting e with event := e + 1, acked := if e = 1 then 8 else 0 }
      decide (activeExport (s e) 0 = some (exporting e) ∧
        (exportSend (replaceExport (onConn (s e) 0 (fun z => { z with retriesUsed := 0 })) (exporting e) y) y).2 = false))) = true ∧
    (exporting 1).length ≤ (exporting 1).acked + egressPiece ∧ egressPiece < { exporting 1 with length := egressPiece + 1 }.length ∧
    activeExport (s 3) 0 = some (exporting 3) ∧ (exporting 3).entry = some (0, 1) := by decide +kernel

/-- Queue 2: enabled, four entries, sequence numbers from 0. -/
def queued (f : Queue → Queue) : State :=
  onQueue (conf up 0x581001 64 (bytesOfNat 32 (0x300000 + 0x310000 * 2 ^ 64 + 2 * 2 ^ 128))) 2 (fun q => f { q with state := 1 })

theorem witness_doorbells :
    let s := linked (fun c => { c with doorbells := [⟨2, 0, 3⟩] })
    let t := linked (fun c => { c with doorbells := [⟨2, 8, 1⟩] })
    let q := queued (fun q => { q with released := 2 })
    (connOf s 0).doorbells = [⟨2, 0, 3⟩] ∧ (connOf t 0).doorbells = [⟨2, 8, 1⟩] ∧ (queueOf q 2).state = 1 ∧
      seqDistance 0 (queueOf q 2).posted = 0 ∧ 0 < seqDistance 4 (queueOf q 2).posted ∧ seqDistance 4 (queueOf q 2).posted < 2 ^ 31 ∧
      seqDistance 4 (queueOf q 2).consumed ≤ (queueRecord q 2).size ∧ (queueRecord q 2).size < seqDistance 5 (queueOf q 2).consumed ∧
      seqDistance 2 (queueOf q 2).consumed ≤ seqDistance (queueOf q 2).released (queueOf q 2).consumed ∧
      seqDistance (queueOf q 2).released (queueOf q 2).consumed < seqDistance 3 (queueOf q 2).consumed := by decide +kernel

theorem witness_entry_reads :
    let s := fun (tag reads : Nat) => poke (queued (fun q => { q with pending := [⟨0, 1, reads, false⟩] })) 0x300000 (bytesOfNat 128 tag)
    let v := fun (tag : Nat) => (readRecord (s tag 0) 0x300000 128).1
    (queueOf (s 0 63) 2).pending = [⟨0, 1, 63, false⟩] ∧ (queueRecord (s 0 0) 2).ring = 0x300000 ∧ (queueOf (s 0 0) 2).kept.contains 0 = false ∧
      (match v 0 with | .ok x => decide (bitsAt x 0 16 = expectedTag (queueRecord (s 0 0) 2) 0) | _ => false) = true ∧
      (match v 5 with | .ok x => decide (bitsAt x 0 16 ≠ expectedTag (queueRecord (s 5 0) 2) 0) | _ => false) = true := by decide +kernel

/-- Queue 2 with one accepted entry of a kind, its record at 0x200000 and 128 bytes `r` there. -/
def entered (kind status : Nat) (r : Nat) : State :=
  let words := (List.range 16).map (fun i => BitVec.ofNat 64 (bitsAt (kind * 2 ^ 16 + 0x200000 * 2 ^ 256 + 2 ^ 329) (64 * i) 64))
  poke (twoModules (queued (fun q => { q with entries := [⟨7, 1, 1, words, [], status, 0, 0, [], [], false, false⟩] }))) 0x200000 (bytesOfNat 128 r)

/-- The entry of sequence number 7, found, of a kind, and dispatchable. -/
def entryReady (s : State) (kind : Nat) : Bool :=
  match entryAt s 2 7 with
  | some e => dispatchable s 2 e && decide (e.kind = kind)
  | none => false

/-- A record is read. -/
def recordRead (s : State) (a len v : Nat) : Bool :=
  match readRecord s a len with
  | (.ok x, _) => decide (x = v)
  | _ => false

/-- ALL_GATHER of one binary32 element in group 0, free-standing; a fill of one line at 0x100000. -/
def gatherRecord : Nat := 3 + 7 * 2 ^ 32 + 0x1FFF * 2 ^ 36 + 0x100000 * 2 ^ 64 + 0x100000 * 2 ^ 128 + 2 ^ 192
def fillRecord : Nat := 0x100000 + 64 * 2 ^ 64

theorem witness_entries :
    ([(1, 0), (2, 0), (3, gatherRecord), (4, fillRecord), (5, 0), (6, 0)].all (fun e => entryReady (entered e.1 0 e.2) e.1)) = true ∧
      recordRead (entered 1 0 0) 0x200000 128 0 = true ∧ recordRead (entered 3 0 gatherRecord) 0x200000 64 gatherRecord = true ∧
      collFault (entered 3 0 gatherRecord) (collCmdOf gatherRecord) noGroup = none ∧
      recordRead (entered 4 0 fillRecord) 0x200000 32 fillRecord = true ∧ fillMalformed fillRecord = false ∧
      accessDetail (entered 4 0 fillRecord) .hazel true (bitsAt fillRecord 0 48) (bitsAt fillRecord 64 48) = none ∧
      (match entryAt (entered 1 1 0) 2 7 with | some e => entryEnded (entered 1 1 0) 2 e && decide (e.status = 1) && (commandsReady (entered 1 1 0) e.reduce).1 | none => false) = true := by
  decide +kernel

theorem witness_entry_faults :
    let s := fun (kind : Nat) => onQueue up 2 (fun q => { q with state := 1, entries := [⟨7, 1, 1,
      (List.range 16).map (fun i => BitVec.ofNat 64 (bitsAt (kind * 2 ^ 16 + 0x020000180000 * 2 ^ 256) (64 * i) 64)), [], 0, 0, 0, [], [], false, false⟩] })
    entryReady (s 1) 1 = true ∧ entryReady (s 4) 4 = true ∧
      (match (readRecord (s 1) 0x020000180000 128).1, (readRecord (s 4) 0x020000180000 32).1 with | .fault _, .fault _ => true | _, _ => false) = true := by
  decide +kernel
/-! ## The boundary, recovery and the twin -/

/-- The step is decided, and nothing is left of it. -/
def decided (l : Option (List Byte)) : State :=
  (up.onTrain (fun t => { t with cut := true, decision := some (false, false) })).onResil (fun r => { r with heldRecord := l })

/-- A recovery record of epoch 1, kind 1, that fills nothing. -/
def record1 : List Byte := bytesOfNat 16 (1 + 2 ^ 32)

theorem witness_boundary :
    boundaryReady up = false ∧ boundaryReady (decided none) = true ∧ (decided none).resil.heldRecord = none ∧
      boundaryReady (decided (some record1)) = true ∧
      (match recoveryOf (runBoundary (decided (some record1)) 0) record1 with | .ok r => decide (r.epoch = 1) | .error _ => false) = true := by decide +kernel

theorem witness_history :
    let r := fun (nonfinite applied : Bool) => { CommitRecord.zero with nonfinite := nonfinite, applied := applied }
    (r true false).nonfinite = true ∧ (r false true).applied = true ∧ up.train.history.scaleExp = 10 ∧ up.train.history.cleanSteps = 0 ∧
      cfg up 0x480103 = 2000 ∧ cfg (conf up 0x480103 0 [1, 0, 0, 0]) 0x480103 ≤ 0 + 1 ∧ up.train.history.scaleExp < cfg up 0x480105 := by decide +kernel

/-- A CONTROL packet with a body of 8-byte words. -/
def control (l : List Nat) : Packet := { from1 0xC with payload := l.flatMap (bytesOfNat 8) }

theorem witness_restore_point :
    let s := fun (c : Nat) (lost : Bool) => (two.onTrain (fun t => { t with committed := c })).onResil (fun r => { r with state := 2, memoryLost := lost })
    let t := fun (c : Nat) (lost : Bool) (l : List Nat) => takenAt (s c lost) 0xC (control l)
    (takePacket (s 5 false) 0xC (control [4, 5, 0])).isSome = true ∧ (t 5 false [4, 5, 0]).fabric.epoch = 0 ∧ (t 5 false [4, 5, 0]).resil.state = 2 ∧
      (t 5 false [4, 5, 0]).resil.memoryLost = false ∧ ownFill (t 5 false [4, 5, 0]) = none ∧ (t 4 false [4, 5, 0]).train.committed + 1 = 5 ∧ 5 ≤ (t 5 false [4, 5, 0]).train.committed + 1 ∧
      (t 5 true [4, 5, 0]).resil.memoryLost = true ∧ currentStep (t 5 false [8, 6, 1]) ≤ 6 ∧
      (t 5 false [8, 6, 1]).resil.holdNotices.contains (6, 0, 1) = false ∧ huskStopped (s 5 false) = false ∧ up.resil.unreachable.contains 0x7001 = false := by decide +kernel

/-- Another member of the job must still report. -/
theorem witness_report :
    let g : CommGroup := ⟨0, 0, [⟨0x7000, 2⟩, ⟨0x7001, 2⟩]⟩
    let s := up.onFabric (fun f => { f with groups := [g] })
    let t := takenAt s 0xC (control [3, 5, 0])
    (takePacket s 0xC (control [3, 5, 0])).isSome = true ∧
      (jobNodes t).all (fun n => (t.resil.reports.filter (fun (r : BitVec 24 × Nat) => decide (r.1 ≠ 0x7001)) ++ [(0x7001, 5)]).any (fun r => decide (r.1 = n))) = false := by
  decide +kernel

/-- A module that fills dense group 1 at restore point 5, whose ledger records of steps 4 and 5 are submitted. -/
def filling (state left : Nat) (verified : List (Nat × BitVec 24)) : State :=
  let r := fun (step : Nat) => (⟨5, 0x7001, 0, 0, step, step, 0x1FFF, List.replicate 592 0, []⟩ : Saved)
  withDense.onResil (fun x => { x with
    state := state, restore := 5, shards := [(1, 5)], verified := verified, replayLeft := left, submitted := [r 4, r 5], memoryLost := true })

theorem witness_shard :
    let s := filling 3 0 []
    s.resil.state = 3 ∧ s.resil.shards.any (fun x => decide (x.1 = 1)) = true ∧ (ledgerFor s s.resil.restore).isSome = true ∧
      (List.replicate (6 * (groupNow s 1).planeLen) (0 : Byte)).length = 6 * (groupNow s 1).planeLen := by decide +kernel

theorem witness_replay :
    let s := filling 4 1 [(1, 0x7001)]
    s.resil.state = 4 ∧ 0 < s.resil.replayLeft ∧ s.resil.replayLeft ≤ s.resil.restore ∧
      s.resil.shards.all (fun x => s.resil.verified.any (fun v => decide (v.1 = x.1))) = true ∧ (ledgerFor s s.resil.restore).isSome = true ∧
      (ledgerFor s (s.resil.restore + 1 - s.resil.replayLeft)).isSome = true ∧ (filling 4 0 [(1, 0x7001)]).resil.replayLeft = 0 ∧
      (ledgerFor s (s.resil.restore - s.resil.replayLeft)).isSome = true ∧ ownFill (filling 4 0 [(1, 0x7001)]) = none := by decide +kernel

theorem digest_length : (shake256 [] 32).length = 32 := by decide +kernel

/-- A record without payload, with a digest. -/
def recordWith (digest : List Byte) : Packet := { from1 0xA with payload := (5 : Byte) :: List.replicate 31 0 ++ digest }

/-- A record's bytes with what its packet marks poisoned. -/
def unpoisoned (p : Packet) : List (Byte × Bool) := p.payload.zipIdx.map (fun x => (x.1, p.poison.contains (x.2 / 8)))

theorem unpoisoned_bytes (p : Packet) : (unpoisoned p).map (fun x => x.1) = p.payload := by
  simp only [unpoisoned, List.map_map]
  exact List.zipIdx_map_fst 0 p.payload

/-- Its digest is right when it is that of the empty string. -/
theorem witness_record : (savedFrom 0x7001 (unpoisoned (recordWith (shake256 [] 32)))).2 = true := by
  have h := digest_length
  have e0 := unpoisoned_bytes (recordWith (shake256 [] 32))
  have e1 : (shake256 [] 32).drop 32 = [] := List.drop_eq_nil_of_le (by omega)
  have e2 : (shake256 [] 32).take 32 = shake256 [] 32 := List.take_of_length_le (by omega)
  simp only [savedFrom]
  rw [e0]
  simp [recordWith, e1, e2]

theorem witness_wrong_record : (savedFrom 0x7001 (unpoisoned (recordWith []))).2 = false := by
  have h := digest_length
  have e0 := unpoisoned_bytes (recordWith [])
  have e : shake256 [] 32 ≠ [] := fun e => by rw [e] at h; exact absurd h (by decide)
  simp only [savedFrom]
  rw [e0]
  simp [recordWith, e]

theorem witness_mirror :
    let p := recordWith []
    let t := takenAt two 0xA p
    let r := (savedFrom 0x7001 (unpoisoned p)).1
    (takePacket two 0xA p).isSome = true ∧ p.payload.length < 4096 ∧ p.elemOffset = 0 ∧ natOfBytes (p.payload.take 1) < 16 ∧ t.resil.twinState ≠ 2 ∧
      forFill t r = false ∧ forFill (t.onResil (fun x => { x with state := 3 })) r = true ∧ t.resil.clients.length < 4096 ∧
      (t.onResil (fun x => { x with clients := [0x7001] })).resil.clients.contains 0x7001 = true ∧ huskStopped two = false ∧ (takePacket two 0xB (from1 0xB)).isSome = true ∧ cfg two 0x600001 < 2 ^ 32 ∧
      (takePacket two 0xC (control [7, cfg two 0x600001])).isSome = true ∧ (two.onResil (fun r => { r with gate := [⟨5, 0, 0, 0, 0, 0, 0, [], []⟩] })).resil.gate ≠ [] ∧
      two.resil.gate = [] ∧ two.resil.transfer = [] := by decide +kernel

theorem witness_lines :
    let s := two.onProt (fun q => { q with heldLines := [(64, 3)] })
    (takePacket s 0xC (control [5, 4096, 1])).isSome = true ∧ (takePacket s 0xC (control [6, 4096, 1])).isSome = true ∧ (takePacket s 0xC (control [6, 4096, 0, 1, 2, 3, 4, 5, 6, 7, 8])).isSome = true ∧
      (takenAt s 0xC (control [6, 4096, 0, 1, 2, 3, 4, 5, 6, 7, 8])).prot.heldLines.any (fun h => decide (h.1 = 4096 / 64)) = true ∧
      generationLine s 0x7001 4096 1 = none ∧ groupAt s 4096 = none := by decide +kernel

/-- A twin that waits, with its hop up or not. -/
def twin (hop : Nat) (late : Bool) : State :=
  onPort ((conf up 0x600601 0 [1]).onResil (fun r => { r with twinSent := true, twinLateRaised := late })) 6 (fun p => { p with state := hop })

theorem witness_twin :
    twinWaits (twin 2 false) = true ∧ portUp (twin 0 false) 6 = false ∧ portUp (twin 2 false) 6 = true ∧ (twin 2 true).resil.twinLateRaised = true ∧
      twinWaits up = false ∧ cfg (twin 2 false) 0x600601 ≠ 0 ∧ (twin 2 false).train.cut = false ∧
      (twin 2 false).resil.twinState = 0 ∧ (twin 2 false).train.started = false ∧ cfg ((twin 2 false).onTrain (fun t => { t with started := true })) 0x600601 ≠ 0 ∧
      (let r : Saved := ⟨5, 0, 0, 0, 9, 9, 0x1FFF, List.replicate 592 0, []⟩
       ((twin 2 false).onResil (fun x => { x with submitted := [r] })).resil.submitted.find? (fun y => y.kind == 5) = some r) := by decide +kernel

/-- A relayed READ, and the reply to one. -/
def relayed1 : Packet := { from1 0xC with payload := bytesOfNat 8 1 ++ requestMessage 1 (readOf 0 0x281001 8) }

theorem witness_relay :
    let t := takenAt two 0xC relayed1
    (takePacket two 0xC relayed1).isSome = true ∧ 72 ≤ relayed1.payload.length ∧ natOfBytes (relayed1.payload.take 8) = 1 ∧
      requestOf (relayed1.payload.drop 8) = (1, readOf 0 0x281001 8) ∧ discarded 1 (readOf 0 0x281001 8) = false ∧
      (answerOwn Findings.nothing t 1 (readOf 0 0x281001 8)).reset = none ∧
      forAnother two { readOf 0 0x281001 8 with target := 0x7001 } = true ∧ reducedDictionary two = false := by decide +kernel

theorem witness_relayed_reply :
    let x := replyTo 1 (readOf 0 0x281001 8)
    let p : Packet := { from1 0xC with payload := bytesOfNat 8 2 ++ replyMessage x }
    let s := two.onDict (fun d => { d with relayed := [x] })
    (takePacket s 0xC p).isSome = true ∧ 72 ≤ p.payload.length ∧ natOfBytes (p.payload.take 8) = 2 ∧
      (takenAt s 0xC p).dict.relayed = [x] ∧ x.requestId = (replyOf (p.payload.drop 8)).requestId ∧ x.op = (replyOf (p.payload.drop 8)).op ∧
      x.session = (replyOf (p.payload.drop 8)).session ∧ s.dict.relayed.find? (fun y => decide (y.requestId = 5)) = some x := by decide +kernel
/-! ## The machine, messages and ill-formed commands -/

theorem witness_messages :
    let h : LinkHeader := ⟨3, true, false, 15, 4095, 4095, true, true, 15, 255, 3⟩
    (readOf 0 0x281001 8).wf = true ∧ (from1 1).wf = true ∧ [0, 2].Pairwise (· < ·) ∧ (h.pos < 4 ∧ h.vc < 16 ∧ h.seq < 4096 ∧ h.ack < 4096) ∧
      (replyTo 1 (readOf 0 0x281001 8)).op < 256 := by decide +kernel

theorem witness_canonical : State.reset.mem.wf = true ∧ State.reset.banks.wf = true := by decide +kernel

theorem test_step_idles : step State.reset = .next State.reset := rfl

theorem test_step_runs_front : step { up with pending := [.feLinkDown 1, .feLinkUp 1] } = exec (.feLinkDown 1) { up with pending := [.feLinkUp 1] } := rfl

/-! ## Ill-formed commands -/

def r0 : Request := readOf 0 0x281001 8
def k0 : CollKey := ⟨0, 0, 0⟩
def x0 : PowerReading := ⟨36000, 1000, List.replicate 8 0, List.replicate 8 0, List.replicate 236 0, List.replicate 43 0, 0, 0⟩

/-- One command for each check of a message's fields, each at the first value beyond its width (Table 13.3). -/
theorem test_bad_requests : ([{ r0 with version := 256 }, { r0 with index := 65536 }, { r0 with sub := 256 }, { r0 with offset := 2 ^ 32 },
    { r0 with length := 65536 }, { r0 with applyAt := 2 ^ 64 }, { r0 with batch := 65536 }, { r0 with data := List.replicate 1025 0 }] : List Request).all
    (fun r => !(Instr.read r).wf) = true := by decide +kernel

/-- The same for a packet's header (Table 9.7). -/
theorem test_bad_packets : ([{ from1 1 with ptype := 16 }, { from1 1 with cls := 4 }, { from1 1 with comm := 256 }, { from1 1 with step := 2 ^ 64 },
    { from1 1 with srcSlot := 4096 }, { from1 1 with dstSlot := 4096 }, { from1 1 with group := 8192 }, { from1 1 with fmt := 16 },
    { from1 1 with elemOffset := 2 ^ 40 }, { from1 1 with collId := 2 ^ 32 }, { from1 1 with epoch := 2 ^ 32 },
    { from1 1 with payload := List.replicate 4097 0 }] : List Packet).all (fun p => !(Instr.data p).wf) = true := by decide +kernel

/-- One command for each check of its own operands. -/
theorem test_bad_operands : ([.converterFail 4, .stackReset 7 0, .watchdogExpiry 16, .railBelowFloor 6 0, .railAboveFloor 6 0, .railBelowRetention 6 0,
    .paceWindow [0], .powerSample { x0 with railMv := [] }, .powerSample { x0 with railMa := [] }, .powerSample { x0 with temps := [] },
    .powerSample { x0 with energyMj := [] }, .droopBegin 8 0, .droopEnd 8 0, .gateRestartStep 16, .verticalTransfer 384 0 [cleanAttempt] [],
    .verticalTransfer 0 5 [cleanAttempt] [], .verticalTransfer 0 0 [] [], .powerClusterFail 384, .nop 384, .trap 384, .tileSupplyBelowFloor 384 0,
    .homeSliceAccess (.pip 384) 0 8 none, .homeSliceAccess (.cracker 16) 0 8 none, .homeSliceAccess (.remote 1024) 0 8 none,
    .homeSliceAccess .acorn (2 ^ 64) 8 none, .homeSliceAccess .acorn 0 0 none, .homeSliceAccess .acorn 0 65 none, .hbmRefresh 12 0, .patrolScrub 5,
    .hbmChannelFail 12 0, .hbmChannelFail 0 32, .crackerGather 16, .mergePass 32, .sweepFeed 32, .stagedRowReady 32 0, .denseCheckUpdate 4096,
    .sweepRow 4095 0, .sweepRow 4128 0, .sweepWriteAck 4128 0, .laneFail 7 0, .laneFail 0 9, .portTrainingDone 7 [] 0, .flitReceive 7 ⟨flit0, []⟩, .flitReceive 0 ⟨[], []⟩, .flitReceive 0 ⟨flit0, List.replicate 10 0⟩, .builtInTest ⟨false, [], [], [384], [], []⟩, .hbmTraining ⟨[384], []⟩,
    
    .allReduce { k0 with comm := 256 }, .allReduce { k0 with group := 8192 }, .allReduce { k0 with collId := 2 ^ 32 }, .ackTimer ⟨0, 0, 4, 0⟩,
    .ackTimer ⟨0, 0, 0, 256⟩, .neighborRequest 3 false 1, .rdmaWrite ⟨1024, false⟩ 0 0 [], .cnpReceive 1024, .entryRead 64, .dispatch 64 0, .shardVerify 4128 0 0 0 [],
    .batchExpire 0 0, .batchExpire 0 65536, .feLinkDown 2, .priorityFlowControlFrame 2 0 0, .priorityFlowControlFrame 0 8 0,
    .priorityFlowControlFrame 0 0 65536] : List Instr).all (fun i => !i.wf) = true := by decide +kernel

/-- Commands that are well formed. -/
theorem test_good_operands : ([.read r0, .data (from1 1), .powerSample x0, .verticalTransfer 383 4 [cleanAttempt] [], .homeSliceAccess (.pip 383) 0 64 none,
    .flitReceive 6 ⟨flit0, []⟩, .allReduce k0, .sweepRow 4127 0] : List Instr).all Instr.wf = true := by decide +kernel
end Sys2Proof.Tests
end

section
/-! The address map (R20 to R23), accesses that Table 1.12 forbids, and reads through the home slices. -/

namespace Sys2Proof.Machine

open Sys2Proof

/-! ## The granule of the interleave (R21, Table 6.3) -/

theorem granuleBits_of_default {s : State} (h : cfg s 0x300005 = 2) : granuleBits s = 12 := by
  simp only [granuleBits, h]

theorem stackOf_of_default {s : State} (h : cfg s 0x300005 = 2) (a : Nat) : stackOf s a = (a >>> 12) % 12 := by
  rw [stackOf, granuleBits_of_default h, Nat.shiftRight_eq_div_pow]

theorem stackOffset_of_default {s : State} (h : cfg s 0x300005 = 2) (a : Nat) :
    stackOffset s a = ((a >>> 12) / 12) * 4096 + a % 4096 := by
  simp only [stackOffset, granuleBits_of_default h, Nat.shiftRight_eq_div_pow, Nat.reducePow]

/-! ## The HBM range -/

theorem regionOf_of_lt_hbmEnd {a : Nat} (h : a < hbmEnd) : regionOf a = some .hbm := by
  rw [regionOf, if_pos h]

/-- Every initiator may read and write the HBM range (Table 1.11). -/
@[simp] theorem permitted_hbm (who : Initiator) (write : Bool) : permitted who .hbm write = true := by
  cases who <;> rfl

theorem byteDetail_of_lt_hbmEnd (s : State) (who : Initiator) (write : Bool) {a : Nat} (h : a < hbmEnd) :
    byteDetail s who write a = none := by
  have h48 : ¬ 2 ^ 48 ≤ a := by simp only [hbmEnd] at h; omega
  simp only [byteDetail, if_neg h48, regionOf_of_lt_hbmEnd h, reduceCtorEq, false_and, if_false, permitted_hbm, if_true]

/-- An access that stays in the HBM range is never forbidden (R26). -/
theorem accessDetail_in_hbm (s : State) (who : Initiator) (write : Bool) {a len : Nat} (hlen : 1 ≤ len) (h : a + len ≤ hbmEnd) :
    accessDetail s who write a len = none := by
  have ha : a < hbmEnd := by omega
  have hend : mappedEnd (pinnedNow s) 65 a = hbmEnd := by simp only [mappedEnd, regionOf_of_lt_hbmEnd ha]
  simp [accessDetail, byteDetail_of_lt_hbmEnd s who write ha, hend, h]

/-! ## The tile-store windows (R22) -/

theorem regionOf_window {n off : Nat} (hn : n < 384) (ho : off < 0x200000) :
    regionOf (0x020000000000 + n * 0x200000 + off) = some .tileStore := by
  have hbm : ¬ 0x020000000000 + n * 0x200000 + off < hbmEnd := by simp only [hbmEnd]; omega
  have pinned : ¬ 0x020000000000 + n * 0x200000 + off < 0x010280000000 := by omega
  have store : tileBase ≤ 0x020000000000 + n * 0x200000 + off ∧ 0x020000000000 + n * 0x200000 + off < 0x020030000000 := by
    simp only [tileBase]; omega
  simp only [regionOf, if_neg hbm, pinned, and_false, if_false, if_pos store]

theorem window_number (n : Nat) {off : Nat} (ho : off < 0x200000) :
    (0x020000000000 + n * 0x200000 + off - tileBase) / 0x200000 = n := by
  simp only [tileBase]; omega

theorem window_offset (n : Nat) {off : Nat} (ho : off < 0x200000) :
    (0x020000000000 + n * 0x200000 + off - tileBase) % 0x200000 = off := by
  simp only [tileBase]; omega

/-- What Table 1.12 says of a byte of a window: its tile first, then its offset, then who makes the access. The order of the first two
and the last is the model's choice (assumption 60). -/
theorem byteDetail_window (s : State) (who : Initiator) (write : Bool) {n off : Nat} (hn : n < 384) (ho : off < 0x200000) :
    byteDetail s who write (0x020000000000 + n * 0x200000 + off) =
      if logicalTiles s ≤ n then some 0x0103
      else if 0x180000 ≤ off then some 0x0104
      else if permitted who .tileStore write then none else some 0x0106 := by
  have h48 : ¬ 2 ^ 48 ≤ 0x020000000000 + n * 0x200000 + off := by omega
  simp only [byteDetail, if_neg h48, regionOf_window hn ho, window_number n ho, window_offset n ho, true_and, reduceCtorEq,
    false_and, if_false]

/-- The logical tile of a window does not depend on the tile map, nor on anything else of the stack (R22). -/
theorem byteDetail_onStack (s : State) (k : Stack) (who : Initiator) (write : Bool) (a : Nat) :
    byteDetail { s with stack := k } who write a = byteDetail s who write a := rfl

/-! ## Unmapped addresses (R26) -/

theorem byteDetail_unmapped (s : State) (who : Initiator) (write : Bool) {a : Nat} (h48 : a < 2 ^ 48) (h : regionOf a = none) :
    byteDetail s who write a = some 0x0102 := by
  simp only [byteDetail, if_neg (Nat.not_le.mpr h48), h]

theorem accessDetail_unmapped (s : State) (who : Initiator) (write : Bool) {a len : Nat} (hlen : 1 ≤ len) (h48 : a < 2 ^ 48)
    (h : regionOf a = none) : accessDetail s who write a len = some 0x0102 := by
  have hpos : ¬ len = 0 := by omega
  simp only [accessDetail, if_neg hpos, byteDetail_unmapped s who write h48 h]

/-- Only a line of the HBM range has a home slice that can be stopped. -/
theorem accessStopped_unmapped (s : State) {a : Nat} (len : Nat) (h : regionOf a = none) : accessStopped s a len = false := by
  simp [accessStopped, h]

/-! ## HOME_SLICE_ACCESS, case by case -/

theorem exec_homeSliceAccess_eq (who : Initiator) (a len : Nat) (write : Option (List Byte)) (s : State) :
    exec (.homeSliceAccess who a len write) s = execHomeSliceAccess who a len write s := rfl

/-- A read brings no RDMA write (R258). -/
theorem arrivesFrom_read (s : State) (who : Initiator) (a : Nat) : arrivesFrom s who a none = none := by
  cases who <;> rfl

/-- An access that is no arriving RDMA write and that Table 1.12 forbids has no effect but that its initiator learns of it (R26). -/
theorem exec_homeSliceAccess_forbidden {s : State} {who : Initiator} {a len d : Nat} {write : Option (List Byte)}
    (hstop : accessStopped s a len = false) (harr : arrivesFrom s who a write = none)
    (hd : accessDetail s who write.isSome a len = some d) :
    exec (.homeSliceAccess who a len write) s = .next (noteChanges s (tellInitiator s who d a)) := by
  simp only [exec_homeSliceAccess_eq, execHomeSliceAccess, hstop, Bool.false_eq_true, if_false, harr, hd, done]

/-- A read of the HBM range by an initiator that may make it is served by the home slices (R25, R154). -/
theorem exec_homeSliceAccess_hbm_read {s : State} {who : Initiator} {a len : Nat} (hlen : 1 ≤ len) (hend : a + len ≤ hbmEnd)
    (hreg : inRdmaRegion s who false a len = true) (hstop : accessStopped s a len = false) :
    exec (.homeSliceAccess who a len none) s = .next (noteChanges s (serveAccess s who a len none)) := by
  have hr : regionOf a = some .hbm := regionOf_of_lt_hbmEnd (by omega)
  simp only [exec_homeSliceAccess_eq, execHomeSliceAccess, hstop, Bool.false_eq_true, if_false, arrivesFrom_read, Option.isSome_none,
    accessDetail_in_hbm s who false hlen hend, hr, hreg, if_true, done]

/-! ## Reading words whose codes hold -/

/-- Such a read is an access of the home slices and nothing else: no error, no poison, no held line, no count of Table 8.9. -/
theorem serveAccess_read_clean {s : State} (who : Initiator) {a len : Nat} (htag : s.cache.tagSynd = [])
    (hw : ∀ w, a / 8 ≤ w → w < (a + len + 7) / 8 → clean s.mem w) :
    serveAccess s who a len none = accessSlices s who a len false := by
  have htags : lookupTags s a len = s := if_pos htag
  have hpoison := unmarked_any (wordBytes_unmarked s (a / 8) ((a + len + 7) / 8 - a / 8)) (a - 8 * (a / 8)) len
  simp only [serveAccess, readThrough, htags, readBytes_clean hw, Bytes.poisoned, hpoison, Bool.false_and, Bool.false_eq_true, if_false]

/-- The end of a command that changed the home slices alone. -/
theorem noteChanges_of_sliceOnly {s t : State} (h : sliceOnly s t) :
    noteChanges s t = { s with cache := (noteChanges s t).cache, dict := (noteChanges s t).dict, free := s.free + 1 } ∧
      logsOnly s.dict (noteChanges s t).dict := by
  obtain ⟨c, rfl⟩ := h
  unfold noteChanges
  generalize bumpChanges s { s with cache := c } = ordinals
  exact ⟨rfl, rfl⟩

end Sys2Proof.Machine

namespace Sys2Proof.Proofs

open Sys2Proof Sys2Proof.Machine

/-- Settles O57: with the default granule the interleave divides by 4,096 and by 12, and each byte of a window answers by its tile and
its offset, whatever the stack holds. -/
theorem addressesStandWhereTheSpecPutsThem : Obligations.AddressesStandWhereTheSpecPutsThem := by
  refine ⟨⟨by decide +kernel, fun s a h => ⟨stackOf_of_default h a, stackOffset_of_default h a⟩⟩,
    fun n off hn ho => regionOf_window hn ho, ?_, ?_, ?_, byteDetail_onStack⟩
  · intro s who w n off hn ho hl
    rw [byteDetail_window s who w hn ho, if_pos hl]
  · intro s who w n off hn hlo hhi hl
    rw [byteDetail_window s who w hn hhi, if_neg (by omega), if_pos hlo]
  · intro s m w n off hn ho hl
    have hp : permitted (.pip m) .tileStore w = true := rfl
    rw [byteDetail_window s _ w hn (by omega), if_neg (by omega), if_neg (by omega), if_pos hp]

/-- Settles O8: a read of words whose codes hold is an access of the home slices alone, and an unmapped address answers 0x0102, which Acorn
and Hazel raise. -/
theorem homeSliceReadsAndFaults : Obligations.HomeSliceReadsAndFaults := by
  refine ⟨?_, ?_⟩
  · intro s who a len hlen _ hend hreg hstop htag hw
    have hserve : serveAccess s who a len none = accessSlices s who a len false :=
      serveAccess_read_clean who htag (fun w h1 h2 => hw w h1 (by omega))
    exact ⟨_, exec_homeSliceAccess_hbm_read hlen hend hreg hstop,
      noteChanges_of_sliceOnly (hserve ▸ sliceOnly_accessSlices s who a len false)⟩
  · intro s a len w hlen h48 hr
    have hstop := accessStopped_unmapped s len hr
    exact ⟨exec_homeSliceAccess_forbidden hstop rfl (accessDetail_unmapped s .acorn w.isSome hlen h48 hr),
      exec_homeSliceAccess_forbidden hstop rfl (accessDetail_unmapped s .hazel w.isSome hlen h48 hr)⟩

end Sys2Proof.Proofs
end

section
/-! Rails, droops, ramp steps, row restarts and pace windows (R32, R33, R309, R314 to R316). -/

namespace Sys2Proof.Machine

open Sys2Proof

/-! ## Ramp steps (R315, R316) -/

/-- Whether a step already waits has no part in where rail 0 moves. -/
@[simp] theorem railTarget_rampWait (s : State) (b : Bool) :
    railTarget (s.onPower (fun p => { p with rampWait := b })) = railTarget s := rfl

theorem exec_rampStep_held {s : State} (h : rampHeld s = true) :
    exec .rampStep s = .next (noteChanges s (s.onPower (fun p => { p with rampWait := true }))) :=
  congrArg (fun t => Host.Outcome.next (noteChanges s t)) (if_pos h)

theorem exec_rampStep_free {s : State} (h : rampHeld s = false) :
    exec .rampStep s = .next (noteChanges s (applyRamp (s.onPower (fun p => { p with rampWait := false })))) :=
  congrArg (fun t => Host.Outcome.next (noteChanges s t)) (if_neg (by simp [h]))

/-- Below its target rail 0 rises by one millivolt, and the gate stays. -/
theorem applyRamp_rise {s : State} (h : s.power.railSet.headD 0 < railTarget s) :
    applyRamp s = s.onPower (fun p => { p with railSet := withRail0 p.droop p.railSet (s.power.railSet.headD 0 + 1) }) := by
  have hne : s.power.railSet.headD 0 ≠ railTarget s := by omega
  have hup : ¬ s.power.railSet.headD 0 + 1 < s.power.railSet.headD 0 := by omega
  simp only [applyRamp, if_neg hne, if_pos h, if_neg hup]
  rfl

/-- Above its target rail 0 falls by one millivolt; the gate is 16 once it is there. -/
theorem applyRamp_fall {s : State} (h : railTarget s < s.power.railSet.headD 0) :
    ∃ gate, applyRamp s = s.onPower (fun p => { p with
        railSet := withRail0 p.droop p.railSet (s.power.railSet.headD 0 - 1), powerGate := gate }) ∧
      (s.power.railSet.headD 0 = railTarget s + 1 → gate = 16) := by
  have hne : s.power.railSet.headD 0 ≠ railTarget s := by omega
  have hnot : ¬ s.power.railSet.headD 0 < railTarget s := by omega
  have hdown : s.power.railSet.headD 0 - 1 < s.power.railSet.headD 0 := by omega
  refine ⟨_, by simp only [applyRamp, if_neg hne, if_neg hnot, if_pos hdown]; rfl, fun h1 => if_pos (by omega)⟩

/-- At its target rail 0 stays; the gate is at least 16 unless the power limit keeps the setpoint down. -/
theorem applyRamp_there {s : State} (h : s.power.railSet.headD 0 = railTarget s) :
    applyRamp s = s.onPower (fun p => { p with
      powerGate := if p.powerLimitMv ≤ s.power.railSet.headD 0 then max p.powerGate 16 else p.powerGate }) := by
  simp only [applyRamp, if_pos h]

/-! ## Rails (R32, R316) -/

theorem exec_railBelowFloor {s : State} {layer mv : Nat} (hmv : mv < floorOf layer) (hs : s.power.stopped.contains layer = false) :
    exec (.railBelowFloor layer mv) s = .next (noteChanges s (raise (s.onPower (fun p => { p with
      stopped := setAddSorted p.stopped layer
      railMv := listSet p.railMv (railOf layer) mv
      floorStops := p.floorStops + 1 })) 0x06110C04 0)) :=
  if_neg (by simp only [hs, Bool.false_eq_true, or_false]; omega)

theorem exec_railAboveFloor {s : State} {layer mv : Nat} (hmv : floorOf layer < mv) :
    exec (.railAboveFloor layer mv) s = .next (noteChanges s (admitWaiting (s.onPower (fun p => { p with
      stopped := setRemove p.stopped layer
      railMv := listSet p.railMv (railOf layer) mv })))) :=
  if_neg (by omega)

theorem exec_droopBegin {s : State} {rail mv : Nat} (hmv : mv + 25 < s.power.railSet.getD rail 0)
    (hd : s.power.droop.contains rail = false) :
    exec (.droopBegin rail mv) s = .next (noteChanges s (s.onPower (fun p => { p with
      droop := setAddSorted p.droop rail
      droops := tabCount p.droops rail 1
      railMv := listSet p.railMv rail mv }))) :=
  if_neg (by simp only [hd, Bool.false_eq_true, or_false]; omega)

/-- A droop ends within 10 mV of the setpoint; a ramp step that waited is tried again. -/
theorem exec_droopEnd {s : State} {rail mv : Nat} (hd : s.power.droop.contains rail = true)
    (hlo : s.power.railSet.getD rail 0 ≤ mv + 10) (hhi : mv ≤ s.power.railSet.getD rail 0 + 10) :
    exec (.droopEnd rail mv) s =
      .next (noteChanges s (if s.power.rampWait then tryRamp (endDroop s rail mv) else endDroop s rail mv)) := by
  have hin : ¬ (s.power.droop.contains rail = false ∨ mv + 10 < s.power.railSet.getD rail 0 ∨
      s.power.railSet.getD rail 0 + 10 < mv) := by
    simp only [hd, Bool.true_eq_false, false_or]; omega
  show execDroopEnd rail mv s = _
  simp only [execDroopEnd, if_neg hin]
  cases s.power.rampWait <;> rfl

/-! ## Row restarts (R314) -/

theorem exec_gateRestartStep (s : State) (row : Nat) :
    exec (.gateRestartStep row) s = .next (noteChanges s (s.onPower (fun p => { p with
      restart := tabSet 16 p.restart row (if tabGet 16 s.power.restart row < 8 then 8 else 16) }))) := rfl

end Sys2Proof.Machine

namespace Sys2Proof.Proofs

open Sys2Proof Sys2Proof.Machine

/-- Settles O4, case by case of the conditions of each command: the floor, the droop and its end, where rail 0 stands against its
target, and the restarting gate. -/
theorem railsRampsAndPace : Obligations.RailsRampsAndPace := by
  refine ⟨⟨?_, ?_, ?_, ?_, ?_⟩, ⟨?_, ?_, ?_, ?_, ?_, ?_⟩, ?_⟩
  · exact fun s layer mv _ hmv hs => exec_railBelowFloor hmv hs
  · exact fun s layer mv _ hmv => exec_railAboveFloor hmv
  · exact fun s rail mv _ hmv hd => exec_droopBegin hmv hd
  · intro s rail mv _ hd hlo hhi hw
    rw [exec_droopEnd hd hlo hhi, hw]
    rfl
  · intro s rail mv _ hd hlo hhi hw
    rw [exec_droopEnd hd hlo hhi, if_pos hw, tryRamp]
    refine ⟨fun hheld => ?_, fun hfree => ?_⟩
    · have hwait : (endDroop s rail mv).onPower (fun p => { p with rampWait := true }) = endDroop s rail mv := by
        simp only [endDroop, State.onPower, ← hw]
      rw [if_pos hheld, hwait]
    · rw [if_neg (by simp [hfree])]
  · intro s hfree hlt
    rw [exec_rampStep_free hfree, applyRamp_rise (s := s.onPower (fun p => { p with rampWait := false })) hlt]
    rfl
  · intro s hfree hlt
    obtain ⟨gate, hstep, hgate⟩ := applyRamp_fall (s := s.onPower (fun p => { p with rampWait := false })) hlt
    refine ⟨_, (exec_rampStep_free hfree).trans (by rw [hstep]), ?_, fun h => ?_⟩
    · rw [noteChanges_power]
      rfl
    · rw [noteChanges_power]
      exact hgate h
  · intro s hfree heq
    rw [exec_rampStep_free hfree, applyRamp_there (s := s.onPower (fun p => { p with rampWait := false })) heq]
    rfl
  · exact fun s hheld => exec_rampStep_held hheld
  · intro s row _ h4
    rw [exec_gateRestartStep, h4]
    rfl
  · intro s row _ h8
    rw [exec_gateRestartStep, h8]
    rfl
  · exact fun s rings _ => rfl

end Sys2Proof.Proofs
end

section
/-! How a program starts on a tile and how an issued descriptor ends (R41, R84, R91, R92, R115, R161, R167). -/

namespace Sys2Proof.Machine

open Sys2Proof

/-! ## Tiles -/

/-- A tile changed to one that is not idle reads back, whatever the table. -/
theorem tileOf_onTile_self {s : State} {n : Nat} {f : Tile → Tile} (h : f (tileOf s n) ≠ Tile.idle) :
    tileOf (onTile s n f) n = f (tileOf s n) := tabGet_modify_value s.tiles n h

/-- Nor is any other tile changed by it. -/
theorem tileOf_onTile_other {s : State} {n m : Nat} {f : Tile → Tile} (h : f (tileOf s n) ≠ Tile.idle) (hm : m ≠ n) :
    tileOf (onTile s n f) m = tileOf s m := by
  have hset : tabModify Tile.idle s.tiles n f = tabInsert s.tiles n (f (tileOf s n)) := if_neg h
  show tabGet Tile.idle (tabModify Tile.idle s.tiles n f) m = _
  rw [hset]
  exact tabGet_insert_other Tile.idle s.tiles _ hm

theorem tile_ne_idle {t : Tile} (h : t.state ≠ 0) : t ≠ Tile.idle := fun e => h (e ▸ rfl)

/-! ## The start of a program (R41, R84) -/

/-- A row that restarts changes its gate and its idle time in the power system (R314). -/
theorem restartRow_frame (s : State) (n : Nat) : ∃ p, restartRow s n = { s with power := p } ∧
    p = { s.power with restart := p.restart, rowIdle := p.rowIdle } := by
  unfold restartRow
  dsimp only
  split <;> exact ⟨_, rfl, rfl⟩

/-- Twelve arguments fill b1 to b12. -/
theorem dispatchRegs_of_args {p : Program} (n : Nat) (h : p.args.length = 12) :
    dispatchRegs n p =
      BitVec.ofNat 64 (0x020000000000 + n * 0x200000) :: p.args ++ [BitVec.ofNat 64 n, BitVec.ofNat 64 p.step, 0] := by
  simp only [dispatchRegs, List.take_of_length_le (Nat.le_of_eq h), h, Nat.sub_self, List.replicate_zero, List.append_nil]
  rfl

/-- What a tile holds once program `p` has started on it, `rest` still waiting. -/
def startedTile (n : Nat) (p : Program) (rest : List Program) (t : Tile) : Tile :=
  { t with
    state := 1
    pc := p.entry
    regs := dispatchRegs n p
    loops := []
    nextNumber := 0
    issued := []
    program := some p
    waiting := rest
    trap := none
    halts := [] }

/-- The state in which program `p` has started on tile `n`. -/
def programStarted (s : State) (n : Nat) (p : Program) (rest : List Program) : State :=
  onTile { restartRow s n with uses := tabInsert (restartRow s n).uses n ProgramUse.fresh } n (startedTile n p rest)

/-- Which accesses are allowed does not depend on what a start changes. -/
theorem accessDetail_programStarted (s : State) (n : Nat) (p : Program) (rest : List Program) (who : Initiator) (w : Bool) (a len : Nat) :
    accessDetail (programStarted s n p rest) who w a len = accessDetail s who w a len := by
  obtain ⟨q, hrow, -⟩ := restartRow_frame s n
  rw [programStarted, hrow]
  rfl

theorem exec_tileProgramStart {s : State} {n : Nat} {p : Program} {rest : List Program} (hwait : (tileOf s n).waiting = p :: rest)
    (hidle : (tileOf s n).state = 0) (hstep : p.step = currentStep s) (hpow : tilePowered s n = true)
    (hacc : accessDetail s (.pip n) false p.entry 64 = none) :
    exec (.tileProgramStart n) s = .next (noteChanges s (programStarted s n p rest)) := by
  have hgo : ¬ ((tileOf s n).state ≠ 0 ∨ p.step ≠ currentStep s ∨ tilePowered s n = false) := by
    simp [hidle, hstep, hpow]
  have hfetch := (accessDetail_programStarted s n p rest (.pip n) false p.entry 64).trans hacc
  show execTileProgramStart n s = _
  simp only [execTileProgramStart, hwait, if_neg hgo]
  split
  · next d hd => exact absurd (hfetch.symm.trans hd) (Option.some_ne_none d).symm
  · rfl

/-! ## The end of an issued descriptor (R91, R92, R115, R161, R167) -/

/-- Tile `n` no longer holds the descriptor of a number as issued. -/
def withoutIssued (s : State) (n number : Nat) : State :=
  onTile s n (fun t => { t with issued := t.issued.filter (fun d => decide (d.number ≠ number)) })

section
variable {s : State} {n number : Nat} {e : Issued} (hfind : (tileOf s n).issued.find? (fun d => d.number == number) = some e)
  (hfirst : (tileOf s n).issued.all (fun x => !(x.engine == e.engine && x.channel == e.channel && decide (x.number < e.number))) = true)
  (hpow : tilePowered s n = true) (hr : e.reads = []) (hw : e.waits = []) (hx : e.writes = [])
include hfind hfirst hpow hr hw hx

/-- Without a fault the descriptor ends with its signal, unless its stream channel has halted. -/
theorem exec_descriptorComplete_clean (hfault : e.fault = none) :
    exec (.descriptorComplete n number) s = .next (noteChanges s
      (if e.engine = 2 ∧ tabGet 0 (tileOf s n).halts e.channel ≠ 0 then withoutIssued s n number
        else signalCounter (withoutIssued s n number) e.signal)) := by
  show execDescriptorComplete n number s = _
  simp only [execDescriptorComplete, hfind, hfirst, hpow, hr, hw, hx, hfault, Bool.true_eq_false, ne_eq, not_true_eq_false, or_self,
    if_false, done, withoutIssued]

/-- A fault halts the descriptor's stream channel, if it has one, and traps the tile. -/
theorem exec_descriptorComplete_fault {c : Code} (hfault : e.fault = some c) :
    exec (.descriptorComplete n number) s = .next (noteChanges s
      (detectTrap (if e.engine = 2 then onTile (withoutIssued s n number) n (fun t =>
          { t with halts := tabSet 0 t.halts e.channel c.toNat }) else withoutIssued s n number) n
        ⟨e.number, c, e.block, e.depth, e.pc, e.iterations⟩)) := by
  show execDescriptorComplete n number s = _
  simp only [execDescriptorComplete, hfind, hfirst, hpow, hr, hw, hx, hfault, Bool.true_eq_false, ne_eq, not_true_eq_false, or_self,
    if_false, done, withoutIssued]

end

/-- A descriptor with reads or writes outstanding does not end. -/
theorem exec_descriptorComplete_waits {s : State} {n number : Nat} {e : Issued}
    (hfind : (tileOf s n).issued.find? (fun d => d.number == number) = some e)
    (hleft : e.reads ≠ [] ∨ e.waits ≠ [] ∨ e.writes ≠ []) :
    exec (.descriptorComplete n number) s = .next s := by
  show execDescriptorComplete n number s = _
  simp only [execDescriptorComplete, hfind]
  exact if_pos (.inr (.inr hleft))

end Sys2Proof.Machine

namespace Sys2Proof.Proofs

open Sys2Proof Sys2Proof.Machine

/-- Settles O15: the start writes one tile that is then not idle, and the end of a descriptor goes by its fault and its engine. -/
theorem programsStartAndEnd : Obligations.ProgramsStartAndEnd := by
  refine ⟨?_, ?_, ?_, ?_, ?_⟩
  · intro s n p rest _ hwait hidle hstep hpow hacc hargs
    obtain ⟨q, hrow, hq⟩ := restartRow_frame s n
    have hne : startedTile n p rest (tileOf s n) ≠ Tile.idle := tile_ne_idle Nat.one_ne_zero
    refine ⟨_, exec_tileProgramStart hwait hidle hstep hpow hacc, ?_⟩
    simp only [programStarted, hrow]
    refine ⟨?_, fun m hm => ?_, by simp, by simp, by simp, by simp, by simpa using hq⟩
    · rw [← dispatchRegs_of_args n hargs]
      exact tileOf_onTile_self hne
    · exact tileOf_onTile_other hne hm
  · intro s n number e _ hfind hfirst hpow hr hw hx hfault hhalt
    rw [exec_descriptorComplete_clean hfind hfirst hpow hr hw hx hfault, if_neg fun h => h.2 (hhalt h.1)]
    rfl
  · intro s n number e c _ hfind hfirst hpow hr hw hx hfault heng
    rw [exec_descriptorComplete_fault hfind hfirst hpow hr hw hx hfault, if_neg heng]
    rfl
  · intro s n number e c _ hfind hfirst hpow hr hw hx hfault heng
    rw [exec_descriptorComplete_fault hfind hfirst hpow hr hw hx hfault, if_pos heng]
    rfl
  · exact fun s n number e _ hfind hleft => exec_descriptorComplete_waits hfind hleft

end Sys2Proof.Proofs
end

section
/-! Writes at the management port that are accepted: how the server answers one, and what the BOOL objects do (R325 to R329). -/

namespace Sys2Proof.Machine

open Sys2Proof

/-! ## Sessions (R329) -/

theorem sessionOf_number {s : State} {k : BitVec 64} {x : Session} (h : sessionOf s k = some x) : x.number = k := by
  unfold sessionOf at h
  split at h
  · exact nomatch h
  · exact of_decide_eq_true (List.find?_some (p := fun y : Session => decide (y.number = k)) h)

/-- A session changed without its number is found under it. -/
theorem sessionOf_onSession {s : State} {k : BitVec 64} {x : Session} {f : Session → Session} (hf : ∀ y, (f y).number = y.number)
    (h : sessionOf s k = some x) : sessionOf (onSession s k f) k = some (f x) := by
  have hk := sessionOf_number h
  have hsame : ((fun y : Session => decide (y.number = k)) ∘ fun y => if y.number = k then f y else y) =
      fun y => decide (y.number = k) := by
    funext y
    dsimp only [Function.comp_apply]
    split
    · rw [hf]
    · rfl
  unfold sessionOf at h ⊢
  split at h
  · exact nomatch h
  · rename_i hz
    rw [if_neg hz]
    show ((s.dict.sessions.map _).find? _) = _
    rw [List.find?_map, hsame, h, Option.map_some, if_pos hk]

/-- The session as its request leaves it: used now. -/
theorem sessionOf_inUse {s : State} {k : BitVec 64} {x : Session} (hp : x.pending = false) (h : sessionOf s k = some x) :
    sessionOf (inUse s x) k = some { x with lastUse := s.power.refPeriods } := by
  have hk := sessionOf_number h
  have hu : inUse s x = onSession s k (fun y => { y with lastUse := s.power.refPeriods }) := by
    rw [← hk]
    exact if_neg (by simp [hp])
  rw [hu]
  exact sessionOf_onSession (fun _ => rfl) h

/-! ## A request that is answered (R327, R329) -/

/-- The answer to a new request of an open session is kept with the session, and sent. -/
theorem serve_of_askedBy {s : State} {op : Nat} {r : Request} {x : Session} (found : Findings) (h : askedBy s op r x) :
    serve found op r s =
      let a := perform found (inUse s x) op r
      finishRequest s (replied a.state r a.reply) a.reset := by
  obtain ⟨hon, hdisc, hown, hver, hsess, -, hnew, hfresh, -⟩ := h
  have hserial : ¬ (x.replies ≠ [] ∧ x.replies.all (fun k => serialAbove k.requestId r.requestId) = true) := by
    rcases hfresh with h0 | h0 <;> simp [h0]
  simp only [serve, hon, hdisc, hown, Bool.true_eq_false, Bool.false_eq_true, or_self, false_and, if_false, answerOwn, hver,
    ne_eq, not_true_eq_false, performKept, hsess, hnew, if_neg hserial]
  rfl

/-! ## An accepted write (R325, R328) -/

/-- Whether a session may write an object goes by its role alone. -/
theorem checkWrite_role {s : State} {x y : Session} (h : y.role = x.role) (r : Request) (revert part : Bool) :
    checkWrite s y r revert part = checkWrite s x r revert part := by
  unfold checkWrite
  rw [h]

theorem perform_write_accepted {s t : State} {r : Request} {x : Session} {o : Obj} {eff n : Nat} {found : Findings} (h : writes s r x o)
    (ha : acceptWrites found (inUse s x) r.applyAt [⟨o, r.offset, r.data, 2⟩] = .ok (t, eff, n)) :
    perform found (inUse s x) 2 r = ⟨t, acceptedReply 2 r eff n, resetAsked [⟨o, r.offset, r.data, 2⟩]⟩ := by
  obtain ⟨⟨-, -, -, -, hsess, hpend, -, -, hserved⟩, hbatch, hcheck⟩ := h
  have hsess' := sessionOf_inUse hpend hsess
  have hcheck' := (checkWrite_role (x := x) (y := { x with lastUse := s.power.refPeriods }) rfl r false false).trans hcheck
  simp only [perform, hserved, hsess', writeRequest, hbatch, ne_eq, not_true_eq_false, if_false, Nat.reduceEqDiff,
    decide_false, hcheck', Bool.false_eq_true, ha, acceptedReply]

/-- A write of a WO object takes the next write ordinal, and no step. -/
theorem acceptWrites_writeOnly {s t : State} {w : PartWrite} {applyAt : Nat} {found : Findings} (ho : w.obj.access = 4)
    (hact : woAction found (counted s) w.obj w.off w.data applyAt = .ok t) :
    acceptWrites found s applyAt [w] = .ok (t, 0, s.dict.ordinal + 1) := by
  have hstaged : w.obj.staged = false := by simp [Obj.staged, ho]
  have hpart : writePart found (s.dict.ordinal + 1) applyAt (s.onDict (fun d => { d with ordinal := s.dict.ordinal + 1 })) w = .ok t := by
    unfold writePart
    rw [ho]
    exact hact
  simp [acceptWrites, hstaged, writeParts, hpart]

/-- The one counted write of a WO object that asks for no stack reset. -/
theorem serve_writeOnly {s t : State} {r : Request} {x : Session} {o : Obj} {found : Findings} (h : writes s r x o) (ho : o.access = 4)
    (hreset : resetAsked [⟨o, r.offset, r.data, 2⟩] = none)
    (hact : woAction found (counted (inUse s x)) o r.offset r.data r.applyAt = .ok t) :
    serve found 2 r s = .next (acts s t r) := by
  have hord : (inUse s x).dict.ordinal = s.dict.ordinal := by
    obtain ⟨⟨-, -, -, -, -, hpend, -⟩, -⟩ := h
    simp [inUse, performKept.touch, hpend, onSession]
  rw [serve_of_askedBy found h.1, perform_write_accepted h (acceptWrites_writeOnly (w := ⟨o, r.offset, r.data, 2⟩) ho hact), hreset, hord]
  rfl

/-! ## BOOL objects -/

/-- The object that a write names. -/
theorem objFind_of_writes {s : State} {r : Request} {x : Session} {o : Obj} (h : writes s r x o) :
    objFind (r.index * 256 + r.sub) = some o := by
  obtain ⟨-, -, hcheck⟩ := h
  unfold checkWrite at hcheck
  split at hcheck
  · exact nomatch hcheck
  · next p hp =>
    rw [hp]
    split_ifs at hcheck <;> cases hcheck <;> rfl

/-- The dictionary has a WO object of type BOOL under the key, and it is not stack_reset (R344). -/
def isSwitch (key : Nat) : Bool :=
  decide (key ≠ 0x181003 ∧ key ≠ 0x701001) && (objFind key).any (fun o => decide (o.key = key ∧ o.typ = 1 ∧ o.access = 4))

/-- A row of the switches: its command is a write of the object of its key, whose action it names. -/
def switchRow (row : Nat × (Request → Instr) × (State → State)) : Prop :=
  isSwitch row.1 = true ∧ (∀ r s, exec (row.2.1 r) s = serveWrite row.1 Findings.nothing r s) ∧
    ∀ t, boolAction t row.1 = .ok (row.2.2 t)

/-- A write of 1 does the row's action, a write of 0 nothing, and both are counted and answered (R325, R328). -/
theorem exec_switch {row : Nat × (Request → Instr) × (State → State)} {s : State} {r : Request} {x : Session} {o : Obj}
    (hrow : switchRow row) (hr : r.index * 256 + r.sub = row.1) (h : writes s r x o) :
    (r.data = [1] → exec (row.2.1 r) s = .next (acts s (row.2.2 (counted (inUse s x))) r)) ∧
    (r.data = [0] → exec (row.2.1 r) s = .next (acts s (counted (inUse s x)) r)) := by
  obtain ⟨hswitch, hexec, hact⟩ := hrow
  have hobj := objFind_of_writes h
  rw [hr] at hobj
  simp only [isSwitch, hobj, Option.any_some, Bool.and_eq_true, decide_eq_true_eq] at hswitch
  obtain ⟨⟨hreset, htest⟩, hkey, htyp, hacc⟩ := hswitch
  have hnone : resetAsked [⟨o, r.offset, r.data, 2⟩] = none := by simp [resetAsked, hkey, hreset, htest]
  rw [hexec, serveWrite, if_pos hr]
  refine ⟨fun hd => serve_writeOnly h hacc hnone ?_, fun hd => serve_writeOnly h hacc hnone ?_⟩
  · have hone : natOfBytes r.data = 1 := by rw [hd]; rfl
    simp only [woAction, htyp, if_true, hone, hkey, hact, acted]
  · have hzero : ¬ natOfBytes r.data = 1 := by rw [hd]; decide
    simp only [woAction, htyp, if_true, if_neg hzero, acted]

end Sys2Proof.Machine

namespace Sys2Proof.Proofs

open Sys2Proof Sys2Proof.Machine

/-- Settles O35: every row is the write of one BOOL object, whose action its key gives. -/
theorem switchWritesAct : Obligations.SwitchWritesAct := by
  suffices hrows : ∀ row ∈ _, switchRow row from fun row hrow s r x o hr h => exec_switch (hrows row hrow) hr h
  simp only [List.forall_mem_cons, List.not_mem_nil, false_implies, implies_true, and_true]
  refine ⟨?_, ?_, ?_, ?_, ?_, ?_, ?_, ?_, ?_, ?_, ?_, ?_, ?_⟩ <;>
    exact ⟨by decide +kernel, fun _ _ => rfl, fun _ => rfl⟩

end Sys2Proof.Proofs
end

section
/-! Writes of whole bytes over words whose codes hold: what they store, and what they leave (R154, R194, R205). -/

namespace Sys2Proof.Machine

open Sys2Proof

/-! ## Little-endian bytes -/

theorem natOfBytes_lt (l : List Byte) : natOfBytes l < 256 ^ l.length := by
  induction l with
  | nil => simp [natOfBytes]
  | cons b l ih =>
    have hb : b.toNat < 256 := b.isLt
    simp only [natOfBytes, List.length_cons, Nat.pow_succ]
    omega

theorem bytesOfNat_natOfBytes (l : List Byte) : bytesOfNat l.length (natOfBytes l) = l := by
  induction l with
  | nil => rfl
  | cons b l ih =>
    have hb : b.toNat < 256 := b.isLt
    have hdiv : (b.toNat + 256 * natOfBytes l) / 256 = natOfBytes l := by omega
    have hlow : BitVec.ofNat 8 (b.toNat + 256 * natOfBytes l) = b := by
      apply BitVec.eq_of_toNat_eq
      rw [BitVec.toNat_ofNat]
      omega
    simp only [List.length_cons, natOfBytes, bytesOfNat, hdiv, hlow, ih]

/-- The eight bytes of a word made of eight bytes. -/
theorem bytesOfNat_word {l : List Byte} (h : l.length = 8) : bytesOfNat 8 (BitVec.ofNat 64 (natOfBytes l)).toNat = l := by
  have hlt := natOfBytes_lt l
  rw [h] at hlt
  rw [BitVec.toNat_ofNat, Nat.mod_eq_of_lt (by omega)]
  exact h ▸ bytesOfNat_natOfBytes l

/-! ## One word -/

/-- The bytes of word `w` as the store holds them. -/
def heldBytes (m : Memory) (n w : Nat) : List Byte := (List.range 8).map (fun i => heldByte m n (8 * w + i))

@[simp] theorem heldBytes_length (m : Memory) (n w : Nat) : (heldBytes m n w).length = 8 := by simp [heldBytes]

/-- The byte at `b` once the bytes `l` stand from `a` up. -/
def byteAfter (m : Memory) (n a : Nat) (l : List Byte) (b : Nat) : Byte :=
  if b < a then heldByte m n b else (l[b - a]?).getD (heldByte m n b)

/-- The bytes of word `w` once the bytes `l` stand from `a` up. -/
def bytesAfter (m : Memory) (n a : Nat) (l : List Byte) (w : Nat) : List Byte :=
  (List.range 8).map (fun i => byteAfter m n a l (8 * w + i))

@[simp] theorem bytesAfter_length (m : Memory) (n a : Nat) (l : List Byte) (w : Nat) : (bytesAfter m n a l w).length = 8 := by
  simp [bytesAfter]

/-- Word `w` once the bytes `l` stand from `a` up. -/
def wordAfter (m : Memory) (n a : Nat) (l : List Byte) (w : Nat) : Word64 := BitVec.ofNat 64 (natOfBytes (bytesAfter m n a l w))

theorem bytesOfNat_wordAfter (m : Memory) (n a : Nat) (l : List Byte) (w : Nat) :
    bytesOfNat 8 (wordAfter m n a l w).toNat = bytesAfter m n a l w := bytesOfNat_word (bytesAfter_length m n a l w)

/-- Bytes without poison. -/
def unmarked (l : List Byte) : List (Byte × Bool) := l.map (fun b => (b, false))

theorem mergePoison_unmarked (a : Nat) (l : List Byte) (w : Nat) : mergePoison (bytesOnWord a (unmarked l) w) = false := by
  simp only [mergePoison, List.any_eq_false, bytesOnWord, List.mem_map]
  rintro _ ⟨i, -, rfl⟩
  split
  · rename_i x hx
    split at hx
    · exact nomatch hx
    · simp only [unmarked, List.getElem?_map, Option.map_eq_some_iff] at hx
      obtain ⟨b, -, rfl⟩ := hx
      simp
  · simp

/-- Merged with what the word holds, the bytes written replace theirs. -/
theorem mergeBytes_held (m : Memory) (n a : Nat) (l : List Byte) (w : Nat) :
    mergeBytes (heldBytes m n w) (bytesOnWord a (unmarked l) w) = bytesAfter m n a l w := by
  simp only [mergeBytes, heldBytes, bytesOnWord, bytesAfter, List.zipWith_map, List.zipWith_self, unmarked]
  refine List.map_congr_left fun i _ => ?_
  unfold byteAfter
  by_cases hlt : 8 * w + i < a
  · simp only [if_pos hlt]
  · simp only [if_neg hlt, List.getElem?_map]
    cases l[8 * w + i - a]? <;> rfl

/-- Bytes that cover the whole word do not depend on what it held. -/
theorem mergeBytes_whole {old old' : List Byte} {new : List (Option (Byte × Bool))} (hlen : old.length = old'.length)
    (h : new.all (fun x => x.isSome) = true) : mergeBytes old new = mergeBytes old' new := by
  induction new generalizing old old' with
  | nil => simp [mergeBytes]
  | cons x new ih =>
    simp only [List.all_cons, Bool.and_eq_true] at h
    obtain ⟨y, rfl⟩ := Option.isSome_iff_exists.mp h.1
    cases old with
    | nil => cases old' with
      | nil => rfl
      | cons c l => exact nomatch hlen
    | cons c old => cases old' with
      | nil => exact nomatch hlen
      | cons c' old' => exact congrArg (y.1 :: ·) (ih (Nat.succ_inj.mp hlen) h.2)

/-- Word `w` of `m'` holds the bytes `l` from `a` up over what `m` held, with a code that holds. -/
def wordStored (m m' : Memory) (n a : Nat) (l : List Byte) (w : Nat) : Prop :=
  tabGet 0 m'.synd w = 0 ∧ ∀ i, i < 8 → memByte? m' (8 * w + i) = some (byteAfter m n a l (8 * w + i))

/-- Word `w` is the same in both. -/
def wordKept (m m' : Memory) (w : Nat) : Prop :=
  tabGet 0 m'.synd w = tabGet 0 m.synd w ∧ ∀ i, i < 8 → memByte? m' (8 * w + i) = memByte? m (8 * w + i)

theorem wordKept_refl (m : Memory) (w : Nat) : wordKept m m w := ⟨rfl, fun _ _ => rfl⟩

theorem wordKept_trans {m m' m'' : Memory} {w : Nat} (h : wordKept m m' w) (k : wordKept m' m'' w) : wordKept m m'' w :=
  ⟨k.1.trans h.1, fun i hi => (k.2 i hi).trans (h.2 i hi)⟩

theorem clean_of_wordKept {m m' : Memory} {w : Nat} (h : wordKept m m' w) (hc : clean m w) : clean m' w := by
  obtain ⟨hsynd, hbytes⟩ := h
  refine ⟨?_, hsynd.trans hc.2⟩
  rw [← hc.1, neverWritten, neverWritten, Bool.eq_iff_iff, List.all_eq_true, List.all_eq_true]
  exact forall₂_congr fun i hi => by rw [hbytes i (List.mem_range.mp hi)]

/-- What is stored later goes by what the word holds. -/
theorem wordStored_of_wordKept {m m' m'' : Memory} {n a : Nat} {l : List Byte} {w : Nat} (h : wordKept m m' w)
    (k : wordStored m' m'' n a l w) : wordStored m m'' n a l w := by
  refine ⟨k.1, fun i hi => (k.2 i hi).trans ?_⟩
  rw [byteAfter, byteAfter, heldByte_of_memByte? (h.2 i hi)]

theorem wordStored_of_kept_after {m m' m'' : Memory} {n a : Nat} {l : List Byte} {w : Nat} (h : wordStored m m' n a l w)
    (k : wordKept m' m'' w) : wordStored m m'' n a l w :=
  ⟨k.1.trans h.1, fun i hi => (k.2 i hi).trans (h.2 i hi)⟩

theorem wordStored_putWord {m : Memory} (hwf : m.wf = true) (n a : Nat) (l : List Byte) (w : Nat) :
    wordStored m (putWord m w (wordAfter m n a l w) false) n a l w := by
  refine ⟨synd_putWord hwf w _ false, fun i hi => ?_⟩
  rw [memByte?_putWord_in m w _ false hi, bytesOfNat_wordAfter, bytesAfter, List.getElem?_map, List.getElem?_range hi]
  rfl

theorem wordKept_putWord {m : Memory} (hwf : m.wf = true) {w v : Nat} (d : Word64) (h : v ≠ w) : wordKept m (putWord m w d false) v :=
  ⟨synd_putWord_other hwf d false h, fun i hi => memByte?_putWord_out m w d false (by omega)⟩

/-! ## Writing words -/

/-- A merge into a word whose code holds: the word written, the merge counted. -/
theorem writeNarrow_clean {s : State} {w : Nat} (a : Nat) (l : List Byte) (hc : clean s.mem w) :
    ∃ p, writeNarrow s w (bytesOnWord a (unmarked l) w) =
      ({ s with mem := putWord s.mem w (wordAfter s.mem s.free a l w) false, prot := p }, false, false) := by
  have hsynd : decodeSyndrome (heldSyndrome s.mem s.free w) = .clean := by rw [heldSyndrome_clean hc]; rfl
  have hold : bytesOfNat 8 (heldWord s.mem s.free w).toNat = heldBytes s.mem s.free w := bytesOfNat_word (heldBytes_length _ _ _)
  unfold writeNarrow
  simp only [hsynd, readWord_clean hc, hold, mergeBytes_held, mergePoison_unmarked, writeWhole, Bool.false_and, Bool.false_eq_true,
    if_false]
  split <;> exact ⟨_, rfl⟩

/-- A word that the bytes cover is written whole. -/
theorem writeWhole_covered {s : State} {w a : Nat} {l : List Byte} (h : (bytesOnWord a (unmarked l) w).all (fun x => x.isSome) = true) :
    writeWhole s w (BitVec.ofNat 64 (natOfBytes (mergeBytes (List.replicate 8 0) (bytesOnWord a (unmarked l) w))))
      (mergePoison (bytesOnWord a (unmarked l) w)) = { s with mem := putWord s.mem w (wordAfter s.mem s.free a l w) false } := by
  have hlen : (List.replicate 8 (0 : Byte)).length = (heldBytes s.mem s.free w).length := by simp
  rw [mergeBytes_whole hlen h, mergeBytes_held, mergePoison_unmarked]
  rfl

/-- The first of the words: written whole, or merged. -/
theorem writeWords_succ_clean {s : State} {w : Nat} (n a : Nat) (l : List Byte) (hc : clean s.mem w) :
    ∃ p, writeWords (n + 1) s w a (unmarked l) =
      writeWords n { s with mem := putWord s.mem w (wordAfter s.mem s.free a l w) false, prot := p } (w + 1) a (unmarked l) := by
  by_cases hall : (bytesOnWord a (unmarked l) w).all (fun x => x.isSome) = true
  · refine ⟨s.prot, ?_⟩
    simp only [writeWords, if_pos hall, writeWhole_covered hall, Bool.false_or]
  · obtain ⟨p, hnarrow⟩ := writeNarrow_clean a l hc
    refine ⟨p, ?_⟩
    simp only [writeWords, if_neg hall, hnarrow, Bool.false_or]

/-- Bytes written over words whose codes hold stand in them, and every other word stays. -/
theorem writeWords_clean {n : Nat} {s : State} {w a : Nat} {l : List Byte} (hwf : s.mem.wf = true)
    (hc : ∀ v, w ≤ v → v < w + n → clean s.mem v) :
    ∃ m p, writeWords n s w a (unmarked l) = ({ s with mem := m, prot := p }, false, false) ∧
      (∀ v, w ≤ v → v < w + n → wordStored s.mem m s.free a l v) ∧ ∀ v, v < w ∨ w + n ≤ v → wordKept s.mem m v := by
  induction n generalizing s w with
  | zero => exact ⟨s.mem, s.prot, rfl, fun v h1 h2 => by omega, fun v _ => wordKept_refl s.mem v⟩
  | succ n ih =>
    obtain ⟨p, hfirst⟩ := writeWords_succ_clean n a l (hc w (Nat.le_refl w) (by omega))
    have hkept : ∀ v, v ≠ w → wordKept s.mem (putWord s.mem w (wordAfter s.mem s.free a l w) false) v :=
      fun v hv => wordKept_putWord hwf _ hv
    obtain ⟨m, q, hrest, hstored, hother⟩ := ih (s := { s with mem := putWord s.mem w _ false, prot := p }) (w := w + 1)
      (putWord_wf hwf w _ false) (fun v h1 h2 => clean_of_wordKept (hkept v (by omega)) (hc v (by omega) (by omega)))
    refine ⟨m, q, hfirst.trans hrest, fun v h1 h2 => ?_, fun v hv => ?_⟩
    · rcases Nat.eq_or_lt_of_le h1 with rfl | h1
      · exact wordStored_of_kept_after (wordStored_putWord hwf _ a l w) (hother w (.inl (by omega)))
      · exact wordStored_of_wordKept (hkept v (by omega)) (hstored v h1 (by omega))
    · exact wordKept_trans (hkept v (by omega)) (hother v (by omega))

/-! ## Writing through the home slices (R24, R90) -/

/-- Bytes that no running descriptor touches are in no race. -/
theorem raceWrites_apart {s : State} {others : List (Nat × Issued)} {l : List Run}
    (h : ∀ e ∈ others, runsMeet l e.2.sources = false ∧ runsMeet l e.2.dests = false) : raceWrites s others l = s := by
  unfold raceWrites
  induction others with
  | nil => rfl
  | cons e es ih =>
    obtain ⟨hsources, hdests⟩ := h e (List.mem_cons_self ..)
    simp only [List.foldl_cons, hsources, hdests, Bool.false_eq_true, if_false]
    exact ih fun x hx => h x (List.mem_cons_of_mem e hx)

/-- A write of whole bytes over words whose codes hold, where lines' tags hold and no running descriptor touches the bytes: it stores
them, and changes besides only the slices, the counts of merges and what the running programs see of it. -/
theorem writeThrough_clean {s : State} (who : Initiator) {a : Nat} {l : List Byte} (hwf : s.mem.wf = true) (hl : l ≠ [])
    (htag : s.cache.tagSynd = [])
    (hrace : ∀ e ∈ inFlight s, runsMeet [⟨a, l.length⟩] e.2.sources = false ∧ runsMeet [⟨a, l.length⟩] e.2.dests = false)
    (hc : ∀ w, a / 8 ≤ w → 8 * w < a + l.length → clean s.mem w) :
    ∃ m p u c, writeThrough s who a (unmarked l) = ({ s with mem := m, prot := p, uses := u, cache := c }, false, false) ∧
      (∀ w, a / 8 ≤ w → 8 * w < a + l.length → wordStored s.mem m s.free a l w) ∧
      ∀ w, w < a / 8 ∨ a + l.length ≤ 8 * w → wordKept s.mem m w := by
  have hne : unmarked l ≠ [] := by simpa [unmarked] using hl
  have hlen : (unmarked l).length = l.length := by simp [unmarked]
  obtain ⟨m, p, hwords, hstored, hkept⟩ := writeWords_clean (s := s) (w := a / 8) (a := a) (l := l)
    (n := (a + l.length + 7) / 8 - a / 8) hwf (fun v h1 h2 => hc v h1 (by omega))
  have hmarked : writeMarked s a (unmarked l) = ({ s with mem := m, prot := p }, false, false) := by
    rw [writeMarked, if_neg hne, hlen, hwords]
  have hdisturb : disturb { s with mem := m, prot := p } [⟨a, l.length⟩] = noteWritten { s with mem := m, prot := p } [⟨a, l.length⟩] :=
    raceWrites_apart hrace
  obtain ⟨c, hslices⟩ := sliceOnly_accessSlices (noteWritten { s with mem := m, prot := p } [⟨a, l.length⟩]) who a l.length true
  refine ⟨m, p, (noteWritten s [⟨a, l.length⟩]).uses, c, ?_, fun w h1 h2 => hstored w h1 (by omega), fun w hw => hkept w (by omega)⟩
  simp only [writeThrough, lookupTags, htag, if_true, hmarked, hlen, hdisturb, hslices]
  rfl

/-! ## HOME_SLICE_ACCESS -/

/-- Only a remote host's write may be an RDMA write that arrives (R258). -/
theorem arrivesFrom_inside (s : State) {who : Initiator} (a : Nat) (write : Option (List Byte)) (h : ∀ c, who ≠ .remote c) :
    arrivesFrom s who a write = none := by
  cases who with
  | remote c => exact absurd rfl (h c)
  | _ => rfl

/-- Only a remote host's access needs a registered region (R25). -/
theorem inRdmaRegion_inside (s : State) {who : Initiator} (write : Bool) (a len : Nat) (h : ∀ c, who ≠ .remote c) :
    inRdmaRegion s who write a len = true := by
  cases who with
  | remote c => exact absurd rfl (h c)
  | _ => rfl

/-- A write of the HBM range by a block of the module is served by the home slices (R154). -/
theorem exec_homeSliceAccess_hbm_write {s : State} {who : Initiator} {a : Nat} {l : List Byte} (hlen : 1 ≤ l.length)
    (hend : a + l.length ≤ hbmEnd) (hwho : ∀ c, who ≠ .remote c) (hstop : accessStopped s a l.length = false) :
    exec (.homeSliceAccess who a l.length (some l)) s = .next (noteChanges s (serveAccess s who a l.length (some l))) := by
  have hr : regionOf a = some .hbm := regionOf_of_lt_hbmEnd (by omega)
  simp only [exec_homeSliceAccess_eq, execHomeSliceAccess, hstop, Bool.false_eq_true, if_false, arrivesFrom_inside s a _ hwho,
    accessDetail_in_hbm s who _ hlen hend, hr, inRdmaRegion_inside s _ a l.length hwho, if_true, done]

theorem serveAccess_write {s t : State} {who : Initiator} {a : Nat} {l : List Byte}
    (h : writeThrough s who a (unmarked l) = (t, false, false)) : serveAccess s who a l.length (some l) = t := by
  simp only [serveAccess, List.take_length]
  rw [show l.map (fun b => (b, false)) = unmarked l from rfl, h]
  rfl

end Sys2Proof.Machine

namespace Sys2Proof.Proofs

open Sys2Proof Sys2Proof.Machine

/-- Settles O7: the words written hold the new bytes over what they held, and every other word is the same. -/
theorem homeSliceWriteStoresItsBytes : Obligations.HomeSliceWriteStoresItsBytes := by
  intro s who a l hwf hl _ hend hwho hstop htag hrace hc
  have hlen : 1 ≤ l.length := List.length_pos_iff.mpr hl
  obtain ⟨m, p, u, c, hwrite, hstored, hkept⟩ := writeThrough_clean who hwf hl htag hrace hc
  have hbyte : ∀ b, a / 8 ≤ b / 8 → 8 * (b / 8) < a + l.length → memByte? m b = some (byteAfter s.mem s.free a l b) := fun b h1 h2 => by
    have := (hstored (b / 8) h1 h2).2 (b % 8) (Nat.mod_lt b (by omega))
    rwa [Nat.div_add_mod] at this
  refine ⟨_, exec_homeSliceAccess_hbm_write hlen hend hwho hstop, ?_⟩
  rw [serveAccess_write hwrite]
  simp only [noteChanges_mem, noteChanges_banks, noteChanges_tiles, noteChanges_train, noteChanges_power, noteChanges_flash,
    noteChanges_boot, noteChanges_out, and_self, and_true]
  refine ⟨fun i hi => ?_, fun b hb => ?_, fun w h1 h2 => (hstored w h1 h2).1⟩
  · rw [hbyte (a + i) (by omega) (by omega), byteAfter, if_neg (by omega), Nat.add_sub_cancel_left, List.getElem?_eq_getElem hi]
    rfl
  · by_cases hin : a / 8 ≤ b / 8 ∧ 8 * (b / 8) < a + l.length
    · have hout : byteAfter s.mem s.free a l b = heldByte s.mem s.free b := by
        unfold byteAfter
        rcases hb with hb | hb
        · exact if_pos hb
        · rw [if_neg (by omega), List.getElem?_eq_none (by omega)]
          rfl
      rw [heldByte, hbyte b hin.1 hin.2]
      exact hout
    · have := (hkept (b / 8) (by omega)).2 (b % 8) (Nat.mod_lt b (by omega))
      rw [Nat.div_add_mod] at this
      exact heldByte_of_memByte? this

end Sys2Proof.Proofs
end

section
/-! What the commit of a step consists of, and that memory, links, slices, records and faults leave it (R47 to R51). -/

namespace Sys2Proof.Machine

open Sys2Proof

/-- What the boundary sets of the step's outcome, with the power system and the waiting commands, which it leaves. -/
def commitPart (s : State) : (Nat × Nat × CommitRecord × Bool × Option (Bool × Bool) × Bool) × Power × List Instr :=
  ((s.train.committed, s.train.boundarySeq, s.train.record, s.train.started, s.train.decision, s.train.cut), s.power, s.pending)

/-! ## Updates of one part -/

@[simp] theorem commitPart_onBoot (s : State) (f : Boot → Boot) : commitPart (s.onBoot f) = commitPart s := rfl
@[simp] theorem commitPart_onFlash (s : State) (f : Flash → Flash) : commitPart (s.onFlash f) = commitPart s := rfl
@[simp] theorem commitPart_onDict (s : State) (f : Dict → Dict) : commitPart (s.onDict f) = commitPart s := rfl
@[simp] theorem commitPart_onCache (s : State) (f : Cache → Cache) : commitPart (s.onCache f) = commitPart s := rfl
@[simp] theorem commitPart_onProt (s : State) (f : Protect → Protect) : commitPart (s.onProt f) = commitPart s := rfl
@[simp] theorem commitPart_onStack (s : State) (f : Stack → Stack) : commitPart (s.onStack f) = commitPart s := rfl
@[simp] theorem commitPart_onCracker (s : State) (f : Cracker → Cracker) : commitPart (s.onCracker f) = commitPart s := rfl
@[simp] theorem commitPart_onFabric (s : State) (f : Fabric → Fabric) : commitPart (s.onFabric f) = commitPart s := rfl
@[simp] theorem commitPart_onFront (s : State) (f : FrontEnd → FrontEnd) : commitPart (s.onFront f) = commitPart s := rfl
@[simp] theorem commitPart_onResil (s : State) (f : Resilience → Resilience) : commitPart (s.onResil f) = commitPart s := rfl
@[simp] theorem commitPart_onTile (s : State) (n : Nat) (f : Tile → Tile) : commitPart (onTile s n f) = commitPart s := rfl
@[simp] theorem commitPart_onQueue (s : State) (q : Nat) (f : Queue → Queue) : commitPart (onQueue s q f) = commitPart s := rfl
@[simp] theorem commitPart_onWork (s : State) (g : Nat) (f : GroupWork → GroupWork) : commitPart (onWork s g f) = commitPart s := rfl
@[simp] theorem commitPart_onLedger (s : State) (g : Nat) (f : GroupLedger → GroupLedger) : commitPart (onLedger s g f) = commitPart s := rfl
@[simp] theorem commitPart_onColl (s : State) (k : CollKey) (n : Nat) (f : Coll → Coll) : commitPart (onColl s k n f) = commitPart s := rfl
@[simp] theorem commitPart_emit (s : State) (o : Output) : commitPart (emit s o) = commitPart s := rfl
@[simp] theorem commitPart_withMem (s : State) (m : Memory) : commitPart { s with mem := m } = commitPart s := rfl

theorem commitPart_linkOnly {s t : State} (h : linkOnly s t) : commitPart t = commitPart s := by
  obtain ⟨_, _, _, _, rfl⟩ := h
  rfl

theorem commitPart_sliceOnly {s t : State} (h : sliceOnly s t) : commitPart t = commitPart s := by
  obtain ⟨_, rfl⟩ := h
  rfl

/-- Steps that leave it, one for each element of a list. -/
theorem commitPart_foldl {α : Type} {f : State → α → State} (hf : ∀ t x, commitPart (f t x) = commitPart t) (s : State) (l : List α) :
    commitPart (l.foldl f s) = commitPart s := by
  induction l generalizing s with
  | nil => rfl
  | cons x l ih => exact (ih _).trans (hf s x)

/-- The same, where the steps also gather something and the state is a part of what they carry. -/
theorem commitPart_foldl_of {α β : Type} (state : β → State) {f : β → α → β} (hf : ∀ y x, commitPart (state (f y x)) = commitPart (state y))
    (y : β) (l : List α) : commitPart (state (l.foldl f y)) = commitPart (state y) := by
  induction l generalizing y with
  | nil => rfl
  | cons x l ih => exact (ih _).trans (hf y x)

/-! ## Events, holding, links -/

@[simp] theorem commitPart_raise (s : State) (c : Code) (a : Nat) : commitPart (raise s c a) = commitPart s :=
  commitPart_linkOnly (linkOnly_raise s c a)

@[simp] theorem commitPart_sendPacket (s : State) (p : Packet) : commitPart (sendPacket s p) = commitPart s :=
  commitPart_linkOnly (linkOnly_sendPacket s p)

@[simp] theorem commitPart_stopModule (s : State) : commitPart (stopModule s) = commitPart s := rfl

@[simp] theorem commitPart_enterHolding (s : State) : commitPart (enterHolding s) = commitPart s := by
  unfold enterHolding
  split <;> simp

@[simp] theorem commitPart_leavePair (s : State) : commitPart (leavePair s) = commitPart s := by
  unfold leavePair
  split <;> simp

/-- Withholding a cut holds the module, and the step's outcome stays. -/
@[simp] theorem commitPart_withholdCut (s : State) : commitPart (withholdCut s) = commitPart s := by
  unfold withholdCut
  split
  · exact commitPart_enterHolding _
  · split
    · rfl
    · rw [commitPart_leavePair, commitPart_linkOnly (linkOnly_sendHoldNotices _), commitPart_enterHolding]
      rfl

@[simp] theorem commitPart_poisonEscape (s : State) : commitPart (poisonEscape s) = commitPart s := by
  have hmark : commitPart (s.onTrain (fun t => { t with escape := true })) = commitPart s := rfl
  unfold poisonEscape
  split
  · rfl
  · extract_lets s1 s2 s3
    split
    · simpa using hmark
    · have h2 : commitPart s2 = commitPart s := (commitPart_raise s1 _ _).trans hmark
      simp only [s3, commitPart_withholdCut]
      split
      · exact h2
      · exact h2

/-! ## Reads -/

@[simp] theorem commitPart_holdLine (s : State) (a : Nat) : commitPart (holdLine s a) = commitPart s := by
  simp only [holdLine]
  split <;> simp

@[simp] theorem commitPart_repairRowAt (s : State) (a : Nat) : commitPart (repairRowAt s a) = commitPart s := by
  unfold repairRowAt
  extract_lets bank row
  split
  · refine (commitPart_foldl (fun t e => ?_) _ _).trans (commitPart_onProt s _)
    dsimp only
    split
    · rfl
    · split
      · split
        · rfl
        · split <;> simp
      · rfl
  · rfl

@[simp] theorem commitPart_demandRow (s : State) (a : Nat) : commitPart (demandRow s a) = commitPart s := by
  unfold demandRow
  split <;> simp

@[simp] theorem commitPart_readWord (s : State) (w : Nat) : commitPart (readWord s w).2 = commitPart s := by
  simp only [readWord]
  split
  · split
    · rfl
    · rfl
    · dsimp only
      split
      · exact (commitPart_demandRow _ _).trans rfl
      · rfl
  · split
    · rfl
    · rfl
    · rfl
    · rfl
    · split <;> simp

@[simp] theorem commitPart_readWords (n : Nat) (s : State) (w : Nat) : commitPart (readWords n s w).2 = commitPart s := by
  induction n generalizing s w with
  | zero => rfl
  | succ n ih =>
    simp only [readWords]
    split <;> exact (ih _ _).trans (commitPart_readWord s w)

@[simp] theorem commitPart_readBytes (s : State) (a len : Nat) : commitPart (readBytes s a len).2 = commitPart s :=
  commitPart_readWords _ s _

@[simp] theorem commitPart_spoilWord (s : State) (w : Nat) : commitPart (spoilWord s w) = commitPart s := rfl

@[simp] theorem commitPart_lookupTags (s : State) (a len : Nat) : commitPart (lookupTags s a len) = commitPart s := by
  unfold lookupTags
  split
  · rfl
  · refine commitPart_foldl (fun t n => ?_) s _
    unfold lookupTag
    extract_lets drop
    have hdrop : ∀ u, commitPart (drop u) = commitPart u := fun _ => rfl
    clear_value drop
    split
    · rfl
    · exact hdrop _
    · exact hdrop _
    · exact (hdrop _).trans (commitPart_foldl (fun u i => commitPart_spoilWord u _) t _)

/-! ## Writes -/

@[simp] theorem commitPart_writeWhole (s : State) (w : Nat) (d : Word64) (p : Bool) : commitPart (writeWhole s w d p) = commitPart s := by
  unfold writeWhole
  dsimp only
  split <;> simp

@[simp] theorem commitPart_writeNarrow (s : State) (w : Nat) (new : List (Option (Byte × Bool))) :
    commitPart (writeNarrow s w new).1 = commitPart s := by
  unfold writeNarrow
  extract_lets a store merge d merged mark
  have hm : ∀ (t : State) (x : Word64) (b : Bool), commitPart (merge t x b) = commitPart t := fun t x b => by simp [merge]
  split
  · split
    · exact hm _ _ _
    · exact hm _ _ _
    · dsimp only
      split
      · exact (commitPart_demandRow _ _).trans (hm _ _ _)
      · exact hm _ _ _
  · have hr := commitPart_readWord s w
    split <;> rename_i e <;> rw [e] at hr
    · exact (hm _ _ _).trans hr
    · exact (hm _ _ _).trans hr
    · exact hr
    · exact hr

@[simp] theorem commitPart_writeWords (n : Nat) (s : State) (w a : Nat) (l : List (Byte × Bool)) :
    commitPart (writeWords n s w a l).1 = commitPart s := by
  induction n generalizing s w with
  | zero => rfl
  | succ n ih =>
    simp only [writeWords]
    split <;> simp [ih]

@[simp] theorem commitPart_writeMarked (s : State) (a : Nat) (l : List (Byte × Bool)) : commitPart (writeMarked s a l).1 = commitPart s := by
  unfold writeMarked
  split <;> simp

/-! ## Accesses through the home slices -/

@[simp] theorem commitPart_accessSlices (s : State) (who : Initiator) (a len : Nat) (write : Bool) :
    commitPart (accessSlices s who a len write) = commitPart s := commitPart_sliceOnly (sliceOnly_accessSlices s who a len write)

@[simp] theorem commitPart_disturb (s : State) (l : List Run) : commitPart (disturb s l) = commitPart s := by
  refine (commitPart_foldl (fun t e => ?_) (noteWritten s l) (inFlight s)).trans rfl
  dsimp only
  split <;> split <;> rfl

@[simp] theorem commitPart_readThrough (s : State) (who : Initiator) (a len : Nat) : commitPart (readThrough s who a len).2 = commitPart s := by
  simp [readThrough]

@[simp] theorem commitPart_writeThrough (s : State) (who : Initiator) (a : Nat) (l : List (Byte × Bool)) :
    commitPart (writeThrough s who a l).1 = commitPart s := by
  simp [writeThrough]

@[simp] theorem commitPart_putThrough (s : State) (who : Initiator) (a : Nat) (l : List Byte) : commitPart (putThrough s who a l) = commitPart s := by
  have h := commitPart_writeThrough s who a (l.map (fun b => (b, false)))
  unfold putThrough
  split
  rename_i e
  rw [e] at h
  split <;> simpa using h

@[simp] theorem commitPart_placeIn (s : State) (who : Initiator) (key place : Nat) (l : List (Byte × Bool)) :
    commitPart (placeIn s who key place l) = commitPart s := by
  unfold placeIn
  dsimp only
  split <;> simp

@[simp] theorem commitPart_readEach (who : Initiator) (len : Nat) (l : List Nat) (s : State) : commitPart (readEach who len l s).2 = commitPart s := by
  induction l generalizing s with
  | nil => rfl
  | cons a l ih => simp [readEach, ih]

/-! ## Saved records and exports (R271, R283, R284) -/

@[simp] theorem commitPart_sendOn (s : State) (c : Nat) (o : Output) : commitPart (sendOn s c o) = commitPart s := by
  unfold sendOn
  dsimp only
  split <;> simp

@[simp] theorem commitPart_egressWrites (conn rkey n : Nat) (s : State) (va : Nat) (l : List Byte) :
    commitPart (egressWrites conn rkey n s va l) = commitPart s := by
  induction n generalizing s va l with
  | zero => rfl
  | succ n ih =>
    unfold egressWrites
    split <;> simp [ih]

@[simp] theorem commitPart_startNext (s : State) (conn : Nat) : commitPart (startNext s conn) = commitPart s := by
  have hbegin : ∀ (t : State) (x : Export), commitPart (beginExport t x) = commitPart t := fun t x => by
    simp [beginExport, egressSend, replaceExport]
  unfold startNext
  split
  · rfl
  · split
    · rfl
    · dsimp only
      split <;> simp [hbegin]

@[simp] theorem commitPart_exportDue (s : State) : commitPart (exportDue s) = commitPart s := by
  unfold exportDue addExport
  split
  · split
    · rfl
    · dsimp only
      split <;> simp
  · rfl

@[simp] theorem commitPart_saveRecord (s : State) (r : Saved) : commitPart (saveRecord s r) = commitPart s := by
  have hsend : ∀ (t : State) (n : BitVec 24), commitPart (sendRecord t n r) = commitPart t := fun t n => by
    have hpackets := commitPart_foldl commitPart_sendPacket t
    unfold sendRecord
    dsimp only
    split <;> simp [hpackets]
  have hbuddy : commitPart (saveToBuddy s r) = commitPart s := by
    unfold saveToBuddy
    dsimp only
    split <;> split <;> simp [hsend]
  unfold saveRecord
  dsimp only
  split <;> split <;> simp [hbuddy]

/-! ## Faults, contributions and the steps of entries (R142, R241, R264) -/

@[simp] theorem commitPart_recordFault (s : State) (c : Code) (a : Nat) : commitPart (recordFault s c a) = commitPart s := by
  unfold recordFault
  dsimp only
  split
  · exact (commitPart_enterHolding _).trans (commitPart_raise s c a)
  · exact commitPart_raise s c a

@[simp] theorem commitPart_readRecord (s : State) (a len : Nat) : commitPart (readRecord s a len).2 = commitPart s := by
  unfold readRecord
  split
  · rfl
  · dsimp only
    split_ifs <;> simp

@[simp] theorem commitPart_groupCommand (s : State) (g coll : Nat) : commitPart (groupCommand s g coll).2 = commitPart s := by
  have h := commitPart_readRecord s coll 64
  unfold groupCommand
  split <;> rename_i e <;> rw [e] at h
  · dsimp only
    split
    · exact h
    · exact (commitPart_recordFault _ _ _).trans h
  · exact (commitPart_recordFault _ _ _).trans h
  · exact (commitPart_recordFault _ _ _).trans h

@[simp] theorem commitPart_ownValues (s : State) (c : Coll) (e n : Nat) : commitPart (ownValues s c e n).2 = commitPart s := by
  have hread : ∀ a, commitPart (readElems s c a n).2 = commitPart s := fun a => by
    unfold readElems
    dsimp only
    split <;> simp
  unfold ownValues
  dsimp only
  split <;> simp [hread]

@[simp] theorem commitPart_partialRowsOf (s : State) (bn : Nat) : commitPart (partialRowsOf s bn).2 = commitPart s := by
  refine commitPart_foldl_of Prod.snd (fun y row => ?_) ([], s) _
  dsimp only
  split <;> simp

@[simp] theorem commitPart_contribRecord (s : State) (k : CollKey) (step : Nat) : commitPart (contribRecord s k step).2 = commitPart s := by
  unfold contribRecord
  dsimp only
  split
  · exact commitPart_ownValues _ _ _ _
  · split
    · exact commitPart_partialRowsOf _ _
    · rfl

@[simp] theorem commitPart_sendReady (s : State) (k : CollKey) (step : Nat) (m : Option Summary) :
    commitPart (sendReady s k step m) = commitPart s := by
  unfold sendReady sendStep
  dsimp only
  split <;> simp

@[simp] theorem commitPart_fabricWrite (s : State) (a : Nat) (l : List (Byte × Bool)) : commitPart (fabricWrite s a l) = commitPart s := by
  have h := commitPart_writeThrough s .hazel a l
  unfold fabricWrite
  split
  rename_i e
  rw [e] at h
  split <;> simpa using h

@[simp] theorem commitPart_writeHeld (s : State) (k : CollKey) (step : Nat) : commitPart (writeHeld s k step) = commitPart s := by
  unfold writeHeld
  extract_lets c w s1
  have h1 : commitPart s1 = commitPart s := rfl
  clear_value s1
  exact (commitPart_foldl (fun u x => commitPart_fabricWrite u _ _) s1 _).trans h1

@[simp] theorem commitPart_settleOwn (s : State) (k : CollKey) (step : Nat) : commitPart (settleOwn s k step) = commitPart s := by
  unfold settleOwn
  extract_lets c own d known s1
  split
  · rfl
  · have h1 : commitPart s1 = commitPart s := by
      have hv := commitPart_ownValues s c 0 c.count
      simp only [s1]
      generalize ownValues s c 0 c.count = v at hv
      obtain ⟨l, t⟩ := v
      split
      · exact (commitPart_onFabric _ _).trans ((commitPart_placeIn _ _ _ _ _).trans hv)
      · rfl
    exact (commitPart_writeHeld s1 k step).trans h1

@[simp] theorem commitPart_issueReady (s : State) (k : CollKey) (m : Option Summary) : commitPart (issueReady s k m) = commitPart s := by
  have hrelease : ∀ t carrier, commitPart (releaseReadys t carrier) = commitPart t := fun t carrier =>
    commitPart_foldl (fun u c => (commitPart_settleOwn _ _ _).trans (commitPart_sendReady u _ _ _)) t _
  unfold issueReady
  dsimp only
  split <;> simp [hrelease]

@[simp] theorem commitPart_issueContribution (s : State) (g coll : Nat) (m : Option Summary) :
    commitPart (issueContribution s g coll m) = commitPart s := by
  unfold issueContribution openColl
  dsimp only
  split <;> simp

@[simp] theorem commitPart_finishGroups (s : State) (l : List (Nat × Nat)) : commitPart (finishGroups s l) = commitPart s := by
  refine commitPart_foldl (fun t x => ?_) s l
  split
  · rfl
  · dsimp only
    split <;> split <;> simp [openColl]

@[simp] theorem commitPart_endEntry (s : State) (q : Nat) (e : Entry) (outcome : Nat) (c : Code) :
    commitPart (endEntry s q e outcome c) = commitPart s := by
  unfold endEntry onEntry
  dsimp only
  split <;> simp

/-- Entries that complete with the fault of their step leave its outcome (R142). -/
@[simp] theorem commitPart_settleFault (s : State) : commitPart (settleFault s) = commitPart s := by
  have hunread : ∀ t, commitPart (replaceUnread t) = commitPart t := fun t => by
    unfold replaceUnread
    split
    · rfl
    · refine commitPart_foldl (fun u g => ?_) t _
      dsimp only
      split <;> simp
  unfold settleFault
  split
  · unfold failWaiting
    rw [hunread, commitPart_foldl (fun t x => commitPart_finishGroups t _), commitPart_foldl (fun t x => commitPart_endEntry t _ _ _ _)]
  · rfl

@[simp] theorem commitPart_joinStep (s : State) (q : Nat) (e : Entry) : commitPart (joinStep s q e) = commitPart s := by
  unfold joinStep
  extract_lets step twice s1 s2 carrier closed s3 badItem code
  have h1 : commitPart s1 = commitPart s := rfl
  have h2 : commitPart s2 = commitPart s := (commitPart_foldl (fun t x => commitPart_onWork t _ _) s1 _).trans h1
  have hclosed : commitPart closed = commitPart s := h2
  have h3 : commitPart s3 = commitPart s := by
    simp only [s3]
    split
    · split <;> simpa using hclosed
    · exact h2
  clear_value s3 code
  split <;> simpa using h3

@[simp] theorem commitPart_settleAll (s : State) : commitPart (settleAll s) = commitPart s := by
  have h : ∀ n t, commitPart (settleSteps n t) = commitPart t := by
    intro n
    induction n with
    | zero => exact fun t => rfl
    | succ n ih =>
      intro t
      unfold settleSteps
      split
      · rfl
      · split
        · rfl
        · split
          · exact (ih _).trans (commitPart_joinStep t _ _)
          · rfl
  exact h _ s

/-! ## Tables served and the twin's packets (R190, R191, R303, R304) -/

@[simp] theorem commitPart_servedBytes (r : TableRegion) (l : List Nat) (s : State) : commitPart (servedBytes r l s).2.2 = commitPart s := by
  induction l generalizing s with
  | nil => rfl
  | cons x l ih =>
    unfold servedBytes
    split <;> simp [ih]

@[simp] theorem commitPart_serveRequest (s : State) (p : Packet) (q : TableRequest) : commitPart (serveRequest s p q) = commitPart s := by
  unfold serveRequest
  dsimp only
  split
  · simp
  · split
    · simp
    · refine (commitPart_foldl (fun t x => commitPart_sendPacket t _) _ _).trans ?_
      simp [hazelRequests, onChannel]

@[simp] theorem commitPart_takeRequest (s : State) (p : Packet) : commitPart (takeRequest s p) = commitPart s := by
  have hsettle : ∀ t x, commitPart (takeRequest.settle t x) = commitPart t := fun t x => by
    unfold takeRequest.settle
    dsimp only
    split <;> simp
  unfold takeRequest
  dsimp only
  split <;> simp [hsettle]

@[simp] theorem commitPart_serveHeld (s : State) : commitPart (serveHeld s) = commitPart s :=
  (commitPart_foldl commitPart_takeRequest _ _).trans (commitPart_onCracker s _)

@[simp] theorem commitPart_takeEarlyTwin (s : State) : commitPart (takeEarlyTwin s) = commitPart s := by
  refine (commitPart_foldl (fun t x => ?_) _ _).trans (commitPart_onResil s _)
  unfold takeTwinNow compareTwins
  split_ifs <;> simp

/-! ## The effects that follow from the commit record (Table 2.7) -/

@[simp] theorem commitPart_setStageState (s : State) (g : Group) (i state row : Nat) : commitPart (setStageState s g i state row) = commitPart s :=
  commitPart_putThrough s _ _ _

@[simp] theorem commitPart_writeSlotEntry (s : State) (g : Group) : commitPart (writeSlotEntry s g) = commitPart s :=
  commitPart_putThrough s _ _ _

@[simp] theorem commitPart_flipSlots (s : State) : commitPart (flipSlots s) = commitPart s := by
  refine commitPart_foldl (fun t g => ?_) s _
  dsimp only
  split <;> simp

@[simp] theorem commitPart_freeStages (s : State) : commitPart (freeStages s) = commitPart s := by
  refine commitPart_foldl (fun t x => ?_) s _
  split <;> simp

@[simp] theorem commitPart_updateSilent (s : State) : commitPart (updateSilent s) = commitPart s := by
  refine commitPart_foldl (fun t g => ?_) s _
  split <;> simp

/-- Of the step's outcome, the commit record is set first. -/
theorem commitPart_commitOutcome (s : State) (r : CommitRecord) :
    commitPart (commitOutcome s r) = commitPart (s.onTrain (fun t => { t with record := r })) := by
  have hrecord : ∀ {t : State} (h : History) (a b : Nat), commitPart t = commitPart s →
      commitPart (t.onTrain (fun x => { x with record := r, history := h, skipTotal := a, skipRun := b })) =
        commitPart (s.onTrain (fun x => { x with record := r })) := by
    intro t h a b ht
    simp only [commitPart, Prod.mk.injEq] at ht
    simp [commitPart, ht]
  unfold commitOutcome
  extract_lets faulted s1
  have h1 : commitPart s1 = commitPart s := by
    simp only [s1, commitPart_freeStages]
    split <;> simp
  clear_value s1 faulted
  generalize historyAfter s1 r = x
  obtain ⟨h, low⟩ := x
  have h2 : commitPart (if low then raise s1 0x05000301 r.step else s1) = commitPart s := by
    split <;> simpa using h1
  dsimp only
  split
  · exact hrecord _ _ _ h2
  · exact (commitPart_updateSilent _).trans (hrecord _ _ _ h2)

@[simp] theorem commitPart_countLate (s : State) : commitPart (countLate s) = commitPart s := by
  refine commitPart_foldl (fun t g => commitPart_foldl (fun u slot => ?_) t _) s _
  extract_lets k n t1
  split
  · exact commitPart_raise t1 _ _
  · rfl

@[simp] theorem commitPart_writeLog (s : State) (step : Nat) (x : Nat × Nat × Nat × Nat × Nat) : commitPart (writeLog s step x) = commitPart s := by
  unfold writeLog
  extract_lets s1
  exact (commitPart_onFabric s1 _).trans (commitPart_putThrough s _ _ _)

/-! ## The staged set, epochs and retirements (R15, R44, R158, R214, R234) -/

@[simp] theorem commitPart_setLines (s : State) (g : Nat) (l : List Line) : commitPart (setLines s g l) = commitPart s := rfl

@[simp] theorem commitPart_limitHints (s : State) (g : Nat) : commitPart (limitHints s g) = commitPart s :=
  commitPart_setLines s g _

@[simp] theorem commitPart_hbmAccess (s : State) (line bytes : Nat) (write : Bool) : commitPart (hbmAccess s line bytes write) = commitPart s := rfl

@[simp] theorem commitPart_writeBackNow (s : State) (x : Line) : commitPart (writeBackNow s x) = commitPart s := by
  unfold writeBackNow
  split
  · rfl
  · exact (commitPart_hbmAccess _ _ _ _).trans (commitPart_onCache s _)

@[simp] theorem commitPart_displaceLines (n : Nat) (s : State) (g : Nat) : commitPart (displaceLines n s g) = commitPart s := by
  induction n generalizing s with
  | zero => rfl
  | succ n ih =>
    unfold displaceLines
    extract_lets l
    generalize chooseVictim l = x
    split
    · rfl
    · split
      · rw [ih, commitPart_writeBackNow, commitPart_setLines]
      · rfl

/-- The sets of the cache are brought to the room they have. -/
theorem commitPart_fitSets (s : State) (l : List (Nat × List Line)) :
    commitPart (l.foldl (fun (t : State) (e : Nat × List Line) => displaceLines e.2.length (limitHints t e.1) e.1) s) = commitPart s := by
  refine commitPart_foldl (fun t e => ?_) s l
  rw [commitPart_displaceLines, commitPart_limitHints]

@[simp] theorem commitPart_limitAllHints (s : State) (old : Tab Byte) : commitPart (limitAllHints s old) = commitPart s := by
  unfold limitAllHints
  split
  · rfl
  · refine commitPart_foldl (fun t e => ?_) s _
    exact commitPart_limitHints t e.1

@[simp] theorem commitPart_startPartitions (s : State) (old : List (Nat × Pinned)) : commitPart (startPartitions s old) = commitPart s := by
  unfold startPartitions
  extract_lets fresh
  split
  · rfl
  · exact (commitPart_fitSets _ _).trans (commitPart_withMem s _)

@[simp] theorem commitPart_welcomeGroups (s : State) (old : Tab Byte) : commitPart (welcomeGroups s old) = commitPart s := by
  refine commitPart_foldl (fun t g => ?_) s _
  extract_lets fresh t1
  have h1 : commitPart t1 = commitPart t := by
    simp only [t1]
    split
    · exact commitPart_onLedger t _ _
    · rfl
  split
  · exact (commitPart_writeSlotEntry t1 g).trans h1
  · exact h1

@[simp] theorem commitPart_applyStaged (s : State) : commitPart (applyStaged s) = commitPart s := by
  unfold applyStaged
  split
  · rfl
  · extract_lets writes s1 s2 s3
    have h1 : commitPart s1 = commitPart s := commitPart_onDict s _
    have h2 : commitPart s2 = commitPart s1 := (commitPart_limitAllHints _ _).trans (commitPart_startPartitions s1 _)
    have h3 : commitPart s3 = commitPart s2 := commitPart_withMem s2 _
    clear_value s3
    rw [commitPart_welcomeGroups, ← h1, ← h2, ← h3]
    rfl

@[simp] theorem commitPart_applyEpochs (s : State) (l : List EpochRecord) : commitPart (applyEpochs s l) = commitPart s := by
  unfold applyEpochs
  split <;> simp

@[simp] theorem commitPart_forgetTile (s : State) (n : Nat) : commitPart (forgetTile s n) = commitPart s := rfl

@[simp] theorem commitPart_logRetirements (s : State) (l : List Retirement) : commitPart (logRetirements s l) = commitPart s := rfl

@[simp] theorem commitPart_retireTile (s : State) (p : Nat) : commitPart (retireTile s p) = commitPart s := by
  unfold retireTile
  dsimp only
  split
  · rfl
  · split
    · simp
    · split
      · simp
      · split_ifs <;> simp

@[simp] theorem commitPart_retireSliceNow (s : State) (i : Nat) : commitPart (retireSliceNow s i) = commitPart s := by
  have hempty : commitPart (emptySlice s i) = commitPart s :=
    (commitPart_foldl commitPart_writeBackNow _ _).trans (commitPart_onCache s _)
  unfold retireSliceNow
  split
  · rfl
  · extract_lets s1
    have h1 : commitPart s1 = commitPart s := hempty
    clear_value s1
    generalize retireSlice s1.stack i = x
    obtain ⟨k, found⟩ := x
    dsimp -zeta only
    extract_lets s2 proxy
    have h2 : commitPart s2 = commitPart s := h1
    clear_value s2
    split
    · simpa using h2
    · split
      · simpa using h2
      · exact (commitPart_fitSets s2 _).trans h2

@[simp] theorem commitPart_applyRetirements (s : State) (tiles slices : NatSet) : commitPart (applyRetirements s tiles slices) = commitPart s := by
  unfold applyRetirements
  split
  · rfl
  · exact (commitPart_logRetirements _ _).trans
      ((commitPart_foldl commitPart_retireSliceNow _ _).trans (commitPart_foldl commitPart_retireTile s _))

/-! ## The end of the step (R268, R283, R285) -/

@[simp] theorem commitPart_releaseAll (s : State) (upTo : Nat) : commitPart (releaseAll s upTo) = commitPart s := by
  have hqueue : ∀ n q t, commitPart (releaseQueue n q t upTo) = commitPart t := by
    intro n q
    induction n with
    | zero => exact fun t => rfl
    | succ n ih =>
      intro t
      unfold releaseQueue
      dsimp only
      split
      · rfl
      · split
        · exact (ih _).trans ((commitPart_onQueue _ _ _).trans (commitPart_putThrough t _ _ _))
        · rfl
  exact commitPart_foldl (fun t q => hqueue _ q t) s _

@[simp] theorem commitPart_planesRecord (s : State) (kind step : Nat) (g : Group) : commitPart (planesRecord s kind step g).2 = commitPart s :=
  commitPart_readEach _ _ _ s

@[simp] theorem commitPart_deltaRecord (s : State) (step : Nat) (g : Group) : commitPart (deltaRecord s step g).2 = commitPart s := by
  unfold deltaRecord
  split
  · exact commitPart_planesRecord s 2 step g
  · extract_lets rows
    refine commitPart_foldl_of (fun y : List (Byte × Bool) × Bool × State => y.2.2) (fun y row => ?_) ([], false, s) rows
    exact commitPart_readEach _ _ _ y.2.2

@[simp] theorem commitPart_saveDelta (s : State) (step : Nat) : commitPart (saveDelta s step) = commitPart s := by
  unfold saveDelta
  split
  · rfl
  · extract_lets groups base
    have hrecords := commitPart_foldl_of (f := fun (a : List Saved × State) g =>
      let (r, t) := if base then planesRecord a.2 1 step g else deltaRecord a.2 step g
      (a.1 ++ r.toList.map (fun x => { x with fromStep := if base then step else s.resil.deltaStep + 1 }), t)) Prod.snd
      (fun y g => by dsimp only; split <;> simp) ([], s) groups
    split
    rename_i recs s1 e
    rw [e] at hrecords
    extract_lets saved bytes
    split
    · simpa using hrecords
    · exact (commitPart_foldl (fun t r => (commitPart_saveRecord _ r).trans (commitPart_placeIn t _ _ _ _)) _ _).trans hrecords

@[simp] theorem commitPart_saveStep (s : State) (step : Nat) (log : List Byte) : commitPart (saveStep s step log) = commitPart s := by
  have himage : ∀ t, commitPart (saveImage t) = commitPart t := fun t => by
    unfold saveImage
    dsimp only
    split <;> simp
  unfold saveStep
  extract_lets s1 s2
  have h2 : commitPart s2 = commitPart s1 := by
    refine commitPart_foldl (fun t g => ?_) s1 _
    have hp := commitPart_planesRecord t 6 step g
    split <;> rename_i e <;> rw [e] at hp
    · exact (commitPart_saveRecord _ _).trans hp
    · exact hp
  rw [himage, commitPart_saveDelta, h2]
  exact commitPart_saveRecord s _

/-! ## The boundary (R41, R47 to R51) -/

/-- The work of a step goes, its decision and its cut with it. -/
theorem commitPart_clearStep (s : State) :
    commitPart (clearStep s) = ((s.train.committed, s.train.boundarySeq, s.train.record, s.train.started, none, false), s.power, s.pending) := by
  unfold clearStep
  extract_lets s1 s2 s3 s4
  have h1 : commitPart s1 = ((s.train.committed, s.train.boundarySeq, s.train.record, s.train.started, none, false), s.power, s.pending) := rfl
  have h3 : commitPart s3 = commitPart s1 := (commitPart_onStack _ _).trans ((commitPart_onCracker s2 _).trans (commitPart_onFabric s1 _))
  clear_value s3
  rw [commitPart_onResil, commitPart_onFront, ← h1, ← h3]
  rfl

/-- The boundary commits the current step with its record, and leaves the power system and the waiting commands. -/
theorem commitPart_runBoundary (s : State) (n : Nat) :
    commitPart (runBoundary s n) =
      ((currentStep s, s.train.boundarySeq + 2, commitRecordOf s, true, none, false), s.power, s.pending) := by
  unfold runBoundary
  extract_lets step r l log tiles slices epochs s1 s2 carrier s3 s4 s5 s6 s7
  have h1 : commitPart s1 = commitPart (s.onTrain (fun t => { t with record := r })) :=
    (commitPart_countLate _).trans (commitPart_commitOutcome s r)
  have h2 : commitPart s2 = commitPart s1 := commitPart_foldl (fun t x => commitPart_writeLog t step x) s1 l
  have h3 : commitPart s3 = commitPart s2 := by
    simp [s3, dropRemoved, carryDeferred]
  have h4 : commitPart s4 = commitPart s3 := commitPart_applyRetirements s3 tiles slices
  have hpart := h4.trans (h3.trans (h2.trans h1))
  clear_value s4
  simp only [commitPart, onTrain_train, onTrain_power, onTrain_pending, Prod.mk.injEq] at hpart
  obtain ⟨⟨-, hseq, hrecord, -, -, -⟩, hpower, hpending⟩ := hpart
  have h6 : commitPart s6 = ((step, s4.train.boundarySeq + 2, s4.train.record, true, none, false), s4.power, s4.pending) :=
    (commitPart_releaseAll _ _).trans (commitPart_clearStep s5)
  have h7 : commitPart s7 = commitPart s6 := (commitPart_onResil _ _).trans (commitPart_saveStep s6 step log)
  rw [commitPart_takeEarlyTwin, commitPart_serveHeld, commitPart_settleAll, h7, h6, hseq, hrecord, hpower, hpending]

/-! ## The row (Table 2.7, R290) -/

theorem exec_stepBoundary_waits {s : State} {n : Nat} (h : boundaryReady s = false) : exec (.stepBoundary n) s = .next s :=
  if_pos h

theorem exec_stepBoundary {s : State} {n : Nat} (h : boundaryReady s = true) (hheld : s.resil.heldRecord = none) :
    exec (.stepBoundary n) s = .next (noteChanges s (runBoundary s n)) := by
  show execStepBoundary n s = _
  simp only [execStepBoundary, h, hheld]
  rfl

theorem exec_stepBoundary_recovers {s : State} {n : Nat} {l : List Byte} {r : RecoveryRecord} (h : boundaryReady s = true)
    (hheld : s.resil.heldRecord = some l) (hr : recoveryOf (runBoundary s n) l = .ok r) :
    exec (.stepBoundary n) s = .next (noteChanges s (recoveryBoundary (runBoundary s n) r)) := by
  show execStepBoundary n s = _
  simp only [execStepBoundary, h, hheld, hr]
  rfl

/-! ## The loss-scale history (R75) -/

/-- A non-finite step lowers `k` within its range and enters the ring. -/
theorem historyAfter_nonfinite (s : State) {r : CommitRecord} (hr : r.nonfinite = true) :
    (historyAfter s r).1 = { s.train.history with
      ring := tabSet 0 s.train.history.ring s.train.history.ringNext r.step
      ringNext := (s.train.history.ringNext + 1) % 64
      ringFill := min (s.train.history.ringFill + 1) 64
      overflowTotal := s.train.history.overflowTotal + 1
      scaleExp := max (s.train.history.scaleExp - 1) (cfg s 0x480104)
      cleanSteps := 0
      wideLeft := s.train.history.wideLeft - 1 } := by
  simp [historyAfter, hr]

/-- A clean step that fills the interval raises `k` below its maximum. -/
theorem historyAfter_grows (s : State) {r : CommitRecord} (hr : r.nonfinite = false) (ha : r.applied = true)
    (hgrow : cfg s 0x480103 ≤ s.train.history.cleanSteps + 1 ∧ s.train.history.scaleExp < cfg s 0x480105) :
    (historyAfter s r).1 = { s.train.history with
      scaleExp := s.train.history.scaleExp + 1, cleanSteps := 0, wideLeft := s.train.history.wideLeft - 1 } := by
  simp [historyAfter, hr, ha, hgrow]

/-- Any other clean step counts, and at the maximum the count stays at the interval. -/
theorem historyAfter_counts (s : State) {r : CommitRecord} (hr : r.nonfinite = false) (ha : r.applied = true)
    (hgrow : ¬(cfg s 0x480103 ≤ s.train.history.cleanSteps + 1 ∧ s.train.history.scaleExp < cfg s 0x480105)) :
    (historyAfter s r).1 = { s.train.history with
      cleanSteps := if s.train.history.scaleExp = cfg s 0x480105 then min (s.train.history.cleanSteps + 1) (cfg s 0x480103)
        else s.train.history.cleanSteps + 1
      wideLeft := s.train.history.wideLeft - 1 } := by
  simp only [historyAfter, hr, ha, if_neg hgrow]
  rfl

/-- A step that is not applied uses up one wide step and nothing else. -/
theorem historyAfter_skipped (s : State) {r : CommitRecord} (hr : r.nonfinite = false) (ha : r.applied = false) :
    (historyAfter s r).1 = { s.train.history with wideLeft := s.train.history.wideLeft - 1 } := by
  simp [historyAfter, hr, ha]

/-- Every step uses up one wide step and keeps the range and the interval, and only a non-finite one enters the ring. -/
theorem historyAfter_frame (s : State) (r : CommitRecord) :
    (historyAfter s r).1.wideLeft = s.train.history.wideLeft - 1 ∧ (historyAfter s r).1.minExp = s.train.history.minExp ∧
    (historyAfter s r).1.maxExp = s.train.history.maxExp ∧ (historyAfter s r).1.growth = s.train.history.growth ∧
    (r.nonfinite = false → (historyAfter s r).1.ring = s.train.history.ring ∧
      (historyAfter s r).1.overflowTotal = s.train.history.overflowTotal) := by
  cases hr : r.nonfinite with
  | true => simp [historyAfter_nonfinite s hr]
  | false =>
    cases ha : r.applied with
    | false => simp [historyAfter_skipped s hr ha]
    | true =>
      by_cases hgrow : cfg s 0x480103 ≤ s.train.history.cleanSteps + 1 ∧ s.train.history.scaleExp < cfg s 0x480105
      · simp [historyAfter_grows s hr ha hgrow]
      · simp [historyAfter_counts s hr ha hgrow]

end Sys2Proof.Machine

namespace Sys2Proof.Proofs

open Sys2Proof Sys2Proof.Machine

/-- Settles O46: nothing that the boundary calls touches the commit, which it sets once; the history goes by the flags of its record. -/
theorem boundaryCommitsTheStep : Obligations.BoundaryCommitsTheStep := by
  refine ⟨⟨fun s n h => exec_stepBoundary_waits h, fun s n h hheld => ?_, fun s n l r h hheld hr => exec_stepBoundary_recovers h hheld hr⟩,
    fun s r => ⟨fun hr => ?_, fun hr ha hn hk => ?_, fun hr ha hn => ?_, fun hr ha => historyAfter_skipped s hr ha, historyAfter_frame s r⟩⟩
  · have hpart := commitPart_runBoundary s n
    simp only [commitPart, Prod.mk.injEq] at hpart
    obtain ⟨⟨hcommitted, hseq, hrecord, hstarted, hdecision, hcut⟩, hpower, hpending⟩ := hpart
    refine ⟨_, exec_stepBoundary h hheld, ?_⟩
    simp only [noteChanges_train, noteChanges_power, noteChanges_pending]
    exact ⟨hcommitted, hseq, hrecord, hstarted, hdecision, hcut, hpower, hpending⟩
  · simp [historyAfter_nonfinite s hr]
  · simp [historyAfter_grows s hr ha ⟨hn, hk⟩]
  · have hmin : min (s.train.history.cleanSteps + 1) (cfg s 0x480103) = s.train.history.cleanSteps + 1 := min_eq_left hn.le
    simp [historyAfter_counts s hr ha (fun hgrow => absurd hgrow.1 (by omega)), hmin]

end Sys2Proof.Proofs
end

section
/-! What MATMUL accumulates, when the lines of its operands and its start values are read (R62, R98 to R101, R113). -/

namespace Sys2Proof.Machine

open Sys2Proof

/-! ## Work that gives its values and leaves the state -/

theorem Got.andThen_ok {α β : Type} (a : α) (s : State) (f : α → State → Got β × State) :
    Got.andThen (.ok a, s) f = f a s := rfl

theorem Got.each_ok {α β : Type} {f : α → State → Got β × State} {g : α → β} {s : State} {l : List α}
    (h : ∀ x ∈ l, f x s = (.ok (g x), s)) : Got.each f l s = (.ok (l.map g), s) := by
  induction l with
  | nil => rfl
  | cons x l ih =>
    have hx : f x s = (.ok (g x), s) := h x List.mem_cons_self
    have hl : Got.each f l s = (.ok (l.map g), s) := ih fun y hy => h y (List.mem_cons_of_mem x hy)
    simp only [Got.each, hx, hl, List.map_cons]

/-! ## The lines and the elements of a MATMUL (R98, R101) -/

/-- Reads that leave the state gather the lines of an operand by their number. -/
theorem readLines_ok {n profile : Nat} {x : Operand} {line : Nat → List FNum × Bool} {s : State}
    (h : ∀ i, i < x.lines → readLine n profile x i s = (.ok (line i), s)) :
    Got.each (fun i t => readLine n profile x i t) (List.range x.lines) s = (.ok ((List.range x.lines).map line), s) :=
  Got.each_ok fun i hi => h i (List.mem_range.mp hi)

/-- The elements of a region of C pair the lines of A with the lines of B. -/
theorem mem_elements {rows cols : Nat} {e : Nat × Nat} :
    e ∈ (List.range rows).flatMap (fun i => (List.range cols).map (fun j => (i, j))) ↔ e.1 < rows ∧ e.2 < cols := by
  obtain ⟨i, j⟩ := e
  simp

/-- The entry of C that element `e` gets from line `e.1` of A, line `e.2` of B and its start value: its place in the bank, its bits and
its poison. -/
def elementOut (n : Nat) (m : Mat) (x : Context) (a b : Nat → List FNum × Bool) (acc : Nat → FNum × Bool) (e : Nat × Nat) :
    Nat × Nat × Bool :=
  let start := acc (512 * e.1 + 4 * e.2)
  (bankAt n m.bank (512 * e.1 + 4 * e.2) / 4,
    encodeNum 7 (accumulate (m.a.eng == 4) (groupSize x.profile m.a.eng) m.a.depth start.1 (a e.1).1 (b e.2).1), start.2)

/-- With lines and start values that are read and leave the state, a MATMUL gives every element its own entry. -/
theorem matmulOuts_ok {s : State} {n : Nat} {m : Mat} {x : Context} {a b : Nat → List FNum × Bool} {acc : Nat → FNum × Bool}
    (ha : ∀ i, i < m.a.lines → readLine n x.profile m.a i s = (.ok (a i), s))
    (hb : ∀ j, j < m.b.lines → readLine n x.profile m.b j s = (.ok (b j), s))
    (hacc : ∀ i j, i < m.a.lines → j < m.b.lines → startValue n m (512 * i + 4 * j) s = (.ok (acc (512 * i + 4 * j)), s)) :
    matmulOuts n m x s = (.ok (
      ((List.range m.a.lines).flatMap (fun i => (List.range m.b.lines).map (fun j => (i, j)))).map (elementOut n m x a b acc),
      (List.range m.a.lines).map (fun i => (a i).2), (List.range m.b.lines).map (fun j => (b j).2)), s) := by
  simp only [matmulOuts, readLines_ok ha, readLines_ok hb, Got.andThen_ok]
  rw [Got.each_ok (g := elementOut n m x a b acc) fun e he => ?_]
  · simp [Got.andThen_ok, Function.comp_def]
  · obtain ⟨hi, hj⟩ := mem_elements.mp he
    simp [hacc e.1 e.2 hi hj, Got.andThen_ok, elementOut, List.getD_eq_getElem?_getD, hi, hj]

end Sys2Proof.Machine

namespace Sys2Proof.Proofs

open Sys2Proof Sys2Proof.Machine

/-- Settles O19: no read changes the state, so the lines of A, the lines of B and the elements are gathered one after another, each
element from the two lines of its numbers and its own start value. -/
theorem matmulAccumulatesEachElement : Obligations.MatmulAccumulatesEachElement :=
  fun _ _ _ _ _ _ _ ha hb hacc => matmulOuts_ok ha hb hacc

end Sys2Proof.Proofs
end

section
/-! How a tile's sequencer takes the descriptor at its program counter (R84 to R96, R114, R115). -/

namespace Sys2Proof.Machine

open Sys2Proof

/-! ## The descriptor at the program counter (R86 to R88) -/

section
variable {s s1 : State} {n d : Nat} {kind : Nat → Bool} {prep : Nat → State → Got Issue × State} {x : Issue}

/-- A tile that does not issue stays as it is, whatever the row. -/
theorem runDescriptor_silent (h : tileIssues s n = false) : runDescriptor n kind prep s = s := if_pos h

/-- A reserved operation traps, whatever the row. -/
theorem runDescriptor_reserved (hat : atCounter s n d)
    (h : opKnown (bitsAt d 0 8) = false ∨ (bitsAt d 0 8 = 0x20 ∧ vopKnown (bitsAt d 64 8) = false)) :
    runDescriptor n kind prep s = trapHere s n (malformed 0x01) := by
  obtain ⟨hissues, hfetch⟩ := hat
  simp only [runDescriptor, hissues, Bool.true_eq_false, if_false, hfetch, if_pos h]

/-- A descriptor of the row's kind, with a well-formed header, that passes its row's checks goes on to its issue. -/
theorem runDescriptor_checked (hat : atCounter s n d) (hop : opKnown (bitsAt d 0 8) = true)
    (hvop : bitsAt d 0 8 = 0x20 → vopKnown (bitsAt d 64 8) = true) (hkind : kind d = true) (hbit : bitAt d 11 = false)
    (hsignal : bitAt d 17 = true → bitsAt d 22 10 < logicalTiles s) (hprep : prep d s = (.ok x, s)) :
    runDescriptor n kind prep s = issueChecked s n d x := by
  obtain ⟨hissues, hfetch⟩ := hat
  have hknown : ¬ (opKnown (bitsAt d 0 8) = false ∨ (bitsAt d 0 8 = 0x20 ∧ vopKnown (bitsAt d 64 8) = false)) := by
    rintro (h | ⟨h, hv⟩)
    · exact absurd (hop.symm.trans h) Bool.noConfusion
    · exact absurd ((hvop h).symm.trans hv) Bool.noConfusion
  have htarget : ¬ (bitAt d 17 = true ∧ logicalTiles s ≤ bitsAt d 22 10) := fun h => Nat.not_le_of_lt (hsignal h.1) h.2
  simp only [runDescriptor, hissues, Bool.true_eq_false, if_false, hfetch, if_neg hknown, hkind, hbit, Bool.false_eq_true,
    if_neg htarget, hprep]

/-! ## Issue (R88 to R91, R93, R314) -/

/-- A fence that is not met holds the descriptor (R93). -/
theorem issueChecked_fenced (h : fencesMet (tileOf s n) d = false) :
    issueChecked s n d x = onTile s n (fun t => { t with state := 1, hold := some 8 }) := if_pos h

/-- A counter condition that does not hold makes the tile wait for the counter (R88). -/
theorem issueChecked_counter (hfence : fencesMet (tileOf s n) d = true) (h : counterMet (tileOf s n) d = false) :
    issueChecked s n d x =
      onTile s n (fun t => { t with state := 2, wait := (bitsAt d 12 4, bitsAt d 32 32), hold := some 8 }) := by
  simp only [issueChecked, hfence, h, Bool.true_eq_false, if_false, if_true]

/-- A closed row gate holds a descriptor of an engine (R314). -/
theorem issueChecked_gated (hhead : headerMet s n d) (hfree : hazardFree (tileOf s n) x.foot = true) (heng : x.engine ≠ 3)
    (hgate : gateOpen s n = false) :
    issueChecked s n d x = onTile s n (fun t => { t with state := 1, hold := some 9 }) := by
  obtain ⟨-, -, hfence, hcounter⟩ := hhead
  simp only [issueChecked, hfence, hcounter, hfree, Bool.true_eq_false, if_false, if_pos (And.intro heng hgate)]

/-- A descriptor that nothing holds and whose work ends without a fault is issued. -/
theorem issueChecked_issued (hhead : headerMet s n d) (hfree : hazardFree (tileOf s n) x.foot = true)
    (hgate : x.engine = 3 ∨ gateOpen s n = true) (hrun : x.run s = (.ok (), s1)) : issueChecked s n d x = issued s1 n d x none := by
  obtain ⟨-, -, hfence, hcounter⟩ := hhead
  have hopen : ¬ (x.engine ≠ 3 ∧ gateOpen s n = false) := by
    rintro ⟨heng, hclosed⟩
    rcases hgate with h | h
    · exact heng h
    · exact absurd (h.symm.trans hclosed) Bool.noConfusion
  simp only [issueChecked, hfence, hcounter, hfree, Bool.true_eq_false, if_false, if_neg hopen, hrun]

/-- The sequencer passes a descriptor that it runs itself. -/
theorem issued_passed {f : Tile → Tile} (heng : x.engine = 3) (hnamed : x.named = []) :
    issued (onTile s n f) n d x none = passed s n d f x.sources := by
  simp only [issued, heng, if_true, hnamed]
  rfl

/-- An engine's descriptor is launched. -/
theorem issued_launched (heng : x.engine ≠ 3) : issued s1 n d x none = launched s1 n d x := by
  simp only [issued, if_neg heng]
  rfl

/-- A sequencer's descriptor of operation `op` that its row accepts and nothing holds has its effect, and is passed. -/
theorem runDescriptor_passed {op : Nat} {f : Tile → Tile} {reads : List Run} (hat : atCounter s n d) (hhead : headerMet s n d) (hd : bitsAt d 0 8 = op)
    (hop : opKnown op = true) (hvector : op ≠ 0x20) (hprep : prep d s = (.ok x, s)) (heng : x.engine = 3) (hnamed : x.named = [])
    (hreads : x.sources = reads) (hfree : hazardFree (tileOf s n) x.foot = true) (hrun : x.run s = (.ok (), onTile s n f)) :
    runDescriptor n (opIs op) prep s = passed s n d f reads := by
  have ⟨hbit, hsignal, _, _⟩ := hhead
  have hkind : opIs op d = true := by rw [opIs, hd, beq_self_eq_true]
  rw [runDescriptor_checked hat (hd ▸ hop) (fun h => absurd (hd.symm.trans h) hvector) hkind hbit hsignal hprep,
    issueChecked_issued hhead hfree (.inl heng) hrun, issued_passed heng hnamed, hreads]

end

/-! ## What passing a descriptor leaves of its tile (R91, R94) -/

@[simp] theorem setReg_loops (t : Tile) (r v : Nat) : (setReg t r v).loops = t.loops := by unfold setReg; split <;> rfl
@[simp] theorem setReg_state (t : Tile) (r v : Nat) : (setReg t r v).state = t.state := by unfold setReg; split <;> rfl
@[simp] theorem setReg_descriptors (t : Tile) (r v : Nat) : (setReg t r v).descriptors = t.descriptors := by unfold setReg; split <;> rfl
@[simp] theorem setReg_nextNumber (t : Tile) (r v : Nat) : (setReg t r v).nextNumber = t.nextNumber := by unfold setReg; split <;> rfl
@[simp] theorem setReg_counters (t : Tile) (r v : Nat) : (setReg t r v).counters = t.counters := by unfold setReg; split <;> rfl

/-- What a register write puts into the registers depends on nothing else of the tile. -/
theorem setReg_regs_congr {t u : Tile} (h : t.regs = u.regs) (r v : Nat) : (setReg t r v).regs = (setReg u r v).regs := by
  unfold setReg
  split
  · exact h
  · exact congrArg (fun l => listSet l r (BitVec.ofNat 64 v)) h

theorem regVal_congr {t u : Tile} (h : t.regs = u.regs) (r : Nat) : regVal t r = regVal u r := by
  simp only [regVal, h]

/-- Writes of registers, one after another, whose values depend on the registers alone. -/
def setRegs (val : Tile → LoopSlot → Nat) (t : Tile) (l : List LoopSlot) : Tile := l.foldl (fun u x => setReg u x.reg (val u x)) t

/-- What no register write changes, no list of them changes. -/
theorem setRegs_keeps {α : Type} {f : Tile → α} (hf : ∀ u r v, f (setReg u r v) = f u) (val : Tile → LoopSlot → Nat) (t : Tile)
    (l : List LoopSlot) : f (setRegs val t l) = f t := by
  induction l generalizing t with
  | nil => rfl
  | cons x l ih => exact (ih _).trans (hf _ _ _)

theorem setRegs_regs_congr {val : Tile → LoopSlot → Nat} (hval : ∀ t u x, t.regs = u.regs → val t x = val u x) {t u : Tile}
    (h : t.regs = u.regs) (l : List LoopSlot) : (setRegs val t l).regs = (setRegs val u l).regs := by
  induction l generalizing t u with
  | nil => exact h
  | cons x l ih => exact ih ((setReg_regs_congr h _ _).trans (by rw [hval t u x h]))

/-- What the innermost loop's increments add to (R94). -/
def addedTo (t : Tile) (x : LoopSlot) : Nat := regVal t x.reg + x.inc.toNat

/-- What a register held when its loop was entered (R94). -/
def atEntry (_ : Tile) (x : LoopSlot) : Nat := x.entry.toNat

/-- No open loop ends here: the sequencer goes on behind the descriptor. -/
theorem leaveLoops_inside {pc : Nat} {ls : List Loop} {t : Tile} (h : ∀ o ∈ ls, o.last ≠ pc) :
    leaveLoops pc ls t = { t with loops := ls, pc := (pc + 64) % 2 ^ 64 } := by
  cases ls with
  | nil => rfl
  | cons o os => exact if_neg (h o (List.mem_cons_self ..))

/-- The innermost loop ends here and has iterations left: its increments are added, and its body starts again. -/
theorem leaveLoops_again {pc : Nat} {l : Loop} {ls : List Loop} {t : Tile} (hlast : l.last = pc) (hleft : 1 < l.left) :
    leaveLoops pc (l :: ls) t =
      { setRegs addedTo t l.slots with loops := { l with left := l.left - 1, done := l.done + 1 } :: ls, pc := l.first } :=
  (if_pos hlast).trans (if_pos hleft)

/-- The innermost loop ends here with its last iteration: its registers return to their values at entry, and it is left. -/
theorem leaveLoops_last {pc : Nat} {l : Loop} {ls : List Loop} {t : Tile} (hlast : l.last = pc) (hleft : l.left ≤ 1) :
    leaveLoops pc (l :: ls) t = leaveLoops pc ls (setRegs atEntry t l.slots) :=
  (if_pos hlast).trans (if_neg (Nat.not_lt_of_le hleft))

/-- Leaving a descriptor changes loops, program counter and registers alone. -/
theorem leaveLoops_keeps {α : Type} {f : Tile → α} (hreg : ∀ u r v, f (setReg u r v) = f u)
    (hplace : ∀ (u : Tile) ls pc, f { u with loops := ls, pc := pc } = f u) (pc : Nat) (ls : List Loop) (t : Tile) :
    f (leaveLoops pc ls t) = f t := by
  induction ls generalizing t with
  | nil => exact hplace t _ _
  | cons l ls ih =>
    by_cases hlast : l.last = pc
    · by_cases hleft : 1 < l.left
      · rw [leaveLoops_again hlast hleft, hplace, setRegs_keeps hreg]
      · rw [leaveLoops_last hlast (Nat.le_of_not_lt hleft), ih, setRegs_keeps hreg]
    · rw [show leaveLoops pc (l :: ls) t = { t with loops := l :: ls, pc := (pc + 64) % 2 ^ 64 } from if_neg hlast, hplace]

/-- The tile once its descriptor is counted, before the sequencer leaves it. -/
def countedTile (t : Tile) : Tile :=
  { t with state := 1, hold := none, nextNumber := t.nextNumber + 1, descriptors := t.descriptors + 1 }

/-- The sequencer leaves a descriptor by way of the open loops that end there. -/
theorem sequenced_eq (t : Tile) : sequenced t = leaveLoops t.pc t.loops (countedTile t) := rfl

@[simp] theorem sequenced_state (t : Tile) : (sequenced t).state = 1 :=
  leaveLoops_keeps (f := Tile.state) setReg_state (fun _ _ _ => rfl) _ _ _

@[simp] theorem sequenced_descriptors (t : Tile) : (sequenced t).descriptors = t.descriptors + 1 :=
  leaveLoops_keeps (f := Tile.descriptors) setReg_descriptors (fun _ _ _ => rfl) _ _ _

@[simp] theorem sequenced_nextNumber (t : Tile) : (sequenced t).nextNumber = t.nextNumber + 1 :=
  leaveLoops_keeps (f := Tile.nextNumber) setReg_nextNumber (fun _ _ _ => rfl) _ _ _

@[simp] theorem sequenced_counters (t : Tile) : (sequenced t).counters = t.counters :=
  leaveLoops_keeps (f := Tile.counters) setReg_counters (fun _ _ _ => rfl) _ _ _

/-! ## Base registers (R84) -/

theorem getD_listSet {α : Type} (l : List α) (i j : Nat) (v d : α) :
    (listSet l i v).getD j d = if i = j ∧ i < l.length then v else l.getD j d := by
  induction l generalizing i j with
  | nil => simp [listSet]
  | cons x l ih => cases i <;> cases j <;> simp_all [listSet]

/-- b15 is written to no effect. -/
@[simp] theorem setReg_zero (t : Tile) (v : Nat) : setReg t 15 v = t := if_pos rfl

/-- b15 reads as zero. -/
@[simp] theorem regVal_zero (t : Tile) : regVal t 15 = 0 := if_pos rfl

theorem regVal_setReg_self {t : Tile} {r : Nat} (v : Nat) (hr : r ≠ 15) (hlen : r < t.regs.length) :
    regVal (setReg t r v) r = v % 2 ^ 64 := by
  simp only [regVal, setReg, if_neg hr, getD_listSet, true_and, if_pos hlen, BitVec.toNat_ofNat]

theorem regVal_setReg_other (t : Tile) {r q : Nat} (v : Nat) (h : r ≠ q) : regVal (setReg t r v) q = regVal t q := by
  by_cases hr : r = 15
  · rw [hr, setReg_zero]
  · simp only [regVal, setReg, if_neg hr, getD_listSet, h, false_and, if_false]

/-! ## The end of a program (R96) -/

/-- A value found under a key stays when another key is erased, whatever the table. -/
theorem tabFind_erase_of_some {α : Type} {t : Tab α} {k q : Nat} {v : α} (hq : q ≠ k) (h : tabFind t q = some v) :
    tabFind (tabErase t k) q = some v := by
  induction t with
  | nil => exact nomatch h
  | cons e t ih =>
    obtain ⟨j, u⟩ := e
    simp only [tabFind] at h
    simp only [tabErase]
    split_ifs at h with hj hlt
    · split_ifs with hk hk'
      · omega
      · simpa [tabFind, hj] using h
      · simpa [tabFind, hj] using h
    · split_ifs with hk hk'
      · exact h
      · simpa [tabFind, hj, hlt] using h
      · simpa [tabFind, hj, hlt] using ih h

/-- A tile that is not idle stays as it is when another tile is changed. -/
theorem tileOf_onTile_kept {s : State} {n m : Nat} (f : Tile → Tile) (hn : tileOf s n ≠ Tile.idle) (hm : n ≠ m) :
    tileOf (onTile s m f) n = tileOf s n := by
  by_cases hf : f (tileOf s m) = Tile.idle
  · obtain ⟨t, ht⟩ : ∃ t, tabFind s.tiles n = some t := by
      cases h : tabFind s.tiles n with
      | some t => exact ⟨t, rfl⟩
      | none => exact absurd (by simp only [tileOf, tabGet, h, Option.getD_none]) hn
    have hset : (onTile s m f).tiles = tabErase s.tiles m := if_pos hf
    simp only [tileOf, tabGet, hset, tabFind_erase_of_some hm ht, ht]
  · exact tileOf_onTile_other hf hm

/-- A signal leaves the count of descriptors of a tile that is not idle. -/
theorem descriptors_signalCounter {s : State} {n : Nat} (h : (tileOf s n).state ≠ 0) (target : Option (Nat × Nat)) :
    (tileOf (signalCounter s target) n).descriptors = (tileOf s n).descriptors := by
  rcases target with _ | ⟨m, c⟩
  · rfl
  · by_cases hm : n = m
    · subst hm
      rw [signalCounter, tileOf_onTile_self (tile_ne_idle h)]
    · rw [signalCounter, tileOf_onTile_kept _ (tile_ne_idle h) hm]

/-- Fetches touch the home slices and what the running programs have fetched. -/
theorem fetchSlices_tiles (s : State) (n pc : Nat) (named : List Nat) : (fetchSlices s n pc named).tiles = s.tiles := by
  have hfold : ∀ (l : List Nat) (t : State), (l.foldl (fun t a => accessSlices t (.pip n) a 64 false) t).tiles = t.tiles := by
    intro l
    induction l with
    | nil => exact fun _ => rfl
    | cons a l ih => exact fun t => (ih _).trans (sliceOnly_tiles (sliceOnly_accessSlices t _ a 64 false))
  exact hfold _ _

/-- A descriptor that was passed is counted. -/
theorem passed_descriptors {s : State} {n : Nat} (d : Nat) (h : (tileOf s n).state ≠ 0) :
    (tileOf (passed s n d id []) n).descriptors = (tileOf s n).descriptors + 1 := by
  have hid : tileOf (onTile s n id) n = tileOf s n := tileOf_onTile_self (f := id) (tile_ne_idle h)
  have hfetch : ∀ pc, tileOf (fetchSlices (onTile s n id) n pc []) n = tileOf s n := fun pc => by
    rw [← hid, tileOf, tileOf, fetchSlices_tiles]
  have hne : ∀ t, sequenced t ≠ Tile.idle := fun t => tile_ne_idle (by rw [sequenced_state]; exact Nat.one_ne_zero)
  simp only [passed, List.foldl_nil]
  rw [descriptors_signalCounter] <;> rw [tileOf_onTile_self (hne _)]
  · rw [sequenced_descriptors, hfetch]
  · rw [sequenced_state]; exact Nat.one_ne_zero

theorem tileIssues_state {s : State} {n : Nat} (h : tileIssues s n = true) : (tileOf s n).state ≠ 0 := by
  simp only [tileIssues, Bool.and_eq_true, decide_eq_true_eq] at h
  omega

/-- END, once every earlier descriptor has completed, passes and ends the program. -/
theorem exec_endProgram_ends {s : State} {n d : Nat} (hat : atCounter s n d) (hhead : headerMet s n d) (hissued : (tileOf s n).issued = [])
    (hop : bitsAt d 0 8 = 0x3F) (hres : bitsAt d 64 448 = 0) :
    exec (.endProgram n) s = .next (noteChanges s (endTileProgram (passed s n d id []) n)) := by
  have hfree : hazardFree (tileOf s n) [] = true := by simp [hazardFree, hissued]
  show execEndProgram n s = _
  simp only [execEndProgram]
  rw [runDescriptor_passed (f := id) (reads := []) hat hhead hop (by decide) (by decide)
    ((if_neg (not_not_intro hres)).trans (if_pos hissued)) rfl rfl rfl hfree rfl]
  have hcount := passed_descriptors d (tileIssues_state hat.1)
  simp only [hcount, ne_eq, Nat.succ_ne_self, not_false_eq_true, decide_true, if_true]
  rfl

/-- END of which nothing came leaves the program running. -/
theorem exec_endProgram_held {s t : State} {n : Nat} (hrun : ∀ kind prep, runDescriptor n kind prep s = t)
    (hcount : (tileOf t n).descriptors = (tileOf s n).descriptors) : exec (.endProgram n) s = .next (noteChanges s t) := by
  show execEndProgram n s = _
  simp only [execEndProgram, hrun, hcount, ne_eq, not_true_eq_false, decide_false, Bool.false_eq_true, if_false, done]

/-! ## The rows of descriptors -/

/-- A row of Table 4.14 takes the VECTOR descriptors of its operation. -/
theorem exec_vectorRow : ∀ row ∈ vectorRows, ∀ n s, exec (row.2 n) s = vectorRow row.1 n s := by
  simp only [vectorRows, List.forall_mem_append, List.forall_mem_cons, List.not_mem_nil, false_implies, implies_true, and_true]
  and_intros <;> exact fun _ _ => rfl

/-- A row of Table 6.9 takes the STREAM descriptors of its kind. -/
theorem exec_streamRow : ∀ row ∈ streamRows, ∀ n s, exec (row.2 n) s = streamRow row.1 n s := by
  simp only [streamRows, List.forall_mem_cons, List.not_mem_nil, false_implies, implies_true, and_true]
  and_intros <;> exact fun _ _ => rfl

/-- Where the descriptor at the program counter gives the same state whatever the row, and is not counted, that is what each row gives. -/
theorem exec_descriptorRow {s t : State} {n : Nat} (hrun : ∀ kind prep, runDescriptor n kind prep s = t)
    (hcount : (tileOf t n).descriptors = (tileOf s n).descriptors) : ∀ row ∈ descriptorRows, exec (row n) s = .next (noteChanges s t) := by
  have hdone : ∀ kind prep, done s (runDescriptor n kind prep s) = .next (noteChanges s t) := fun kind prep =>
    congrArg (done s) (hrun kind prep)
  simp only [descriptorRows, List.forall_mem_append, List.forall_mem_cons, List.forall_mem_map, List.not_mem_nil, false_implies,
    implies_true, and_true]
  refine ⟨⟨⟨hdone _ _, hdone _ _, hdone _ _, hdone _ _, exec_endProgram_held hrun hcount, hdone _ _⟩, fun row hrow => ?_⟩,
    fun row hrow => ?_⟩
  · rw [exec_vectorRow row hrow]
    exact hdone _ _
  · rw [exec_streamRow row hrow]
    exact hdone _ _

/-- A NOP with no reserved bit and no signal comes to its issue (R96). -/
theorem exec_nop_checked {s : State} {n d : Nat} (hat : atCounter s n d) (hop : bitsAt d 0 8 = 0x00) (hres : bitsAt d 64 448 = 0)
    (hbit : bitAt d 11 = false) (hsignal : bitAt d 17 = false) :
    exec (.nop n) s = .next (noteChanges s (issueChecked s n d (tileOnly n id))) :=
  congrArg (done s) (runDescriptor_checked hat (by rw [hop]; rfl) (fun h => absurd (hop.symm.trans h) (by decide))
    (by rw [opIs, hop]; rfl) hbit (fun h => absurd (h.symm.trans hsignal) (by decide)) (if_neg (not_not_intro hres)))

/-- A trap is detected on a tile that issues: the count of descriptors stays. -/
theorem descriptors_trapHere {s : State} {n : Nat} (h : (tileOf s n).state ≠ 0) (c : Code) :
    (tileOf (trapHere s n c) n).descriptors = (tileOf s n).descriptors := by
  rw [trapHere, detectTrap, tileOf_onTile_self (tile_ne_idle h)]

end Sys2Proof.Machine

namespace Sys2Proof.Proofs

open Sys2Proof Sys2Proof.Machine

/-- Settles O11: each of the five passes the checks of its row, does its work on its tile, and is passed. -/
theorem sequencerDescriptorsRun : Obligations.SequencerDescriptorsRun := by
  refine ⟨?_, ?_, ?_, ?_, ?_⟩
  · intro s n d _ hat hhead hfree hop hres
    exact congrArg (done s) (runDescriptor_passed hat hhead hop (by decide) (by decide) (if_neg (not_not_intro hres)) rfl rfl rfl hfree rfl)
  · intro s n d _ hat hhead hfree hop hres hlen hlen' hcount hdepth hinside
    have hreserved : ¬ loopReserved d = true := Bool.eq_false_iff.mp hres
    have hbounds : ¬ (bitsAt d 64 16 = 0 ∨ 4096 < bitsAt d 64 16 ∨ bitsAt d 80 32 = 0) := by omega
    refine congrArg (done s) (runDescriptor_passed hat hhead hop (by decide) (by decide)
      ((if_neg hreserved).trans ((if_neg hbounds).trans (if_neg ?_))) rfl rfl rfl hfree rfl)
    rintro (houter | hdeep)
    · cases hl : (tileOf s n).loops with
      | nil => simp [hl] at houter
      | cons l ls =>
        simp only [hl, decide_eq_true_eq] at houter
        exact Nat.not_lt_of_le (hinside l ls hl) houter
    · omega
  · intro s n d _ hat hhead hfree hop hreg hrest
    have hreserved : ¬ (bitsAt d 72 56 ≠ 0 ∨ bitsAt d 192 320 ≠ 0) := by simp [hreg, hrest]
    exact congrArg (done s) (runDescriptor_passed hat hhead hop (by decide) (by decide) (if_neg hreserved) rfl rfl rfl hfree rfl)
  · intro s n d a b _ hat hhead ha halign hread hpoison hfree hop hlow hrest
    subst ha
    have hreserved : ¬ (bitsAt d 120 8 ≠ 0 ∨ bitsAt d 128 384 ≠ 0) := by simp [hlow, hrest]
    refine congrArg (done s) (runDescriptor_passed hat hhead hop (by decide) (by decide)
      ((if_neg hreserved).trans (if_neg (not_not_intro halign))) rfl rfl rfl hfree ?_)
    simp only [hread, Got.andThen_ok, hpoison, Bool.false_eq_true, if_false]
  · exact fun s n d _ hat hhead hissued hop hres => exec_endProgram_ends hat hhead hissued hop hres

/-- Settles O12: leaving a descriptor goes by the innermost loop's last address and the iterations it has left. -/
theorem loopsAndBaseRegisters : Obligations.LoopsAndBaseRegisters := by
  refine ⟨⟨?_, ?_, ?_⟩, ?_⟩
  · intro t l ls hloops hlast hleft
    have hseq : sequenced t = _ := (sequenced_eq t).trans (hloops ▸ leaveLoops_again hlast hleft)
    refine ⟨congrArg Tile.pc hseq, congrArg Tile.loops hseq, (congrArg Tile.regs hseq).trans ?_, sequenced_nextNumber t,
      sequenced_counters t⟩
    exact setRegs_regs_congr (val := addedTo) (t := countedTile t) (u := t)
      (fun _ _ x h => congrArg (· + x.inc.toNat) (regVal_congr h x.reg)) rfl l.slots
  · intro t l ls hloops hlast hleft houter
    have hseq : sequenced t = _ :=
      (sequenced_eq t).trans (hloops ▸ (leaveLoops_last hlast hleft).trans (leaveLoops_inside houter))
    refine ⟨congrArg Tile.pc hseq, congrArg Tile.loops hseq, (congrArg Tile.regs hseq).trans ?_⟩
    exact setRegs_regs_congr (val := atEntry) (t := countedTile t) (u := t) (fun _ _ _ _ => rfl) rfl l.slots
  · intro t hinside
    have hseq : sequenced t = _ := (sequenced_eq t).trans (leaveLoops_inside hinside)
    exact ⟨congrArg Tile.pc hseq, (congrArg Tile.loops hseq).trans rfl, (congrArg Tile.regs hseq).trans rfl⟩
  · intro t r q v hlen hr _
    refine ⟨by rw [setReg_zero], regVal_zero t, setReg_zero t v, fun h => ?_, fun h => regVal_setReg_other t v h⟩
    exact regVal_setReg_self v h (by omega)

/-- Settles O13: a reserved operation and a tile that does not issue stop every row alike, and a header that is not met stops NOP. -/
theorem tileHoldsOrTraps : Obligations.TileHoldsOrTraps := by
  refine ⟨?_, ?_, ?_, ?_⟩
  · intro row hrow s n d _ hat hres
    exact exec_descriptorRow (fun _ _ => runDescriptor_reserved hat hres) (descriptors_trapHere (tileIssues_state hat.1) _) row hrow
  · intro row hrow s n _ hsilent
    exact exec_descriptorRow (fun _ _ => runDescriptor_silent hsilent) rfl row hrow
  · intro s n d _ hat hop hres hbit hsignal hfence
    rw [exec_nop_checked hat hop hres hbit hsignal, issueChecked_fenced hfence]
  · intro s n d _ hat hop hres hbit hsignal hfence hcounter
    rw [exec_nop_checked hat hop hres hbit hsignal, issueChecked_counter hfence hcounter]

end Sys2Proof.Proofs
end

section
/-! How the engines' descriptors issue, what a VECTOR computes, and how a trap ends (R64, R86 to R91, R97, R98, R103 to R108, R113, R115,
R142, R314). -/

namespace Sys2Proof.Machine

open Sys2Proof

/-! ## Issue to the engines (R86, R88 to R91) -/

/-- An engine's descriptor that its row accepts, that nothing holds and whose work ends without a fault, is launched. -/
theorem runDescriptor_launched {s s1 : State} {n d : Nat} {kind : Nat → Bool} {prep : Nat → State → Got Issue × State} {x : Issue}
    (hat : atCounter s n d) (hhead : headerMet s n d) (hop : opKnown (bitsAt d 0 8) = true)
    (hvop : bitsAt d 0 8 = 0x20 → vopKnown (bitsAt d 64 8) = true) (hkind : kind d = true) (hprep : prep d s = (.ok x, s))
    (heng : x.engine ≠ 3) (hfree : hazardFree (tileOf s n) x.foot = true) (hgate : gateOpen s n = true)
    (hrun : x.run s = (.ok (), s1)) : runDescriptor n kind prep s = launched s1 n d x := by
  have ⟨hbit, hsignal, _, _⟩ := hhead
  rw [runDescriptor_checked hat hop hvop hkind hbit hsignal hprep, issueChecked_issued hhead hfree (.inr hgate) hrun,
    issued_launched heng]

/-! ## MATMUL (R98 to R100) -/

/-- A MATMUL that breaks no rule has its issue. -/
theorem prepMatmul_ok {s : State} {n d : Nat} {m : Mat} (hres : matReserved d = false) (hm : m = matOf (tileOf s n) d)
    (hcheck : checkMatmul (contextOf s n).profile m = none) : prepMatmul n d s = (.ok (matmulIssue n m), s) := by
  subst hm
  simp only [prepMatmul, hres, Bool.false_eq_true, if_false, hcheck]

/-- It comes to its issue when its header is met. -/
theorem exec_matmul_checked {s : State} {n d : Nat} {m : Mat} (hat : atCounter s n d) (hhead : headerMet s n d) (hop : bitsAt d 0 8 = 0x10)
    (hres : matReserved d = false) (hm : m = matOf (tileOf s n) d) (hcheck : checkMatmul (contextOf s n).profile m = none) :
    exec (.matmul n) s = .next (noteChanges s (issueChecked s n d (matmulIssue n m))) := by
  obtain ⟨hbit, hsignal, -, -⟩ := hhead
  exact congrArg (done s) (runDescriptor_checked hat (by rw [hop]; rfl) (fun h => absurd (hop.symm.trans h) (by decide))
    (by rw [opIs, hop]; rfl) hbit hsignal (prepMatmul_ok hres hm hcheck))

/-! ## VECTOR (R103 to R111) -/

/-- Every vop of the rows is one of Table 4.14. -/
theorem vopKnown_of_row : ∀ row ∈ vectorRows, vopKnown row.1 = true := by decide

/-- A VECTOR whose operands are there and break no rule has its issue. -/
theorem prepVector_ok {s : State} {n d : Nat} {v : Vec} (hv : vectorAt s n d v) (hcheck : checkVector n v = none) :
    prepVector n d s = (.ok (vectorIssue n (vectorNames (tileOf s n) d) v), s) := by
  obtain ⟨hres, dst, src0, src1, src2, aux, hdst, hsrc0, hsrc1, hsrc2, haux, hthere, hsources, hscale, rfl⟩ := hv
  have hnone : ∀ {y : Option Tensor}, y.isSome = true → ¬ y.isNone = true := fun h hn => by
    rw [Option.isNone_iff_eq_none.mp hn] at h
    exact nomatch h
  have hmissing : ¬ (dst.isNone = true ∨ (([src0, src1, src2].take (vopSources (bitsAt d 64 8))).any Option.isNone) = true ∨
      (vopAux (bitsAt d 64 8) = true ∧ aux.isNone = true)) := by
    rintro (h | h | ⟨h, ha⟩)
    · exact hnone hthere h
    · obtain ⟨y, hy, hn⟩ := List.any_eq_true.mp h
      exact hnone (List.all_eq_true.mp hsources y hy) hn
    · exact hnone (hscale h) ha
  simp only [prepVector, hres, ne_eq, not_true_eq_false, if_false, hdst, hsrc0, hsrc1, hsrc2, haux, Got.andThen_ok, if_neg hmissing, hcheck]

/-! ## STREAM (R97, R163 to R166) -/

/-- A row of the stream unit takes the STREAM that names a stream of its kind. -/
theorem streamIs_of_streamAt {s : State} {n d v kind : Nat} {x : Stream} (hx : streamAt s n d v x) (hk : x.kind = kind) :
    streamIs n kind d s = true := by
  obtain ⟨hfetch, -, hkind, -⟩ := hx
  simp only [streamIs, hfetch, decide_eq_true_eq]
  exact .inl (hkind.symm.trans hk)

/-- An operand that the kind does not take counts as the tensor that is not there. -/
theorem operand_of_taken {taken : Prop} [Decidable taken] {r : Got (Option Tensor) × State} {y : Tensor} {s : State}
    (h : if taken then r = (.ok (some y), s) else y = noTensor) : (if taken then r else (.ok (some noTensor), s)) = (.ok (some y), s) := by
  split_ifs at h ⊢
  · exact h
  · rw [h]

/-- A STREAM that breaks no rule has its issue. -/
theorem prepStream_ok {s : State} {n d v : Nat} {x : Stream} (hlow : bitsAt d 118 10 = 0) (hrest : bitsAt d 128 384 = 0)
    (hx : streamAt s n d v x) (hcheck : checkTensors n x = none) (halign : streamAligned x = true) :
    prepStream n d s = (.ok (streamIssue n (bitsAt d 116 2) (streamNames (tileOf s n) d v x.kind) x s), s) := by
  obtain ⟨hfetch, hfields, hkind, hbytes, hahead, hpattern, hfar, hnear, hindex⟩ := hx
  have hstream : (⟨bitsAt v 0 8, if bitAt v 8 then 8 else 4, bitsAt v 16 12, x.far, x.near, x.index, bitsAt v 256 64⟩ : Stream) = x := by
    rw [← hkind, ← hbytes, ← hahead, ← hpattern]
  rw [hkind] at hnear hindex ⊢
  simp only [prepStream, hlow, hrest, ne_eq, not_true_eq_false, or_self, if_false, hfetch, hfields, hfar, Got.andThen_ok,
    operand_of_taken hnear, operand_of_taken hindex, hstream, hcheck, halign, if_true]

/-! ## What a VECTOR computes (R64, R105 to R108, R113) -/

/-- Element-wise results of operands that are read and leave the state. -/
theorem elementwiseResults_ok {s : State} {n : Nat} {v : Vec} (x : Context) {val : Tensor → List Nat → FNum}
    {mark : Tensor → List Nat → Bool}
    (h : ∀ c ∈ coords v.dst.ext, ∀ t ∈ v.sources, readNum n v.format t c s = (.ok (val t c, mark t c), s)) :
    elementwiseResults n v x s = (.ok ((coords v.dst.ext).map (fun c =>
      (c, elementwise x.profile v.format v.vop v.imm0 v.imm1 (v.sources.map (fun t => val t c)), v.sources.any (fun t => mark t c)))), s) :=
  Got.each_ok fun c hc => by
    simp only [Got.each_ok (g := fun t => (val t c, mark t c)) (h c hc), Got.andThen_ok, List.map_map, List.any_map, Function.comp_def]

/-- Reductions of a source that is read and leaves the state. -/
theorem reductionResults_ok {s : State} {n : Nat} {v : Vec} {val : List Nat → FNum} {mark : List Nat → Bool}
    (h : ∀ c, readNum n v.format v.src0 c s = (.ok (val c, mark c), s)) :
    reductionResults n v s = (.ok ((coords v.dst.ext).map (fun c =>
      (c, reduction v.format v.vop ((List.range (v.src0.extent 0)).map (fun i => val (i :: c.drop 1))),
        (List.range (v.src0.extent 0)).any (fun i => mark (i :: c.drop 1))))), s) :=
  Got.each_ok fun c _ => by
    simp only [Got.each_ok (g := fun i => (val (i :: c.drop 1), mark (i :: c.drop 1))) (fun i _ => h (i :: c.drop 1)), Got.andThen_ok,
      List.map_map, List.any_map, Function.comp_def]

/-- The vops up to 0x15 are element by element (Table 4.14). -/
theorem vectorOuts_elementwise {s : State} {n : Nat} {v : Vec} (h : v.vop ≤ 0x15) :
    vectorOuts n v s = Got.andThen (elementwiseResults n v (contextOf s n) s) (fun l s1 => (.ok (l.foldl (putResult n v) Outs.none), s1)) := by
  have hreduces : ¬ vopReduces v.vop = true := by simp only [vopReduces, decide_eq_true_eq]; omega
  simp only [vectorOuts, if_neg (show ¬ v.vop = 0x40 by omega), if_neg (show ¬ v.vop = 0x30 by omega),
    if_neg (show ¬ v.vop = 0x31 by omega), if_neg (show ¬ v.vop = 0x18 by omega), if_neg hreduces]

/-- The reductions are a case of their own (Table 4.14). -/
theorem vectorOuts_reduction {s : State} {n : Nat} {v : Vec} (h : vopReduces v.vop = true) :
    vectorOuts n v s = Got.andThen (reductionResults n v s) (fun l s1 => (.ok (l.foldl (putResult n v) Outs.none), s1)) := by
  have hrange := h
  simp only [vopReduces, decide_eq_true_eq] at hrange
  simp only [vectorOuts, if_neg (show ¬ v.vop = 0x40 by omega), if_neg (show ¬ v.vop = 0x30 by omega),
    if_neg (show ¬ v.vop = 0x31 by omega), if_neg (show ¬ v.vop = 0x18 by omega), if_pos h]

/-! ## Traps (R115, R142) -/

/-- The trap record names the step of the tile's program, or the current one. -/
theorem onTile_trapRecord {s : State} {n k : Nat} (i : TrapInfo)
    (h : ((tileOf s n).program.map (fun p => p.step)).getD (currentStep s) = k) :
    onTile s n (fun t => { t with
      state := 3, record := some (i, (t.program.map (fun p => p.step)).getD (currentStep s)), trap := none, program := none, loops := [] }) =
    onTile s n (fun t => { t with state := 3, record := some (i, k), trap := none, program := none, loops := [] }) := by
  subst h
  rfl

end Sys2Proof.Machine

namespace Sys2Proof.Proofs

open Sys2Proof Sys2Proof.Machine

/-- Settles O14: each row's checks give its issue, which nothing holds; a closed gate holds a MATMUL's. -/
theorem engineDescriptorsIssue : Obligations.EngineDescriptorsIssue := by
  refine ⟨?_, ?_, ?_, ?_⟩
  · intro s s1 n d m _ hat hhead hgate hop hres hm hcheck hfree hrun
    rw [exec_matmul_checked hat hhead hop hres hm hcheck, issueChecked_issued hhead hfree (.inr hgate) hrun,
      issued_launched (show 0 ≠ 3 by decide)]
  · intro row hrow s s1 n d v _ hat hhead hgate hop hvop hv hcheck hfree hrun
    rw [exec_vectorRow row hrow]
    exact congrArg (done s) (runDescriptor_launched hat hhead (by rw [hop]; rfl) (fun _ => hvop ▸ vopKnown_of_row row hrow)
      (by simp [opIs, hop, hvop]) (prepVector_ok hv hcheck) (show 1 ≠ 3 by decide) hfree hgate hrun)
  · intro row hrow s s1 n d v x _ hat hhead hgate hop hlow hrest hx hk hcheck halign hfree hrun
    rw [exec_streamRow row hrow]
    exact congrArg (done s) (runDescriptor_launched hat hhead (by rw [hop]; rfl) (fun h => absurd (hop.symm.trans h) (by decide))
      (by simp [opIs, hop, streamIs_of_streamAt hx hk]) (prepStream_ok hlow hrest hx hcheck halign) (show 2 ≠ 3 by decide) hfree hgate hrun)
  · intro s n d m _ hat hhead hgate hop hres hm hcheck hfree
    rw [exec_matmul_checked hat hhead hop hres hm hcheck, issueChecked_gated hhead hfree (show 0 ≠ 3 by decide) hgate]

/-- Settles O16: the record's step is the program's, or the current one where no program runs, and the program's entry learns of the trap. -/
theorem trapRecordsTheEarliestFault : Obligations.TrapRecordsTheEarliestFault := by
  refine ⟨?_, ?_⟩
  · intro s n i p _ htrap hissued hprog
    have hstep : ((tileOf s n).program.map (fun p => p.step)).getD (currentStep s) = p.step := by rw [hprog]; rfl
    show execTrap n s = _
    simp only [execTrap, htrap, hissued, ne_eq, not_true_eq_false, if_false, onTile_trapRecord i hstep, hprog, done]
  · intro s n i _ htrap hissued hprog
    have hstep : ((tileOf s n).program.map (fun p => p.step)).getD (currentStep s) = currentStep s := by rw [hprog]; rfl
    show execTrap n s = _
    simp only [execTrap, htrap, hissued, ne_eq, not_true_eq_false, if_false, onTile_trapRecord i hstep, hprog, done]

/-- Settles O17: no read changes the state, so each coordinate's operands are gathered one after another. -/
theorem vectorResultsAreThoseOfTheirOperation : Obligations.VectorResultsAreThoseOfTheirOperation := by
  refine ⟨?_, ?_⟩
  · intro s n v val mark hvop hread
    rw [vectorOuts_elementwise hvop, elementwiseResults_ok _ hread, Got.andThen_ok]
  · intro s n v val mark hvop hread
    rw [vectorOuts_reduction hvop, reductionResults_ok hread, Got.andThen_ok]

end Sys2Proof.Proofs
end

section
/-! What a VECTOR stores (R105, R112, R205): its results run by run over words whose codes hold, and nothing else. -/

namespace Sys2Proof.Machine

open Sys2Proof

/-! ## Writing over words whose codes hold (R205) -/

/-- Two protection parts that differ in nothing but the counts of narrow writes. -/
def narrowOnly (p q : Protect) : Prop := q = { p with narrow := q.narrow }

theorem narrowOnly_trans {p q r : Protect} (h : narrowOnly p q) (k : narrowOnly q r) : narrowOnly p r := by
  unfold narrowOnly at *
  rw [k, h]

/-- A merge into a word whose code holds changes the counts of narrow writes alone. -/
theorem narrowOnly_writeNarrow {s : State} {w : Nat} (a : Nat) (l : List Byte) (hc : clean s.mem w) :
    narrowOnly s.prot (writeNarrow s w (bytesOnWord a (unmarked l) w)).1.prot := by
  have hsynd : decodeSyndrome (heldSyndrome s.mem s.free w) = .clean := by rw [heldSyndrome_clean hc]; rfl
  unfold writeNarrow
  simp only [hsynd, readWord_clean hc, mergePoison_unmarked, writeWhole, Bool.false_and, Bool.false_eq_true, if_false]
  split <;> exact rfl

/-- The first of the words is written whole, or merged; a merge is counted. -/
theorem writeWords_succ_narrow {s : State} {w : Nat} (n a : Nat) (l : List Byte) (hc : clean s.mem w) :
    ∃ p, narrowOnly s.prot p ∧ writeWords (n + 1) s w a (unmarked l) =
      writeWords n { s with mem := putWord s.mem w (wordAfter s.mem s.free a l w) false, prot := p } (w + 1) a (unmarked l) := by
  by_cases hall : (bytesOnWord a (unmarked l) w).all (fun x => x.isSome) = true
  · refine ⟨s.prot, rfl, ?_⟩
    simp only [writeWords, if_pos hall, writeWhole_covered hall, Bool.false_or]
  · obtain ⟨p, hnarrow⟩ := writeNarrow_clean a l hc
    have hp := narrowOnly_writeNarrow a l hc
    rw [hnarrow] at hp
    refine ⟨p, hp, ?_⟩
    simp only [writeWords, if_neg hall, hnarrow, Bool.false_or]

/-- Written over, such words leave memory in its canonical form, and change besides the counts of narrow writes alone. -/
theorem writeWords_frame {n : Nat} {s : State} {w a : Nat} {l : List Byte} (hwf : s.mem.wf = true)
    (hc : ∀ v, w ≤ v → v < w + n → clean s.mem v) :
    (writeWords n s w a (unmarked l)).1.mem.wf = true ∧ narrowOnly s.prot (writeWords n s w a (unmarked l)).1.prot := by
  induction n generalizing s w with
  | zero => exact ⟨hwf, rfl⟩
  | succ n ih =>
    obtain ⟨p, hp, hfirst⟩ := writeWords_succ_narrow n a l (hc w (Nat.le_refl w) (by omega))
    have hrest := ih (s := { s with mem := putWord s.mem w (wordAfter s.mem s.free a l w) false, prot := p }) (w := w + 1)
      (putWord_wf hwf w _ false)
      (fun v h1 h2 => clean_of_wordKept (wordKept_putWord hwf _ (by omega)) (hc v (by omega) (by omega)))
    rw [hfirst]
    exact ⟨hrest.1, narrowOnly_trans hp hrest.2⟩

/-- A word written is a word whose code holds. -/
theorem clean_of_wordStored {m m' : Memory} {n a : Nat} {l : List Byte} {w : Nat} (h : wordStored m m' n a l w) : clean m' w := by
  obtain ⟨hsynd, hbytes⟩ := h
  refine ⟨?_, hsynd⟩
  rw [neverWritten, List.all_eq_false]
  refine ⟨0, by simp, ?_⟩
  rw [hbytes 0 (by omega)]
  exact Bool.false_ne_true

theorem heldByte_of_some {m : Memory} {n b : Nat} {x : Byte} (h : memByte? m b = some x) : heldByte m n b = x := by
  simp only [heldByte, h]

/-- Bytes written over words whose codes hold stand in memory; every other byte reads as before, and the codes of all words that held
still hold. -/
theorem writeMarked_clean {s : State} {a : Nat} {l : List Byte} (hwf : s.mem.wf = true)
    (hc : ∀ i, i < l.length → clean s.mem ((a + i) / 8)) :
    ∃ m p, writeMarked s a (unmarked l) = ({ s with mem := m, prot := p }, false, false) ∧ m.wf = true ∧ narrowOnly s.prot p ∧
      (∀ b, heldByte m s.free b = byteAfter s.mem s.free a l b) ∧ ∀ w, clean s.mem w → clean m w := by
  by_cases hl : l = []
  · subst hl
    refine ⟨s.mem, s.prot, rfl, hwf, rfl, fun b => ?_, fun _ h => h⟩
    simp [byteAfter]
  have hlen : 0 < l.length := List.length_pos_iff.mpr hl
  have hne : unmarked l ≠ [] := by simpa [unmarked] using hl
  have hsize : (unmarked l).length = l.length := by simp [unmarked]
  have hwords : ∀ v, a / 8 ≤ v → v < a / 8 + ((a + l.length + 7) / 8 - a / 8) → clean s.mem v := fun v h1 h2 => by
    have hi : max a (8 * v) - a < l.length := by omega
    have := hc _ hi
    rwa [show (a + (max a (8 * v) - a)) / 8 = v by omega] at this
  obtain ⟨m, p, hwrite, hstored, hkept⟩ := writeWords_clean (a := a) (l := l) hwf hwords
  have hframe := writeWords_frame (a := a) (l := l) hwf hwords
  rw [hwrite] at hframe
  refine ⟨m, p, by rw [writeMarked, if_neg hne, hsize, hwrite], hframe.1, hframe.2, fun b => ?_, fun w hw => ?_⟩
  · have hb := Nat.div_add_mod b 8
    have hmod : b % 8 < 8 := Nat.mod_lt b (by omega)
    by_cases hin : a / 8 ≤ b / 8 ∧ b / 8 < a / 8 + ((a + l.length + 7) / 8 - a / 8)
    · have := (hstored (b / 8) hin.1 hin.2).2 (b % 8) hmod
      rw [hb] at this
      exact heldByte_of_some this
    · have := (hkept (b / 8) (by omega)).2 (b % 8) hmod
      rw [hb] at this
      rw [heldByte_of_memByte? this, byteAfter]
      split
      · rfl
      · rw [List.getElem?_eq_none (by omega), Option.getD_none]
  · by_cases hin : a / 8 ≤ w ∧ w < a / 8 + ((a + l.length + 7) / 8 - a / 8)
    · exact clean_of_wordStored (hstored w hin.1 hin.2)
    · exact clean_of_wordKept (hkept w (by omega)) hw

/-! ## The runs of a bundle -/

/-- The byte that runs, written one after another, leave at an address; none where they write nothing. -/
def runsByte : List (Nat × List (Byte × Bool)) → Nat → Option Byte
  | [], _ => none
  | r :: rs, b => (runsByte rs b).or (if b < r.1 then none else (r.2[b - r.1]?).map (fun x => x.1))

/-- A byte put before rising ones joins the first run or makes one of its own. -/
theorem runsByte_bundleRuns_cons {a : Nat} {x : Byte × Bool} {t : Bundle} {b : Nat}
    (hbelow : b ≤ a → runsByte (bundleRuns t) b = none) :
    runsByte (bundleRuns ((a, x) :: t)) b = if b < a then none else if b = a then some x.1 else runsByte (bundleRuns t) b := by
  have hhead : ∀ l : List (Byte × Bool), a < b → (x :: l)[b - a]? = l[b - (a + 1)]? := fun l h => by
    rw [show b - a = b - (a + 1) + 1 by omega, List.getElem?_cons_succ]
  simp only [bundleRuns]
  cases hruns : bundleRuns t with
  | nil =>
    rcases Nat.lt_trichotomy b a with h | h | h
    · simp [runsByte, h]
    · simp [runsByte, h]
    · simp [runsByte, hhead [] h, Nat.not_lt_of_lt h, Nat.ne_of_gt h]
  | cons r rs =>
    obtain ⟨c, l⟩ := r
    rw [hruns] at hbelow
    have hlow : b ≤ a → runsByte rs b = none := fun h => (Option.or_eq_none_iff.mp (hbelow h)).1
    by_cases hc : c = a + 1
    · subst hc
      simp only [if_true]
      rcases Nat.lt_trichotomy b a with h | h | h
      · simp [runsByte, h, hlow (Nat.le_of_lt h)]
      · subst h
        simp [runsByte, hlow (Nat.le_refl b)]
      · simp [runsByte, hhead l h, Nat.not_lt_of_lt h, Nat.ne_of_gt h, Nat.not_lt_of_le (Nat.succ_le_of_lt h)]
    · simp only [if_neg hc]
      rcases Nat.lt_trichotomy b a with h | h | h
      · rw [runsByte, hbelow (Nat.le_of_lt h)]
        simp [h]
      · rw [runsByte, hbelow (Nat.le_of_eq h)]
        simp [h]
      · rw [runsByte]
        simp [hhead [] h, Nat.not_lt_of_lt h, Nat.ne_of_gt h]

/-- The runs of a bundle with rising addresses write the bytes of the bundle. -/
theorem runsByte_bundleRuns {o : Option Nat} {t : Bundle} (h : tabRising o t = true) (b : Nat) :
    runsByte (bundleRuns t) b = (tabFind t b).map (fun x => x.1) := by
  induction t generalizing o with
  | nil => rfl
  | cons e t ih =>
    obtain ⟨a, x⟩ := e
    have htail : tabRising (some a) t = true := tabRising_tail h
    have hbelow : b ≤ a → runsByte (bundleRuns t) b = none := fun hb => by
      rw [ih htail, tabFind_of_rising htail hb, Option.map_none]
    rw [runsByte_bundleRuns_cons hbelow, ih htail, tabFind]
    rcases Nat.lt_trichotomy b a with h | h | h
    · simp [h, Nat.ne_of_gt h]
    · simp [h]
    · simp [Nat.not_lt_of_lt h, Nat.ne_of_gt h, Nat.ne_of_lt h]

/-- Every byte of a bundle's runs is a byte of the bundle. -/
theorem mem_of_bundleRuns {t : Bundle} : ∀ r ∈ bundleRuns t, ∀ x ∈ r.2, ∃ a, (a, x) ∈ t := by
  induction t with
  | nil => exact fun r hr => nomatch hr
  | cons e t ih =>
    obtain ⟨a, x⟩ := e
    have hrest : ∀ r ∈ bundleRuns t, ∀ y ∈ r.2, ∃ b, (b, y) ∈ (a, x) :: t := fun r hr y hy =>
      (ih r hr y hy).imp fun b hb => List.mem_cons_of_mem _ hb
    have hhead : ∃ b, (b, x) ∈ (a, x) :: t := ⟨a, List.mem_cons_self ..⟩
    simp only [bundleRuns]
    cases hruns : bundleRuns t with
    | nil => exact List.forall_mem_singleton.mpr (List.forall_mem_singleton.mpr hhead)
    | cons r rs =>
      obtain ⟨c, l⟩ := r
      rw [hruns, List.forall_mem_cons] at hrest
      dsimp only
      split
      · exact List.forall_mem_cons.mpr ⟨List.forall_mem_cons.mpr ⟨hhead, hrest.1⟩, hrest.2⟩
      · exact List.forall_mem_cons.mpr ⟨List.forall_mem_singleton.mpr hhead, List.forall_mem_cons.mpr hrest⟩

/-- What is found in a table stands in it. -/
theorem mem_of_tabFind {α : Type} {t : Tab α} {k : Nat} {v : α} (h : tabFind t k = some v) : (k, v) ∈ t := by
  induction t with
  | nil => exact nomatch h
  | cons e t ih =>
    obtain ⟨j, u⟩ := e
    simp only [tabFind] at h
    split_ifs at h with hj
    · cases h
      exact hj ▸ List.mem_cons_self ..
    · exact List.mem_cons_of_mem _ (ih h)

/-- Runs of bytes without poison, over words whose codes hold, leave their bytes in memory, and every other byte as it reads. -/
theorem writeRuns_clean {s : State} {rs : List (Nat × List (Byte × Bool))} (hwf : s.mem.wf = true)
    (hmark : ∀ r ∈ rs, ∀ x ∈ r.2, x.2 = false) (hc : ∀ b, (runsByte rs b).isSome = true → clean s.mem (b / 8)) :
    ∃ m p, writeRuns rs s = ({ s with mem := m, prot := p }, false, false) ∧ narrowOnly s.prot p ∧
      ∀ b, heldByte m s.free b = (runsByte rs b).getD (heldByte s.mem s.free b) := by
  induction rs generalizing s with
  | nil => exact ⟨s.mem, s.prot, rfl, rfl, fun _ => rfl⟩
  | cons r rs ih =>
    obtain ⟨a, l⟩ := r
    have hunmarked : l = unmarked (l.map (fun x => x.1)) := by
      rw [unmarked, List.map_map]
      conv_lhs => rw [← List.map_id l]
      exact List.map_congr_left fun x hx => Prod.ext rfl (hmark (a, l) (List.mem_cons_self ..) x hx)
    obtain ⟨m, p, hwrite, hwf', hp, hbyte, hkeep⟩ := writeMarked_clean (a := a) (l := l.map (fun x => x.1)) hwf (fun i hi => by
      refine hc (a + i) ?_
      rw [List.length_map] at hi
      simp [runsByte, hi])
    obtain ⟨m', p', hrest, hp', hbyte'⟩ := ih (s := { s with mem := m, prot := p }) hwf' (fun r hr => hmark r (List.mem_cons_of_mem _ hr))
      (fun b hb => hkeep _ (hc b (by rw [runsByte, Option.isSome_or, hb, Bool.true_or])))
    refine ⟨m', p', ?_, narrowOnly_trans hp hp', fun b => ?_⟩
    · rw [← hunmarked] at hwrite
      simp only [writeRuns, hwrite, hrest, Bool.or_self]
    · rw [hbyte' b]
      show (runsByte rs b).getD (heldByte m s.free b) = _
      rw [hbyte b, runsByte, byteAfter]
      cases runsByte rs b with
      | some y => rfl
      | none => simp only [Option.none_or, Option.getD_none]; split <;> simp

/-! ## The results of a VECTOR (R105, R112) -/

/-- Results for memory that are allowed there, over words whose codes hold: their bytes are stored, and no other byte changes. -/
theorem writeOuts_clean {s : State} {n : Nat} {o : Outs} (hwf : s.mem.wf = true) (hbank : o.bank = []) (hrise : tabRising none o.mem = true)
    (hmark : o.mem.all (fun e => !e.2.2) = true) (hallow : bundleDetail s (.pip n) o.mem = none)
    (hc : ∀ e ∈ o.mem, neverWritten s.mem (e.1 / 8) = false ∧ tabGet 0 s.mem.synd (e.1 / 8) = 0) :
    ∃ m p t, writeOuts n 3 o s = (.ok (), { s with mem := m, prot := p, tiles := t }) ∧ narrowOnly s.prot p ∧
      ∀ b, heldByte m s.free b = ((tabFind o.mem b).map (fun x => x.1)).getD (heldByte s.mem s.free b) := by
  have hunmarked : ∀ r ∈ bundleRuns o.mem, ∀ x ∈ r.2, x.2 = false := fun r hr x hx => by
    obtain ⟨a, ha⟩ := mem_of_bundleRuns r hr x hx
    simpa using List.all_eq_true.mp hmark _ ha
  have hclean : ∀ b, (runsByte (bundleRuns o.mem) b).isSome = true → clean s.mem (b / 8) := fun b hb => by
    rw [runsByte_bundleRuns hrise, Option.isSome_map] at hb
    obtain ⟨x, hx⟩ := Option.isSome_iff_exists.mp hb
    exact hc _ (mem_of_tabFind hx)
  obtain ⟨m, p, hruns, hp, hbyte⟩ := writeRuns_clean hwf hunmarked hclean
  have hfor : writeFor (.pip n) 3 o.mem s = (.ok (), { s with mem := m, prot := p }) := by
    simp only [writeFor, hallow, hruns, Bool.false_eq_true, if_false]
  refine ⟨m, p, if o.nonfinite then tabModify Tile.idle s.tiles n (fun t => { t with nonfinite := true }) else s.tiles, ?_, hp,
    fun b => by rw [hbyte b, runsByte_bundleRuns hrise]⟩
  simp only [writeOuts, hfor, Got.andThen_ok, hbank, writeBankElems, Bool.false_eq_true, if_false]
  split <;> rfl

end Sys2Proof.Machine

namespace Sys2Proof.Proofs

open Sys2Proof Sys2Proof.Machine

/-- Settles O18: the results are written run by run, and what is counted besides stands in the tile and in the tiles' loads. -/
theorem vectorStoresItsResults : Obligations.VectorStoresItsResults := by
  intro s n v o _ hwf houts hbank hrise hmark hallow hc hclash
  obtain ⟨m, p, t, hwrite, hp, hbyte⟩ := writeOuts_clean hwf hbank hrise hmark hallow hc
  refine ⟨countVector n v { s with mem := m, prot := p, tiles := t }, ?_, fun a => ?_, rfl, hp, rfl⟩
  · simp only [runVector, houts, Got.andThen_ok, hwrite, hclash, Bool.false_eq_true, if_false]
  · show heldByte m s.free a = _
    rw [hbyte a]
    cases tabFind o.mem a <;> rfl

end Sys2Proof.Proofs
end

section
/-! Entries of the work queues: where each kind is dispatched, when it completes, and the events of exports (R84, R142, R207, R265,
R266, R271). -/

namespace Sys2Proof.Machine

open Sys2Proof

/-! ## Dispatch (R265, R266) -/

section
variable {s s1 : State} {q seq v : Nat} {e : Entry} {c : Code} (hat : entryAt s q seq = some e) (hgo : dispatchable s q e = true)
include hat hgo

/-- A program whose record keeps its layout goes to its tiles (R84). -/
theorem exec_dispatch_program (hkind : e.kind = 1) (hread : readRecord s (e.field 256 48) 128 = (.ok v, s1)) (hlow : bitsAt v 48 16 = 0)
    (hrest : bitsAt v 832 192 = 0) (halign : bitsAt v 0 48 % 64 = 0) :
    exec (.dispatch q seq) s = .next (noteChanges s (dispatchTiles s1 q e v)) := by
  show execDispatch q seq s = _
  simp only [execDispatch, hat, hgo, Bool.true_eq_false, if_false, hkind, hread, hlow, hrest, halign, ne_eq, not_true_eq_false, or_self, done]

/-- A Cracker command goes to its channel. -/
theorem exec_dispatch_cracker (hkind : e.kind = 2) :
    exec (.dispatch q seq) s = .next (noteChanges s (onChannel (onEntry s q seq (fun e => { e with status := 1 })) (e.field 304 4)
      (fun c => { c with cmds := c.cmds ++ [⟨e.field 256 48, q, seq, e.step⟩] }))) := by
  show execDispatch q seq s = _
  simp only [execDispatch, hat, hgo, Bool.true_eq_false, if_false, hkind, done]

/-- A free-standing collective goes to the fabric. -/
theorem exec_dispatch_collective (hkind : e.kind = 3) (hread : readRecord s (e.field 256 48) 64 = (.ok v, s1))
    (hfault : collFault s1 (collCmdOf v) noGroup = none) :
    exec (.dispatch q seq) s =
      let k : CollKey := ⟨(collCmdOf v).comm, noGroup, nextCollId s1 (collCmdOf v).comm⟩
      let s2 := openColl (onEntry s1 q seq (fun e => { e with status := 1 })) k (collCmdOf v) (some (q, seq))
      .next (noteChanges s (sendReady s2 k (currentStep s2) none)) := by
  show execDispatch q seq s = _
  simp only [execDispatch, hat, hgo, Bool.true_eq_false, if_false, hkind, hread, hfault, done]

/-- A program whose record cannot be read faults without running (R266). -/
theorem exec_dispatch_unread (hkind : e.kind = 1) (hread : readRecord s (e.field 256 48) 128 = (.fault c, s1)) :
    exec (.dispatch q seq) s = .next (noteChanges s (faultEntry s1 q e c)) := by
  show execDispatch q seq s = _
  simp only [execDispatch, hat, hgo, Bool.true_eq_false, if_false, hkind, hread, done]

/-- So does a fill (R266). -/
theorem exec_fillCommand_unread (hkind : e.kind = 4) (hread : readRecord s (e.field 256 48) 32 = (.fault c, s1)) :
    exec (.fillCommand q seq) s = .next (noteChanges s (faultEntry s1 q e c)) := by
  show execFillCommand q seq s = _
  simp only [execFillCommand, hat, hgo, hkind, hread, ne_eq, not_true_eq_false, Bool.true_eq_false, or_self, if_false, done]

/-- A fill whose record is right writes its pattern where it may (R207). -/
theorem exec_fillCommand_writes (hkind : e.kind = 4) (hread : readRecord s (e.field 256 48) 32 = (.ok v, s1)) (hform : fillMalformed v = false)
    (hallow : accessDetail s1 .hazel true (bitsAt v 0 48) (bitsAt v 64 48) = none) :
    exec (.fillCommand q seq) s = .next (noteChanges s (fillLines (bitsAt v 64 48 / 64) (onEntry s1 q seq (fun e => { e with status := 1 }))
      (bitsAt v 0 48) (BitVec.ofNat 64 (bitsAt v 128 64)))) := by
  show execFillCommand q seq s = _
  simp only [execFillCommand, hat, hgo, hkind, hread, hform, hallow, ne_eq, not_true_eq_false, Bool.true_eq_false, Bool.false_eq_true,
    or_self, if_false, done]

/-- A NOP completes at once. -/
theorem exec_nopEntry (hkind : e.kind = 6) :
    exec (.nopEntry q seq) s = .next (noteChanges s (settleFault (endEntry s q e 0 0))) := by
  show execNopEntry q seq s = _
  simp only [execNopEntry, hat, hgo, hkind, and_self, if_true, done]

/-- Data to be exported go to their connection (R271). -/
theorem exec_exportEntry (hkind : e.kind = 5) :
    exec (.exportEntry q seq) s = .next (noteChanges s (addExport (onEntry s q seq (fun e => { e with status := 1 }))
      ⟨some (q, seq), 0, e.field 384 6, e.field 256 48, e.field 320 40, e.field 416 32, e.field 448 40, e.step, 5, 0, []⟩)) := by
  show execExportEntry q seq s = _
  simp only [execExportEntry, hat, hgo, hkind, ne_eq, not_true_eq_false, Bool.true_eq_false, or_self, if_false, done]

end

/-! ## Completion (R142, R266) -/

/-- A dispatched entry completes when what it was handed to has ended and its reduction commands can be read. -/
theorem exec_entryComplete {s : State} {q seq : Nat} {e : Entry} (hat : entryAt s q seq = some e) (hstatus : e.status = 1)
    (hended : entryEnded s q e = true) (hready : (commandsReady s e.reduce).1 = true) :
    exec (.entryComplete q seq) s = .next (noteChanges s
      (releaseLate (settleFault (endEntry (releaseTrapped s e) q e (if e.code = 0 then 0 else 1) e.code)) q)) := by
  show execEntryComplete q seq s = _
  simp only [execEntryComplete, hat, hstatus, hended, hready, ne_eq, not_true_eq_false, Bool.true_eq_false, or_self, if_false, done]

/-! ## The events of exports (R271, Tables 10.16 and 10.17) -/

section
variable {s : State} {c : Nat} {x : Export} (hact : activeExport s c = some x) (hready : (connOf s c).state = 1)
include hact hready

/-- Before the last event, once all of it is acknowledged, the next one is sent. -/
theorem exec_exportAck_next (hevent : x.event < 3) (hall : x.event = 1 → x.length ≤ x.acked + egressPiece) :
    let y := { x with event := x.event + 1, acked := if x.event = 1 then x.length else x.acked }
    let s1 := replaceExport (onConn s c (fun z => { z with retriesUsed := 0 })) x y
    (exportSend s1 y).2 = false → exec (.exportAck c) s = .next (noteChanges s (exportSend s1 y).1) := by
  intro y s1 hsent
  have hpiece : ¬ (x.event = 1 ∧ x.acked + egressPiece < x.length) := fun h => Nat.not_lt_of_le (hall h.1) h.2
  show execExportAck c s = _
  simp only [execExportAck, hact, hready, ne_eq, not_true_eq_false, if_false, if_neg (Nat.ne_of_lt hevent), if_neg hpiece]
  show (if (exportSend s1 y).2 = true then done s (replaceExport (exportSend s1 y).1 y x) else done s (exportSend s1 y).1) = _
  rw [hsent]
  rfl

/-- A piece of the data is acknowledged, and there is more of it. -/
theorem exec_exportAck_piece (hevent : x.event = 1) (hmore : x.acked + egressPiece < x.length) :
    exec (.exportAck c) s = .next (noteChanges s (replaceExport (onConn s c (fun z => { z with retriesUsed := 0 })) x
      { x with acked := x.acked + egressPiece })) := by
  show execExportAck c s = _
  simp only [execExportAck, hact, hready, hevent, hmore, ne_eq, not_true_eq_false, if_false, Nat.reduceEqDiff, and_self, if_true, done]

/-- The closed trailer completes what an entry exports, and the connection's next one starts. -/
theorem exec_exportAck_last {e : Nat × Nat} (hevent : x.event = 3) (hentry : x.entry = some e) :
    exec (.exportAck c) s = .next (noteChanges s (startNext ((onConn s c (fun z => { z with retriesUsed := 0 })).onFront (fun f => { f with
      exports := f.exports.filter (fun z => decide (z ≠ x)) })) c)) := by
  show execExportAck c s = _
  simp only [execExportAck, hact, hready, hevent, hentry, ne_eq, not_true_eq_false, if_false, if_true, Option.isNone_some,
    Bool.false_eq_true, done]

end

/-- The open trailer. -/
theorem exportSend_open {s : State} {x : Export} (h : x.event = 0) :
    exportSend s x = (egressSend s x x.trailerAt (trailerBytes x 1), false) := by
  simp only [exportSend, h]

/-- The read that follows the data. -/
theorem exportSend_read {s : State} {x : Export} (h : x.event = 2) :
    exportSend s x =
      let t := targetNow s x.target
      (sendOn s t.conn (.egressRead t.conn (t.va + x.trailerAt) t.rkey), false) := by
  simp only [exportSend, h]

/-- The closed trailer. -/
theorem exportSend_closed {s : State} {x : Export} (h : x.event = 3) :
    exportSend s x = (egressSend s x x.trailerAt (trailerBytes x 2), false) := by
  simp only [exportSend, h]

theorem trailerBytes_length (x : Export) (state : Nat) : (trailerBytes x state).length = 32 := bytesOfNat_length 32 _

/-- Whole lines of 64 bytes. -/
theorem ceil64_mod (n : Nat) : ceil64 n % 64 = 0 := Nat.mul_mod_left _ _

theorem le_ceil64 (n : Nat) : n ≤ ceil64 n := by unfold ceil64; omega

end Sys2Proof.Machine

namespace Sys2Proof.Proofs

open Sys2Proof Sys2Proof.Machine

/-- Settles O45: each kind of entry goes its own way, and each event of what is exported brings the next. -/
theorem entriesRunCompleteAndExport : Obligations.EntriesRunCompleteAndExport := by
  refine ⟨⟨?_, ?_, ?_, ?_, ?_, ?_, ?_⟩, ?_, ?_, ?_, ?_, ?_⟩
  · exact fun s s1 q seq v e hat hgo hkind hread hlow hrest halign => exec_dispatch_program hat hgo hkind hread hlow hrest halign
  · exact fun s q seq e hat hgo hkind => exec_dispatch_cracker hat hgo hkind
  · exact fun s s1 q seq v e hat hgo hkind hread hfault => exec_dispatch_collective hat hgo hkind hread hfault
  · exact fun s s1 q seq e c hat hgo => ⟨exec_dispatch_unread hat hgo, exec_fillCommand_unread hat hgo⟩
  · exact fun s s1 q seq v e hat hgo hkind hread hform hallow => exec_fillCommand_writes hat hgo hkind hread hform hallow
  · exact fun s q seq e hat hgo => ⟨exec_nopEntry hat hgo, exec_exportEntry hat hgo⟩
  · exact fun s q seq e hat hstatus hended hready => exec_entryComplete hat hstatus hended hready
  · exact fun s c x hact hready hevent hall => exec_exportAck_next hact hready hevent hall
  · exact fun s c x hact hready hevent hmore => exec_exportAck_piece hact hready hevent hmore
  · exact fun s c x e hact hready hevent hentry => exec_exportAck_last hact hready hevent hentry
  · exact fun s x => ⟨exportSend_open, exportSend_read, exportSend_closed⟩
  · intro x
    have hline := ceil64_mod x.length
    have hroom := le_ceil64 x.length
    refine ⟨trailerBytes_length x 1, ?_, ?_⟩ <;> unfold Export.trailerAt <;> omega

end Sys2Proof.Proofs
end

section
/-! Group checks, the dense update and the staging cut: what a check records, and what the commands do (R44, R128 to R133, R200, R212). -/

namespace Sys2Proof.Machine

open Sys2Proof

/-! ## Checks (R128, R129) -/

/-- The work of a group that was changed to something else than none reads back, whatever the table. -/
theorem workOf_onWork_self {s : State} {g : Nat} {f : GroupWork → GroupWork} (h : f (workOf s g) ≠ GroupWork.none) :
    workOf (onWork s g f) g = f (workOf s g) :=
  tabGet_modify_value s.train.work g h

theorem groupWork_ne_none_of_checked {w : GroupWork} (h : w.checked = true) : w ≠ GroupWork.none := by
  rintro rfl
  exact nomatch h

/-- The unscaled norm of a group's gradient, as its check finds it. -/
def checkedNorm (s : State) (g : Group) : FNum := unscaledNorm s.train.history.scaleExp (checkGroup s g).1

/-- The state in which a check is recorded: its over-bound detection is counted where skip_policy keeps it out of the flag. -/
def checkCounted (s : State) (g : Group) : State :=
  if overBound (checkedNorm s g) g.bound && !decide (cfg s 0x481003 = 0) then
    (checkGroup s g).2.2.2.onTrain (fun t => { t with overBoundSeen := t.overBoundSeen + 1 })
  else (checkGroup s g).2.2.2

/-- What a group's check records of the group. -/
theorem workOf_makeCheck (s : State) (g : Group) :
    workOf (makeCheck s g) g.number = { workOf (checkCounted s g) g.number with
      checked := true
      sumSq := BitVec.ofNat 64 (encodeNum 8 (checkGroup s g).1)
      under := (checkGroup s g).2.1
      count := (checkGroup s g).2.2.1
      nonfinite := !(checkedNorm s g).finite
      overBound := overBound (checkedNorm s g) g.bound && decide (cfg s 0x481003 = 0) } :=
  workOf_onWork_self (s := checkCounted s g) (groupWork_ne_none_of_checked rfl)

theorem overBoundSeen_makeCheck (s : State) (g : Group) :
    (makeCheck s g).train.overBoundSeen = (checkCounted s g).train.overBoundSeen := rfl

theorem feedsFlag_makeCheck (s : State) (g : Group) :
    feedsFlag (workOf (makeCheck s g) g.number) =
      (!(checkedNorm s g).finite || (overBound (checkedNorm s g) g.bound && decide (cfg s 0x481003 = 0))) := by
  rw [workOf_makeCheck]
  rfl

/-! ## DENSE_CHECK_UPDATE (R128 to R130, R159, R200) -/

/-- A dense group whose reduced gradient is here and unchecked, before the cut, and that is not the carrier's. -/
def checkDue (s : State) (g : Nat) : Prop :=
  g < 4096 ∧ (groupNow s g).valid = true ∧ (workOf s g).reduced = true ∧ (workOf s g).checked = false ∧ carrierNow s ≠ some g ∧
    s.train.cut = false

section
variable {s : State} {g : Nat} (hdue : checkDue s g)
include hdue

/-- What is left of the command once its check is made. -/
theorem exec_denseCheckUpdate_due :
    exec (.denseCheckUpdate g) s =
      if feedsFlag (workOf (makeCheck s (groupNow s g)) g) then
        done s (unhint (onWork (makeCheck s (groupNow s g)) g (fun w => { w with updated := true })) g)
      else if awaitsLine s (groupNow s g) then .next s
      else if (denseReads (makeCheck s (groupNow s g)) (groupNow s g)).1.held then done s (denseReads s (groupNow s g)).2
      else done s (unhint (updateGroup (makeCheck s (groupNow s g)) (groupNow s g)).1 g) := by
  obtain ⟨hdense, hvalid, hreduced, hchecked, hcarrier, hcut⟩ := hdue
  refine (if_neg hcarrier).trans ((if_neg ?_).trans (if_neg (Nat.not_le.mpr hdense)))
  simp [hvalid, hreduced, hchecked, hcut]

theorem exec_denseCheckUpdate_detected (hfeeds : feedsFlag (workOf (makeCheck s (groupNow s g)) g) = true) :
    exec (.denseCheckUpdate g) s =
      .next (noteChanges s (unhint (onWork (makeCheck s (groupNow s g)) g (fun w => { w with updated := true })) g)) :=
  (exec_denseCheckUpdate_due hdue).trans (if_pos hfeeds)

theorem exec_denseCheckUpdate_waits (hfeeds : feedsFlag (workOf (makeCheck s (groupNow s g)) g) = false)
    (hwait : awaitsLine s (groupNow s g) = true) : exec (.denseCheckUpdate g) s = .next s := by
  rw [exec_denseCheckUpdate_due hdue, hfeeds, hwait]
  rfl

theorem exec_denseCheckUpdate_updates (hfeeds : feedsFlag (workOf (makeCheck s (groupNow s g)) g) = false)
    (hwait : awaitsLine s (groupNow s g) = false) (hheld : (denseReads (makeCheck s (groupNow s g)) (groupNow s g)).1.held = false) :
    exec (.denseCheckUpdate g) s =
      .next (noteChanges s (unhint (updateGroup (makeCheck s (groupNow s g)) (groupNow s g)).1 g)) := by
  rw [exec_denseCheckUpdate_due hdue, hfeeds, hwait, hheld]
  rfl

end

/-! ## STAGING_CUT (R44, R133, R212) -/

/-- The step of a job at its cut: what the staged set leaves is the digest, and the retirements decided so far are kept (R44, R212). -/
def atCut (s : State) (carrier : Nat) : State :=
  (fixStagedSet s).1.onTrain (fun t => { t with
    cut := true
    lastCut := currentStep s
    stepState := 1
    ownSummary := some (ownSummaryOf (fixStagedSet s).1 carrier (fixStagedSet s).2)
    retireCut := decide (s.stack.retiring ≠ [] ∨ s.stack.sliceRetiring ≠ [])
    cutRetire := s.stack.retiring
    cutSlices := s.stack.sliceRetiring })

/-- Nothing withholds the cut of the step, whose work is done (R133). -/
def cutFree (s : State) (carrier : Nat) : Prop :=
  s.train.cut = false ∧ s.train.withheld = false ∧ s.resil.state ≤ 1 ∧ s.resil.memoryLost = false ∧ s.resil.twinState ≠ 2 ∧
    cutGateOpen s = true ∧ cutReady s carrier = true

theorem exec_stagingCut_free {s : State} {carrier : Nat} (hcarrier : carrierNow s = some carrier) (hfree : cutFree s carrier) :
    let summary := ownSummaryOf (fixStagedSet s).1 carrier (fixStagedSet s).2
    exec .stagingCut s =
      .next (noteChanges s (tryDecide (issueCarrier (sendTwinDigest (atCut s carrier) summary) carrier summary))) := by
  obtain ⟨hcut, hwithheld, hstate, hlost, htwin, hgate, hready⟩ := hfree
  have hgo : ¬ (s.train.cut ∨ s.train.withheld ∨ 1 < s.resil.state ∨ s.resil.memoryLost ∨ s.resil.twinState = 2 ∨
      cutGateOpen s = false ∨ cutReady s carrier = false) := by
    simp [hcut, hwithheld, hstate, hlost, htwin, hgate, hready]
  show execStagingCut s = _
  unfold execStagingCut
  rw [hcarrier]
  exact if_neg hgo

end Sys2Proof.Machine

namespace Sys2Proof.Proofs

open Sys2Proof Sys2Proof.Machine

/-- Settles O58: the check's record gives both detections, and skip_policy decides whether the second feeds the flag. -/
theorem groupCheckDetections : Obligations.GroupCheckDetections := by
  refine ⟨by decide +kernel, fun s g => ?_⟩
  refine ⟨congrArg GroupWork.nonfinite (workOf_makeCheck s g), fun hnf => ?_, fun hob hpolicy => ?_, fun hob hfin hpolicy => ?_,
    fun hfin hob => ?_, ?_⟩
  · exact (feedsFlag_makeCheck s g).trans (by rw [checkedNorm, hnf]; rfl)
  · exact (feedsFlag_makeCheck s g).trans (by rw [checkedNorm, hob, hpolicy]; simp)
  · refine ⟨(feedsFlag_makeCheck s g).trans (by rw [checkedNorm, hfin, hpolicy]; simp), ?_⟩
    rw [overBoundSeen_makeCheck, checkCounted, checkedNorm, hob, hpolicy]
    rfl
  · exact (feedsFlag_makeCheck s g).trans (by rw [checkedNorm, hfin, hob]; rfl)
  · rw [overBound, Bool.and_eq_true]

/-- Settles O32: the check's detection decides what the command does, and a cut that nothing withholds is made. -/
theorem groupsCheckedUpdatedAndCut : Obligations.GroupsCheckedUpdatedAndCut := by
  refine ⟨fun s g hdense hvalid hreduced hchecked hcarrier hcut => ?_, fun s carrier hcarrier hcut hwithheld hstate hlost htwin hgate hready =>
    exec_stagingCut_free hcarrier ⟨hcut, hwithheld, hstate, hlost, htwin, hgate, hready⟩⟩
  have hdue : checkDue s g := ⟨hdense, hvalid, hreduced, hchecked, hcarrier, hcut⟩
  exact ⟨exec_denseCheckUpdate_updates hdue, exec_denseCheckUpdate_waits hdue, exec_denseCheckUpdate_detected hdue⟩

end Sys2Proof.Proofs
end

section
/-! Packets of collectives: what each does when it is taken (R134, R188, R240, R241, R244). -/

namespace Sys2Proof.Machine

open Sys2Proof

/-! ## A packet that is taken (R231) -/

/-- A packet that is taken has its action done on the state that taking it leaves. -/
theorem withPacket_taken {s t : State} {ptype : Nat} {p : Packet} {f : State → State} (hrail : huskStopped s = false)
    (htake : takePacket s ptype p = some t) : withPacket s ptype p f = .next (noteChanges s (f t)) := by
  unfold withPacket
  rw [hrail, htake]
  rfl

/-- The collective that a packet belongs to. -/
def collOfPacket (p : Packet) : CollKey := ⟨p.comm, p.group, p.collId⟩

section
variable {s t : State} {p : Packet} (hrail : huskStopped s = false) (hstale : stalePacket t p = false)
include hrail hstale

/-- DATA that this member can take: combined where its collective reduces, written where it moves (R240). -/
theorem exec_data_taken (hnow : packetEarly s p = false) (hroom : holdFull s p = false) (htake : takePacket s 1 p = some t) :
    exec (.data p) s = .next (noteChanges s (
      if (collAt t (collOfPacket p) p.step).kind = 1 ∨ (collAt t (collOfPacket p) p.step).kind = 2 then
        reductionData t (collOfPacket p) p.step p
      else if fmtBytes (collAt t (collOfPacket p) p.step).fmt = 0 then t
      else moveReceived t (collOfPacket p) p.step p)) := by
  have hgo : ¬ (packetEarly s p || holdFull s p) = true := by simp [hnow, hroom]
  refine (if_neg hgo).trans ((withPacket_taken hrail htake).trans ?_)
  rw [hstale]
  rfl

theorem exec_data_reduction (hnow : packetEarly s p = false) (hroom : holdFull s p = false) (htake : takePacket s 1 p = some t)
    (hkind : (collAt t (collOfPacket p) p.step).kind = 1 ∨ (collAt t (collOfPacket p) p.step).kind = 2) :
    exec (.data p) s = .next (noteChanges s (reductionData t (collOfPacket p) p.step p)) := by
  rw [exec_data_taken hrail hstale hnow hroom htake, if_pos hkind]

theorem exec_data_move (hnow : packetEarly s p = false) (hroom : holdFull s p = false) (htake : takePacket s 1 p = some t)
    (hkind : 3 ≤ (collAt t (collOfPacket p) p.step).kind) (hfmt : fmtBytes (collAt t (collOfPacket p) p.step).fmt ≠ 0) :
    exec (.data p) s = .next (noteChanges s (moveReceived t (collOfPacket p) p.step p)) := by
  rw [exec_data_taken hrail hstale hnow hroom htake, if_neg (by omega), if_neg hfmt]

theorem exec_ready_root (htake : takePacket s 2 p = some t) (hroot : isRoot t (collOfPacket p) = true) :
    exec (.ready p) s = .next (noteChanges s (readyAtRoot (countTie t p) p)) := by
  refine (withPacket_taken hrail htake).trans ?_
  change isRoot t ⟨p.comm, p.group, p.collId⟩ = true at hroot
  rw [hroot, hstale]
  rfl

theorem exec_go_member (htake : takePacket s 3 p = some t) : exec (.go p) s = .next (noteChanges s (goAtMember t p)) := by
  refine (withPacket_taken hrail htake).trans ?_
  rw [hstale]
  rfl

theorem exec_inbound_binding {bn : Nat} (hnow : packetEarly s p = false) (htake : takePacket s 7 p = some t)
    (hbinding : bindingOfGroup t p.group = some bn) :
    exec (.inbound p) s = .next (noteChanges s (placeInbound (countInbound t bn p) bn p.elemOffset
      (p.payload.zipIdx.map (fun x => (x.1, p.poison.contains (x.2 / 8)))))) := by
  refine (if_neg (by simp [hnow])).trans ((withPacket_taken hrail htake).trans ?_)
  rw [hstale, hbinding]
  rfl

end

/-- RESULT of the current step, the first of it (R134). -/
theorem exec_result_first {s t : State} {p : Packet} (hrail : huskStopped s = false) (htake : takePacket s 4 p = some t)
    (hstep : p.step = currentStep t) (hfirst : t.train.reducedSummary = none) :
    exec (.result p) s = .next (noteChanges s (tryDecide (t.onTrain (fun x => { x with
      reducedSummary := some { summaryOf p.payload with digest := BitVec.ofNat 128 (natOfBytes ((p.payload.drop 32).take 16)) } })))) := by
  refine (withPacket_taken hrail htake).trans (congrArg (fun u => Host.Outcome.next (noteChanges s u)) (if_neg ?_))
  simp [hstep, hfirst]

end Sys2Proof.Machine

namespace Sys2Proof.Proofs

open Sys2Proof Sys2Proof.Machine

/-- Settles O28: each packet is taken, and its type, its collective and its step choose its action. -/
theorem collectivePacketsAct : Obligations.CollectivePacketsAct :=
  ⟨fun _ _ _ hnow hroom hrail htake hstale => exec_data_reduction hrail hstale hnow hroom htake,
    fun _ _ _ hnow hroom hrail htake hstale => exec_data_move hrail hstale hnow hroom htake,
    fun _ _ _ hrail htake hstale => exec_ready_root hrail hstale htake,
    fun _ _ _ hrail htake hstale => exec_go_member hrail hstale htake,
    fun _ _ _ hrail htake hstep hfirst => exec_result_first hrail htake hstep hfirst,
    fun _ _ _ _ hnow hrail htake hstale => exec_inbound_binding hrail hstale hnow htake⟩

end Sys2Proof.Proofs
end

section
/-! The merge of an exchanged binding's rows and their feed to the sweep (R140, R188, R189). -/

namespace Sys2Proof.Machine

open Sys2Proof

/-! ## Bindings -/

/-- The work of a binding that was changed to something else than none reads back, whatever the table. -/
theorem bindingOf_onBinding_self {s : State} {bn : Nat} {f : BindingWork → BindingWork} (h : f (bindingOf s bn) ≠ BindingWork.none) :
    bindingOf (onBinding s bn f) bn = f (bindingOf s bn) :=
  tabGet_modify_value s.cracker.bindings bn h

/-- Requests of Hazel's channels change their channel alone. -/
@[simp] theorem bindingOf_hazelRequests (s : State) (c : Nat) (write : Bool) (l : List Nat) (bn : Nat) :
    bindingOf (hazelRequests s c write l) bn = bindingOf s bn := rfl

@[simp] theorem bindingOf_noteChanges (s t : State) (bn : Nat) : bindingOf (noteChanges s t) bn = bindingOf t bn := by
  rw [bindingOf, noteChanges_cracker, bindingOf]

/-! ## MERGE_PASS (R140, R188) -/

/-- The collective that exchanged a binding's rows, which are merged in binary32. -/
def mergeColl (s : State) (bn : Nat) : Coll :=
  let b := bindingNow s bn
  { collAt s ⟨(tableRegion s b.region).comm, b.group, 0⟩ (currentStep s) with fmt := 7 }

/-- The contributions to a merge: those that came in, and this member's own rows if it contributes. -/
def mergeParts (s : State) (bn : Nat) (rows : List (Nat × List Nat × Bool)) (inb : List RowPart) : List RowPart :=
  let r := tableRegion s (bindingNow s bn).region
  let own := (collGroup s (⟨r.comm, (bindingNow s bn).group, 0⟩ : CollKey)).2
  inb ++ if contributes (mergeColl s bn) own then
    (rows.filter (fun x => ownsRow r x.1)).map (fun x => ⟨x.1, false, own, x.2.1, x.2.2⟩) else []

/-- The rows that contributions name, ascending. -/
def mergeOrder (all : List RowPart) : List Nat := all.foldl (fun l x => setAddSorted l x.row) []

/-- The state `t` after the combined rows and their list are written, and the accesses of channel 12 asked for. -/
def mergeWritten (s t : State) (bn : Nat) (all : List RowPart) (rows : List Nat) : State :=
  let b := bindingNow s bn
  let g := groupNow s b.group
  let sums := rows.flatMap (fun x =>
    (combineParts t (mergeColl s bn) g.rowLen x (all.filter (fun y => decide (y.row = x)))).flatMap (bytesOfNat 4))
  let list := wholeSectors t b.listBase (rows.flatMap (fun x => bytesOfNat 4 (localRow (tableRegion s b.region) x)))
  let written := disturb (putMem (putMem t g.rbuf sums) b.listBase list) [⟨g.rbuf, sums.length⟩, ⟨b.listBase, list.length⟩]
  hazelRequests (hazelRequests written 12 false
    (partialSectors s bn ++ sectorsOf b.inboundBase (inboundBytes g.rowLen * (bindingOf s bn).inbound)))
    12 true (sectorsOf g.rbuf sums.length ++ sectorsOf b.listBase list.length)

/-- The binding has merged `n` rows: its group's contribution is final and reduced. -/
def mergeEnded (s t : State) (bn n : Nat) : State :=
  let group := (bindingNow s bn).group
  saveResult (onWork ((onBinding t bn (fun w => { w with merged := true, mergedRows := n })).onCracker (fun k => { k with
    mergedRows := tabSet 0 k.mergedRows bn n })) group (fun x => { x with final := true, reduced := true })) group

section
variable {s s1 s2 : State} {bn : Nat} {rows : List (Nat × List Nat × Bool)} {inb : List RowPart}
  (hexchanged : (bindingOf s bn).exchanged = true) (hmerged : (bindingOf s bn).merged = false) (hrail : huskStopped s = false)
  (hrows : partialRowsOf s bn = (rows, s1)) (hinb : inboundParts s1 bn = (inb, s2))
include hexchanged hmerged hrail hrows hinb

/-- The merge of an exchanged binding: a poisoned contribution is an escape, and rows that do not fit the stage are a fault. -/
theorem exec_mergePass_exchanged :
    let all := mergeParts s bn rows inb
    let g := groupNow s (bindingNow s bn).group
    let fits := (mergeOrder all).take g.stageRows
    let u := mergeWritten s (if all.any (fun x => x.poison) then poisonEscape s2 else s2) bn all fits
    exec (.mergePass bn) s = .next (noteChanges s (mergeEnded s
      (if g.stageRows < (mergeOrder all).length then localFault u 0x05000502 (bindingNow s bn).group else u) bn fits.length)) := by
  have hgo : ¬ ((bindingOf s bn).exchanged = false ∨ (bindingOf s bn).merged ∨ huskStopped s) := by
    simp [hexchanged, hmerged, hrail]
  show execMergePass bn s = _
  unfold execMergePass
  simp only [if_neg hgo, hrows, hinb]
  rfl

/-- The merge of rows without poison that fit the stage. -/
theorem exec_mergePass_fits (hclean : (mergeParts s bn rows inb).any (fun x => x.poison) = false)
    (hfit : (mergeOrder (mergeParts s bn rows inb)).length ≤ (groupNow s (bindingNow s bn).group).stageRows) :
    let all := mergeParts s bn rows inb
    exec (.mergePass bn) s =
      .next (noteChanges s (mergeEnded s (mergeWritten s s2 bn all (mergeOrder all)) bn (mergeOrder all).length)) := by
  intro all
  rw [exec_mergePass_exchanged hexchanged hmerged hrail hrows hinb, hclean, List.take_of_length_le hfit, if_neg (Nat.not_lt.mpr hfit)]
  rfl

end

/-! ## SWEEP_FEED and STAGED_ROW_READY (R189) -/

/-- The next row that channel 14 takes: of the merged ones, the first not fed yet that is present or that can be set aside. -/
def nextRow (s : State) (bn : Nat) : Option Nat :=
  ((List.range (bindingOf s bn).mergedRows).map (listedRow s (bindingNow s bn))).find? (fun x =>
    !rowFed s bn (bindingNow s bn).group x && (rowPresent s (groupNow s (bindingNow s bn).group) x || decide (stagedAside s < 16384)))

/-- The lines of a row that are missing are asked of their home slices. -/
def fillRow (s : State) (g : Group) (row : Nat) : State :=
  (rowLines g row).foldl (fun t l => if (findLine t l).isSome then t else accessLine t ⟨.cracker 14, l, 0xFF, 0, 0, 0xFF⟩) s

theorem sliceOnly_fillRow (s : State) (g : Group) (row : Nat) : sliceOnly s (fillRow s g row) := by
  unfold fillRow
  induction rowLines g row generalizing s with
  | nil => exact sliceOnly_refl s
  | cons l ls ih =>
    refine sliceOnly_trans ?_ (ih _)
    dsimp only
    split
    · exact sliceOnly_refl s
    · exact sliceOnly_accessLine s _

/-- A binding of which one more row is set aside. -/
def asideOf (row : Nat) (w : BindingWork) : BindingWork := { w with staging := w.staging ++ [row] }

theorem asideOf_ne_none (row : Nat) (w : BindingWork) : asideOf row w ≠ BindingWork.none := fun h =>
  List.append_ne_nil_of_right_ne_nil w.staging (List.cons_ne_nil row []) (congrArg BindingWork.staging h)

/-- A row is set aside by channel 14 while its lines are filled. -/
def setAside (s : State) (bn row : Nat) : State :=
  (onBinding (fillRow s (groupNow s (bindingNow s bn).group) row) bn (asideOf row)).onCracker
    (fun k => { k with stagedRows := k.stagedRows + 1 })

/-- The feed of the next row of a merged binding: delivered where its lines are present, set aside otherwise. -/
theorem exec_sweepFeed_next {s : State} {bn row : Nat} (hsweep : s.train.sweepBegun = true) (hmerged : (bindingOf s bn).merged = true)
    (hrail : huskStopped s = false) (hnext : nextRow s bn = some row) :
    exec (.sweepFeed bn) s = .next (noteChanges s
      (if rowPresent s (groupNow s (bindingNow s bn).group) row then feedRow s bn row else setAside s bn row)) := by
  have hgo : ¬ (s.train.sweepBegun = false ∨ (bindingOf s bn).merged = false ∨ huskStopped s) := by simp [hsweep, hmerged, hrail]
  unfold nextRow at hnext
  show execSweepFeed bn s = _
  unfold execSweepFeed
  simp only [if_neg hgo, hnext]
  split <;> rfl

section
variable {s : State} {bn row : Nat} (hsweep : s.train.sweepBegun = true) (hmerged : (bindingOf s bn).merged = true)
  (hrail : huskStopped s = false) (hnext : nextRow s bn = some row)
include hsweep hmerged hrail hnext

theorem exec_sweepFeed_present (hpresent : rowPresent s (groupNow s (bindingNow s bn).group) row = true) :
    exec (.sweepFeed bn) s = .next (noteChanges s (feedRow s bn row)) := by
  rw [exec_sweepFeed_next hsweep hmerged hrail hnext, if_pos hpresent]

theorem exec_sweepFeed_missing (hmissing : rowPresent s (groupNow s (bindingNow s bn).group) row = false) :
    exec (.sweepFeed bn) s = .next (noteChanges s (setAside s bn row)) := by
  rw [exec_sweepFeed_next hsweep hmerged hrail hnext, if_neg (Bool.not_eq_true _ ▸ hmissing)]

end

/-- A binding whose row was delivered: it is ready at its update tile, and counted. -/
def delivered (row : Nat) (w : BindingWork) : BindingWork :=
  { w with staging := w.staging.erase row, ready := setAdd w.ready row, fed := w.fed + 1 }

theorem delivered_ne_none (row : Nat) (w : BindingWork) : delivered row w ≠ BindingWork.none := fun h =>
  absurd (congrArg BindingWork.fed h) (Nat.succ_ne_zero w.fed)

theorem bindingOf_feedRow (s : State) (bn row : Nat) : bindingOf (feedRow s bn row) bn = delivered row (bindingOf s bn) :=
  bindingOf_onBinding_self (f := delivered row) (delivered_ne_none row _)

@[simp] theorem feedRow_mem (s : State) (bn row : Nat) : (feedRow s bn row).mem = s.mem := rfl
@[simp] theorem feedRow_tiles (s : State) (bn row : Nat) : (feedRow s bn row).tiles = s.tiles := rfl
@[simp] theorem feedRow_train (s : State) (bn row : Nat) : (feedRow s bn row).train = s.train := rfl

/-- What setting a row aside does once its missing lines are asked for, which reaches the slices alone. -/
theorem setAside_of_fill (s : State) (bn row : Nat) :
    (bindingOf (setAside s bn row) bn).staging = (bindingOf s bn).staging ++ [row] ∧
      (setAside s bn row).cracker.stagedRows = s.cracker.stagedRows + 1 ∧ (setAside s bn row).mem = s.mem ∧
      (setAside s bn row).tiles = s.tiles ∧ (setAside s bn row).train = s.train := by
  have hfill := sliceOnly_fillRow s (groupNow s (bindingNow s bn).group) row
  unfold setAside
  generalize fillRow s (groupNow s (bindingNow s bn).group) row = t at hfill ⊢
  obtain ⟨c, rfl⟩ := hfill
  refine ⟨?_, rfl, rfl, rfl, rfl⟩
  have hsome : asideOf row (bindingOf s bn) ≠ BindingWork.none := asideOf_ne_none row _
  exact congrArg BindingWork.staging (tabGet_modify_value s.cracker.bindings bn (f := asideOf row) hsome)

/-- No fill of a row's lines is under way, waits, or is asked for. -/
theorem exec_stagedRowReady_filled {s : State} {bn row : Nat} (haside : (bindingOf s bn).staging.contains row = true)
    (hrail : huskStopped s = false)
    (hfilled : ∀ l ∈ rowLines (groupNow s (bindingNow s bn).group) row, (∀ f ∈ s.cache.fills, f.line ≠ l) ∧
      (∀ x ∈ s.cache.waiting, x.2.1 ≠ l) ∧ (∀ x ∈ s.cache.blocked, x.line ≠ l)) :
    exec (.stagedRowReady bn row) s = .next (noteChanges s (feedRow s bn row)) := by
  have hfilling : (rowLines (groupNow s (bindingNow s bn).group) row).any (fun l => s.cache.fills.any (fun f => f.line == l) ||
      s.cache.waiting.any (fun x => x.2.1 == l) || s.cache.blocked.any (fun x => x.line == l)) = false := by
    refine List.any_eq_false.mpr fun l hl => ?_
    obtain ⟨hfills, hwaiting, hblocked⟩ := hfilled l hl
    simp only [Bool.or_eq_true, List.any_eq_true, beq_iff_eq]
    rintro ((⟨f, hf, e⟩ | ⟨x, hx, e⟩) | ⟨x, hx, e⟩)
    · exact hfills f hf e
    · exact hwaiting x hx e
    · exact hblocked x hx e
  refine if_neg ?_
  rw [haside, hfilling, hrail]
  decide

end Sys2Proof.Machine

namespace Sys2Proof.Proofs

open Sys2Proof Sys2Proof.Machine

/-- Settles O24: the merge writes and lists the rows of clean contributions that fit, and a row goes from the feed, or from where it was
set aside, to its update tile. -/
theorem rowsMergedAndFed : Obligations.RowsMergedAndFed := by
  refine ⟨?_, ?_, ?_, fun s bn row haside hrail hfilled => exec_stagedRowReady_filled haside hrail hfilled⟩
  · intro s s1 s2 bn rows inb _ b g r k c own all order sums list written asked hexchanged hmerged hrail hrows hinb hclean hfit
    exact exec_mergePass_fits hexchanged hmerged hrail hrows hinb hclean hfit
  · intro s bn row hsweep hmerged hrail hnext hpresent
    refine ⟨_, exec_sweepFeed_present hsweep hmerged hrail hnext hpresent, ?_⟩
    simp [bindingOf_feedRow, delivered]
  · intro s bn row hsweep hmerged hrail hnext hmissing
    refine ⟨_, exec_sweepFeed_missing hsweep hmerged hrail hnext hmissing, ?_⟩
    simpa using setAside_of_fill s bn row

end Sys2Proof.Proofs
end

section
/-! Writes of write-only objects with a value: the action that each object's key names, and what those actions do or refuse (R143, R144,
R234, R254, R261, R273, R290, R295, R325, R338, R349 to R351, R358, R360, R361). -/

namespace Sys2Proof.Machine

open Sys2Proof

/-! ## A refused write of a WO object (R325, R328) -/

theorem acceptWrites_writeOnly_refused {s : State} {w : PartWrite} {applyAt : Nat} {found : Findings} {e : Refused}
    (ho : w.obj.access = 4) (hact : woAction found (counted s) w.obj w.off w.data applyAt = .error e) :
    acceptWrites found s applyAt [w] = .error e := by
  have hstaged : w.obj.staged = false := by simp [Obj.staged, ho]
  have hpart : writePart found (s.dict.ordinal + 1) applyAt (s.onDict (fun d => { d with ordinal := s.dict.ordinal + 1 })) w =
      .error e := by
    unfold writePart
    rw [ho]
    exact hact
  simp [acceptWrites, hstaged, writeParts, hpart]

theorem perform_write_refused {s : State} {r : Request} {x : Session} {o : Obj} {e : Refused} {found : Findings} (h : writes s r x o)
    (ha : acceptWrites found (inUse s x) r.applyAt [⟨o, r.offset, r.data, 2⟩] = .error e) :
    perform found (inUse s x) 2 r = ⟨inUse s x, refuse (inUse s x) 2 r e, none⟩ := by
  obtain ⟨⟨-, -, -, -, hsess, hpend, -, -, hserved⟩, hbatch, hcheck⟩ := h
  have hsess' := sessionOf_inUse hpend hsess
  have hcheck' := (checkWrite_role (x := x) (y := { x with lastUse := s.power.refPeriods }) rfl r false false).trans hcheck
  simp only [perform, hserved, hsess', writeRequest, hbatch, ne_eq, not_true_eq_false, if_false, Nat.reduceEqDiff,
    decide_false, hcheck', Bool.false_eq_true, ha]

/-- A refused action changes nothing: its code goes into the reply, which is kept and sent. -/
theorem serve_writeOnly_refused {s : State} {r : Request} {x : Session} {o : Obj} {e : Refused} {found : Findings} (h : writes s r x o)
    (ho : o.access = 4) (hact : woAction found (counted (inUse s x)) o r.offset r.data r.applyAt = .error e) :
    serve found 2 r s = .next (noteChanges s (replied (inUse s x) r (refuse (inUse s x) 2 r e))) := by
  rw [serve_of_askedBy found h.1,
    perform_write_refused h (acceptWrites_writeOnly_refused (w := ⟨o, r.offset, r.data, 2⟩) ho hact)]
  rfl

/-! ## Objects with a value -/

/-- The dictionary has a WO object under the key, whose writes ask for no stack reset (R344, R360). -/
def isAction (key : Nat) : Bool :=
  decide (key ≠ 0x181003 ∧ key ≠ 0x701001) && (objFind key).any (fun o => decide (o.key = key ∧ o.access = 4))

/-- What a write with a value does to a state, from its offset, its bytes and its apply-at step. -/
abbrev ValueAction := State → Nat → List Byte → Nat → Except Code State

/-- The object's action, where the tests find what `found` says, is `act`. -/
def actionIs (found : Findings) (key : Nat) (act : ValueAction) : Prop :=
  ∀ o, objFind key = some o → ∀ s off l applyAt, woAction found s o off l applyAt = acted key (act s off l applyAt)

/-- A write with a value acts, or is refused with its action's code. -/
theorem serveWrite_value {found : Findings} {key : Nat} {act : ValueAction} {s : State} {r : Request} {x : Session} {o : Obj}
    (hobject : isAction key = true) (haction : actionIs found key act) (hr : r.index * 256 + r.sub = key) (h : writes s r x o) :
    (∀ t, act (counted (inUse s x)) r.offset r.data r.applyAt = .ok t → serveWrite key found r s = .next (acts s t r)) ∧
    (∀ c, act (counted (inUse s x)) r.offset r.data r.applyAt = .error c → serveWrite key found r s =
      .next (noteChanges s (replied (inUse s x) r (refuse (inUse s x) 2 r (crossRefusal c key))))) := by
  have hobj := objFind_of_writes h
  rw [hr] at hobj
  simp only [isAction, hobj, Option.any_some, Bool.and_eq_true, decide_eq_true_eq] at hobject
  obtain ⟨⟨hreset, htest⟩, hkey, hacc⟩ := hobject
  have hnone : resetAsked [⟨o, r.offset, r.data, 2⟩] = none := by simp [resetAsked, hkey, hreset, htest]
  have hact := haction o hobj (counted (inUse s x)) r.offset r.data r.applyAt
  rw [serveWrite, if_pos hr]
  refine ⟨fun t ht => serve_writeOnly h hacc hnone ?_, fun c hc => serve_writeOnly_refused h hacc ?_⟩
  · rw [hact, ht, acted]
  · rw [hact, hc, acted]

/-- The dictionary has an object under the key whose type is BOOL, or is not. -/
def isBool (b : Bool) (key : Nat) : Bool := (objFind key).all (fun o => decide (o.key = key) && decide (o.typ = 1) == b)

/-- What the action of an object is goes by its key and by whether it is a BOOL. -/
theorem actionIs_of_key {found : Findings} {key : Nat} {act : ValueAction} (b : Bool) (hbool : isBool b key = true)
    (h : ∀ o : Obj, o.key = key → (o.typ = 1 ↔ b = true) →
      ∀ s off l applyAt, woAction found s o off l applyAt = acted key (act s off l applyAt)) : actionIs found key act := by
  intro o ho
  rw [isBool, ho, Option.all_some, Bool.and_eq_true, decide_eq_true_eq, beq_iff_eq] at hbool
  obtain ⟨hkey, htyp⟩ := hbool
  exact h o hkey (by rw [← htyp, decide_eq_true_eq])

/-- A row of the value writes. -/
def valueRow (row : Nat × (Request → Instr) × ValueAction) : Prop :=
  isAction row.1 = true ∧ (∀ r s, exec (row.2.1 r) s = serveWrite row.1 Findings.nothing r s) ∧ actionIs Findings.nothing row.1 row.2.2

/-! ## What the actions do -/

theorem enableQueue_disabled {s : State} {q : Nat} (hstate : (queueOf s q).state = 0) (hzero : (queueRecord s q).zero = false) :
    let n := (queueRecord s q).startSeq
    enableQueue s q = .ok (onQueue s q (fun x => ⟨1, 0, n, n, n, n, 0, [], x.entries, x.entries.map (fun e => e.seq)⟩)) := by
  refine (if_neg (not_not.mpr hstate)).trans (if_neg ?_)
  simp [hzero]

theorem enableQueue_again {s : State} {q : Nat} (hstate : (queueOf s q).state ≠ 0) : enableQueue s q = .error 0x01100A06 :=
  if_pos hstate

theorem enableConn_again {s : State} {c : Nat} (hstate : (connOf s c).state ≠ 0) : enableConn s c = .error 0x01100A01 :=
  if_pos (.inl hstate)

theorem requestMargin_starts {s : State} {l : List Byte} (found : Findings) (htest : s.boot.testState = 1)
    (hidle : s.boot.marginState ≠ 1) (hform : marginMalformed (natOfBytes l) = false) :
    requestMargin s found l = .ok (s.onBoot (fun b => { b with marginState := 1, marginRequest := l })) := by
  refine (if_neg (by omega)).trans (if_neg ?_)
  simp [htest, hidle, hform]

theorem requestMargin_outside {s : State} (l : List Byte) (found : Findings) (htest : s.boot.testState = 0) :
    requestMargin s found l = .error 0x01100E11 :=
  (if_neg (by omega)).trans (if_pos (.inl (by omega)))

theorem requestMargin_reruns {s : State} (l : List Byte) (found : Findings) (htest : s.boot.testState = 2) :
    requestMargin s found l = .ok (rerunTests s found) := if_pos htest

/-- What a request in use leaves of start-up. -/
theorem boot_inUse (s : State) (x : Session) : (inUse s x).boot = s.boot := by
  unfold inUse performKept.touch
  split <;> rfl

/-- In test state 2 a margin request runs the tests again (R360). -/
theorem exec_bistRerun {s : State} {r : Request} {x : Session} {o : Obj} (found : Findings) (hr : r.index * 256 + r.sub = 0x701002)
    (h : writes s r x o) (htest : s.boot.testState = 2) :
    exec (.bistRerun r found.1 found.2) s = .next (acts s (rerunTests (counted (inUse s x)) found) r) := by
  have haction : actionIs found 0x701002 (fun s _ l _ => requestMargin s found l) := 
    actionIs_of_key false (by decide +kernel) fun o hkey htyp s off l applyAt => by simp [woAction, hkey, htyp]
  refine (serveWrite_value (by decide +kernel) haction hr h).1 _ (requestMargin_reruns r.data found ?_)
  rw [← htest, ← boot_inUse s x]
  rfl

theorem abortStep_late {s : State} {step : Nat} (h : step ≠ currentStep s ∨ s.train.cut = true) : abortStep s step = .error 0x01100507 :=
  if_pos h

theorem resumeModule_early {s : State} {v : Nat} (h : s.resil.state ≠ 5 ∨ v ≠ s.resil.restore + 1) :
    resumeModule s v = .error 0x01100B07 := if_pos h

/-! ### Uploads (R351) -/

theorem targetCopy_none {s : State} (h : s.boot.uploadTarget = 0) : targetCopy s = none := by
  simp [targetCopy, h]

theorem uploadBytes_erased {s : State} {off c : Nat} (b : Byte) (htarget : targetCopy s = some c) (hstate : (copyOf s c).state = 3)
    (hfree : tabFind (copyOf s c).bytes off = none) :
    uploadBytes s off [b] = .ok (setCopy s c ⟨3, tabInsert (copyOf s c).bytes off b⟩) := by
  simp [uploadBytes, htarget, hstate, programBytes, hfree]

theorem uploadBytes_untargeted {s : State} (off : Nat) (l : List Byte) (h : s.boot.uploadTarget = 0) :
    uploadBytes s off l = .error 0x07130E09 := by
  rw [uploadBytes, targetCopy_none h]

theorem verifyUpload_target {s : State} {c : Nat} (htarget : targetCopy s = some c) :
    verifyUpload s = .ok (if imageValid s c then setCopyState s c 1
      else raise (setCopyState s c 2) (if c < 2 ∧ imageSigned s c = true then 0x07130E07 else 0x07130E06) c) := by
  simp only [verifyUpload, htarget]
  split <;> rfl

theorem verifyUpload_untargeted {s : State} (h : s.boot.uploadTarget = 0) : verifyUpload s = .error 0x07130E06 := by
  rw [verifyUpload, targetCopy_none h]

/-! ### Reports (R358, R359) -/

/-- A report takes its signing index before it is signed; a reserved one needs no new reservation. -/
theorem requestReport_reserved {s : State} (nonce : List Byte) (hidle : s.boot.attestState ≠ 1) (hindex : s.boot.sigIndex < sigReserved s)
    (hroom : sigReserved s < 2 ^ 40) :
    requestReport s nonce = .ok (s.onBoot (fun b => { b with
      attestState := 1
      attestBody := reportBody s nonce b.sigIndex
      sigIndex := b.sigIndex + 1 })) := by
  have hkept : ¬ (sigReserved s ≤ s.boot.sigIndex ∧ sigReserved s < 2 ^ 40) := by omega
  unfold requestReport
  rw [if_neg hidle]
  dsimp only
  rw [if_neg hkept, if_neg (Nat.not_le.mpr hroom)]

end Sys2Proof.Machine

namespace Sys2Proof.Proofs

open Sys2Proof Sys2Proof.Machine

/-- Settles O36: every row is the write of one object, whose action its key gives, and each action is taken by its own condition. -/
theorem valueWritesAct : Obligations.ValueWritesAct := by
  constructor
  · suffices hrows : ∀ row ∈ _, valueRow row from fun row hrow s r x o hr h => by
      obtain ⟨hobject, hexec, haction⟩ := hrows row hrow
      rw [hexec]
      exact serveWrite_value hobject haction hr h
    simp only [List.forall_mem_cons, List.not_mem_nil, false_implies, implies_true, and_true]
    refine ⟨?_, ?_, ?_, ?_, ?_, ?_, ?_, ?_, ?_, ?_, ?verify, ?_, ?_, ?_, ?_, ?_⟩
    case verify =>
      exact ⟨by decide +kernel, fun _ _ => rfl, actionIs_of_key true (by decide +kernel) fun o hkey htyp s off l applyAt => by
        simp [woAction, hkey, htyp, boolAction]⟩
    all_goals exact ⟨by decide +kernel, fun _ _ => rfl, actionIs_of_key false (by decide +kernel) fun o hkey htyp s off l applyAt => by
      simp [woAction, hkey, htyp, clearSilent, portResetWrite]⟩
  · exact ⟨fun _ _ hstate hzero => enableQueue_disabled hstate hzero, fun _ _ => enableQueue_again, fun _ _ => enableConn_again,
      fun _ _ found htest hidle hform => requestMargin_starts found htest hidle hform, fun _ => requestMargin_outside,
      fun _ _ _ _ found hbm hr h htest => exec_bistRerun (found, hbm) hr h htest, fun _ _ => abortStep_late, fun _ _ => resumeModule_early,
      fun _ _ _ b htarget hstate hfree => uploadBytes_erased b htarget hstate hfree, fun _ _ => verifyUpload_target,
      fun _ => verifyUpload_untargeted, fun _ off l => uploadBytes_untargeted off l,
      fun _ nonce hidle hindex hroom => requestReport_reserved nonce hidle hindex hroom⟩

end Sys2Proof.Proofs
end

section
/-! The sweep of a merged row (R136 to R141): its stage slot, its moments, its weights, and the resumption from the slots. What reading
and writing memory leaves of the training step stands first. -/

namespace Sys2Proof.Machine

open Sys2Proof

/-! ## What memory leaves of the training step (R195, R199 to R205) -/

@[simp] theorem raise_train (s : State) (c : Code) (a : Nat) : (raise s c a).train = s.train := linkOnly_train (linkOnly_raise s c a)

theorem train_foldl {α : Type} {f : State → α → State} (hf : ∀ t x, (f t x).train = t.train) (s : State) (l : List α) :
    (l.foldl f s).train = s.train := by
  induction l generalizing s with
  | nil => rfl
  | cons x l ih => exact (ih _).trans (hf s x)

@[simp] theorem holdLine_train (s : State) (a : Nat) : (holdLine s a).train = s.train := by
  simp only [holdLine]
  split <;> simp

@[simp] theorem copyRow_train (s : State) (bank row : Nat) : (copyRow s bank row).train = s.train := by
  refine train_foldl (fun t e => ?_) s _
  dsimp only
  split
  · rfl
  · split
    · split
      · rfl
      · split <;> simp
    · rfl

@[simp] theorem demandRow_train (s : State) (a : Nat) : (demandRow s a).train = s.train := by
  unfold demandRow repairRowAt
  dsimp only
  split_ifs <;> simp

@[simp] theorem readWord_train (s : State) (w : Nat) : (readWord s w).2.train = s.train := by
  simp only [readWord]
  split
  · split
    · rfl
    · rfl
    · dsimp only
      split_ifs <;> simp
  · split
    · rfl
    · rfl
    · rfl
    · rfl
    · split <;> simp

@[simp] theorem readWords_train (n : Nat) (s : State) (w : Nat) : (readWords n s w).2.train = s.train := by
  induction n generalizing s w with
  | zero => rfl
  | succ n ih =>
    simp only [readWords]
    split <;> exact (ih _ _).trans (readWord_train s w)

@[simp] theorem spoilWord_train (s : State) (w : Nat) : (spoilWord s w).train = s.train := rfl

@[simp] theorem lookupTags_train (s : State) (a len : Nat) : (lookupTags s a len).train = s.train := by
  unfold lookupTags
  split
  · rfl
  · refine train_foldl (fun t n => ?_) s _
    unfold lookupTag
    extract_lets drop
    have hdrop : ∀ u, (drop u).train = u.train := fun _ => rfl
    clear_value drop
    split
    · rfl
    · exact hdrop _
    · exact hdrop _
    · exact (hdrop _).trans (train_foldl (fun u i => spoilWord_train u (8 * n + i)) t _)

@[simp] theorem readThrough_train (s : State) (who : Initiator) (a len : Nat) : (readThrough s who a len).2.train = s.train := by
  refine (sliceOnly_train (sliceOnly_accessSlices _ who a len false)).trans ?_
  exact (readWords_train _ _ _).trans (lookupTags_train s a len)

@[simp] theorem disturb_train (s : State) (l : List Run) : (disturb s l).train = s.train := by
  refine (train_foldl (fun t e => ?_) (noteWritten s l) (inFlight s)).trans rfl
  dsimp only
  split_ifs <;> rfl

@[simp] theorem enterHolding_train (s : State) : (enterHolding s).train = s.train := by
  unfold enterHolding
  split <;> rfl

@[simp] theorem leavePair_train (s : State) : (leavePair s).train = s.train := by
  unfold leavePair
  split
  · exact (linkOnly_train (linkOnly_sendPacket _ _)).trans (onResil_train s _)
  · rfl

/-- Withholding a cut leaves the rows of the sweep. -/
@[simp] theorem withholdCut_sweep (s : State) : (withholdCut s).train.sweep = s.train.sweep := by
  unfold withholdCut
  split
  · simp
  · split
    · rfl
    · rw [leavePair_train, linkOnly_train (linkOnly_sendHoldNotices _), enterHolding_train]
      rfl

/-- A poison escape leaves the rows of the sweep. -/
@[simp] theorem poisonEscape_sweep (s : State) : (poisonEscape s).train.sweep = s.train.sweep := by
  unfold poisonEscape
  dsimp only
  split_ifs <;> simp [stopModule]

@[simp] theorem writeWhole_sweep (s : State) (w : Nat) (d : Word64) (p : Bool) : (writeWhole s w d p).train.sweep = s.train.sweep := by
  unfold writeWhole
  dsimp only
  split_ifs <;> simp

@[simp] theorem writeNarrow_sweep (s : State) (w : Nat) (new : List (Option (Byte × Bool))) :
    (writeNarrow s w new).1.train.sweep = s.train.sweep := by
  unfold writeNarrow
  dsimp only
  split
  · split
    · simp
    · simp
    · split_ifs <;> simp
  · have hr := readWord_train s w
    split <;> rename_i e <;> rw [e] at hr <;> simp_all

@[simp] theorem writeWords_sweep (n : Nat) (s : State) (w a : Nat) (l : List (Byte × Bool)) :
    (writeWords n s w a l).1.train.sweep = s.train.sweep := by
  induction n generalizing s w with
  | zero => rfl
  | succ n ih =>
    simp only [writeWords]
    split <;> simp [ih]

@[simp] theorem writeMarked_sweep (s : State) (a : Nat) (l : List (Byte × Bool)) : (writeMarked s a l).1.train.sweep = s.train.sweep := by
  unfold writeMarked
  split <;> simp

/-- Writing a row back from its stage slot leaves what the sweep knows of its rows. -/
@[simp] theorem writePlanes_sweep (s : State) (g : Group) (i row : Nat) (planes : List Nat) :
    (writePlanes s g i row planes).train.sweep = s.train.sweep := by
  unfold writePlanes
  induction planes generalizing s with
  | nil => rfl
  | cons p planes ih => exact (ih _).trans (by simp)

@[simp] theorem writeBack14_sweep (s : State) (g : Group) (slot row : Nat) (planes : List Nat) :
    (writeBack14 s g slot row planes).train.sweep = s.train.sweep := writePlanes_sweep s g slot row planes

@[simp] theorem writeBack14_mem (s : State) (g : Group) (slot row : Nat) (planes : List Nat) :
    (writeBack14 s g slot row planes).mem = (writePlanes s g slot row planes).mem := rfl

/-! ## SWEEP_ROW (R138, R139) -/

/-- What the update of a delivered row reads, once the step's coefficients are there. -/
def sweepReads (s : State) (group row bn : Nat) : UpdateReads × State :=
  rowReads (writeCoefficients s) (groupNow s group) (rankOf s bn row) row

/-- The results of a delivered row's update. -/
def sweepResults (s : State) (group row bn : Nat) : List Updated :=
  updateResults (ownContext (sweepReads s group row bn).2) (sweepReads s group row bn).1 (groupNow s group).rowLen

/-- The row is taken, and its stage slot begun to be filled (R138). -/
def slotBegun (s : State) (group row bn : Nat) : State :=
  let g := groupNow s group
  putThrough (onBinding (sweepReads s group row bn).2 bn (fun w => { w with ready := setRemove w.ready row })) (.pip g.tileFirst)
    (stageSlot g (rankOf s bn row)) (stageHeader (currentStep s) 1 group g.rowLen row)

/-- The row's results stand in its stage slot, which is complete (R138). -/
def slotComplete (s : State) (group row bn : Nat) : State :=
  let g := groupNow s group
  setStageState (writeUpdated (slotBegun s group row bn) (.pip g.tileFirst) (sweepResults s group row bn)
    ((List.range 6).map (fun p => stageSlot g (rankOf s bn row) + 64 + 2 * g.rowLen * p))) g (rankOf s bn row) 2 row

/-- A delivered row of a binding of the group, whose reads meet nothing that stops its update. -/
def sweepDue (s : State) (group row bn : Nat) : Prop :=
  bindingOfGroup s group = some bn ∧ s.train.sweepBegun = true ∧ (bindingOf s bn).ready.contains row = true ∧ sweepHeld s = false ∧
    awaitsRow s (groupNow s group) row = false ∧ (sweepReads s group row bn).1.held = false ∧ (sweepReads s group row bn).1.error = false

/-- A delivered row is held if a result is not finite, and else written to its slot, its moments after it (R138, R139). -/
theorem exec_sweepRow_due {s : State} {group row bn : Nat} (hdue : sweepDue s group row bn) :
    let g := groupNow s group
    let rank := rankOf s bn row
    exec (.sweepRow group row) s = .next (noteChanges s (
      if (sweepResults s group row bn).any (fun y => y.bad) then
        (raise (setStageState (slotBegun s group row bn) g rank 0 row) 0x05000501 row).onTrain (fun t => { t with
          lastHeldRow := row + group * 2 ^ 32
          sweep := t.sweep ++ [⟨group, row, rank, rank, 0, false, false, true⟩] })
      else touchRow ((writeBack14 (slotComplete s group row bn) g rank row [2, 3, 4, 5]).onTrain (fun t => { t with
          sweep := t.sweep ++ [⟨group, row, rank, rank, 2, false, false, false⟩] })) group row)) := by
  obtain ⟨hbinding, hbegun, hready, hheld, hlines, hrheld, hrerror⟩ := hdue
  have hgo : ¬ (s.train.sweepBegun = false ∨ (bindingOf s bn).ready.contains row = false ∨ awaitsRow s (groupNow s group) row ∨
      sweepHeld s) := by
    rw [hbegun, hready, hlines, hheld]
    decide
  unfold sweepReads at hrheld hrerror
  intro g rank
  show execSweepRow group row s = _
  unfold execSweepRow
  simp only [hbinding, if_neg hgo, hrheld, hrerror, Bool.false_eq_true, if_false]
  by_cases hbad : (sweepResults s group row bn).any (fun y => y.bad) = true
  · exact (if_pos hbad).trans (congrArg (done s) (if_pos hbad).symm)
  · exact (if_neg hbad).trans (congrArg (done s) (if_neg hbad).symm)

section
variable {s : State} {group row bn : Nat} (hdue : sweepDue s group row bn)
include hdue

theorem exec_sweepRow_held (hbad : (sweepResults s group row bn).any (fun y => y.bad) = true) :
    let g := groupNow s group
    let rank := rankOf s bn row
    exec (.sweepRow group row) s = .next (noteChanges s
      ((raise (setStageState (slotBegun s group row bn) g rank 0 row) 0x05000501 row).onTrain (fun t => { t with
        lastHeldRow := row + group * 2 ^ 32
        sweep := t.sweep ++ [⟨group, row, rank, rank, 0, false, false, true⟩] }))) := by
  intro g rank
  rw [exec_sweepRow_due hdue, if_pos hbad]

theorem exec_sweepRow_written (hfinite : (sweepResults s group row bn).any (fun y => y.bad) = false) :
    let g := groupNow s group
    let rank := rankOf s bn row
    exec (.sweepRow group row) s = .next (noteChanges s
      (touchRow ((writeBack14 (slotComplete s group row bn) g rank row [2, 3, 4, 5]).onTrain (fun t => { t with
        sweep := t.sweep ++ [⟨group, row, rank, rank, 2, false, false, false⟩] })) group row)) := by
  intro g rank
  rw [exec_sweepRow_due hdue, if_neg (Bool.not_eq_true _ ▸ hfinite)]

end

/-- A row's moments are written from its complete slot. -/
theorem sweptRow_mem (s : State) (g : Group) (group rank row : Nat) (planes : List Nat) (f : Training → Training) :
    (touchRow ((writeBack14 s g rank row planes).onTrain f) group row).mem = (writePlanes s g rank row planes).mem := by
  rw [touchRow, onResil_mem, onTrain_mem, writeBack14_mem]

theorem mem_touchRow (s : State) (group row : Nat) : (group, row) ∈ (touchRow s group row).resil.touched := by
  show _ ∈ if _ then _ else _
  split
  · rename_i h
    exact List.contains_iff_mem.mp h
  · exact List.mem_append_right _ (List.mem_singleton_self _)

/-! ## SWEEP_WRITE_ACK (R138) -/

/-- What the sweep knows of one row, replaced. -/
def putSwept (s : State) (group row : Nat) (y : SweptRow) : State :=
  s.onTrain (fun r => { r with sweep := r.sweep.map (fun z => if z.group = group ∧ z.row = row then y else z) })

/-- A row of the sweep, by its group and its number. -/
def sweptAt (s : State) (group row : Nat) : Option SweptRow := s.train.sweep.find? (fun y => decide (y.group = group ∧ y.row = row))

theorem sweptAt_names {s : State} {group row : Nat} {x : SweptRow} (h : sweptAt s group row = some x) : x.group = group ∧ x.row = row :=
  of_decide_eq_true (List.find?_some (p := fun z : SweptRow => decide (z.group = group ∧ z.row = row)) h)

theorem sweptAt_putSwept {s : State} {group row : Nat} {x y : SweptRow} (h : sweptAt s group row = some x)
    (hy : y.group = group ∧ y.row = row) : sweptAt (putSwept s group row y) group row = some y := by
  have hsame : (fun z : SweptRow => decide (z.group = group ∧ z.row = row)) ∘ (fun z => if z.group = group ∧ z.row = row then y else z) =
      fun z => decide (z.group = group ∧ z.row = row) := by
    funext z
    dsimp only [Function.comp_apply]
    split <;> simp_all
  refine (List.find?_map ..).trans ?_
  rw [hsame]
  refine (congrArg _ h).trans ?_
  rw [Option.map_some, if_pos (sweptAt_names h)]

theorem exec_sweepWriteAck_of {s : State} {group row : Nat} {x : SweptRow} (hrow : sweptAt s group row = some x) (hfinite : x.held = false)
    (hweights : x.weightsAcked = false) (hheld : sweepHeld s = false) :
    exec (.sweepWriteAck group row) s = .next (noteChanges s (
      if x.momentsAcked then putSwept s group row { x with weightsAcked := true }
      else putSwept (writeBack14 s (groupNow s group) x.slot row [0, 1]) group row { x with momentsAcked := true })) := by
  have hgo : ¬ (x.held ∨ x.weightsAcked ∨ sweepHeld s) := by simp [hfinite, hweights, hheld]
  unfold sweptAt at hrow
  show execSweepWriteAck group row s = _
  unfold execSweepWriteAck
  simp only [hrow, if_neg hgo]
  split <;> rfl

section
variable {s : State} {group row : Nat} {x : SweptRow} (hrow : sweptAt s group row = some x) (hfinite : x.held = false)
  (hweights : x.weightsAcked = false) (hheld : sweepHeld s = false)
include hrow hfinite hweights hheld

theorem exec_sweepWriteAck_moments (hmoments : x.momentsAcked = false) :
    exec (.sweepWriteAck group row) s = .next (noteChanges s
      (putSwept (writeBack14 s (groupNow s group) x.slot row [0, 1]) group row { x with momentsAcked := true })) := by
  rw [exec_sweepWriteAck_of hrow hfinite hweights hheld, if_neg (Bool.not_eq_true _ ▸ hmoments)]

theorem exec_sweepWriteAck_weights (hmoments : x.momentsAcked = true) :
    exec (.sweepWriteAck group row) s = .next (noteChanges s (putSwept s group row { x with weightsAcked := true })) := by
  rw [exec_sweepWriteAck_of hrow hfinite hweights hheld, if_pos hmoments]

end

/-! ## SWEEP_RESUME (R141) -/

theorem exec_sweepResume_begun {s : State} (hbegun : s.train.sweepBegun = true) (hheld : sweepHeld s = false) :
    exec .sweepResume s = .next (noteChanges s (((validGroups s.dict.values).filter (fun g => decide (4096 ≤ g.number))).foldl resumeGroup
      ((s.onTrain (fun t => { t with sweep := [] })).onCracker (fun k => { k with
        bindings := k.bindings.foldl (fun (t : Tab BindingWork) (e : Nat × BindingWork) =>
          tabSet BindingWork.none t e.1 { e.2 with ready := [], staging := [] }) k.bindings })))) :=
  if_neg (by simp [hbegun, hheld])

theorem resumeGroup_complete {s : State} {g : Group} {row : Nat} (hrows : g.stageRows = 1) (hslot : stageState s g 0 = (2, currentStep s, row)) :
    resumeGroup s g = (writeBack14 s g 0 row [2, 3, 4, 5, 0, 1]).onTrain (fun x => { x with
      sweep := x.sweep ++ [⟨g.number, row, 0, 0, 2, true, true, false⟩] }) := by
  simp [resumeGroup, hrows, hslot]

theorem resumeGroup_filling {s : State} {g : Group} {step row : Nat} (hrows : g.stageRows = 1) (hslot : stageState s g 0 = (1, step, row)) :
    resumeGroup s g = setStageState s g 0 0 row := by
  simp [resumeGroup, hrows, hslot]

end Sys2Proof.Machine

namespace Sys2Proof.Proofs

open Sys2Proof Sys2Proof.Machine

/-- Settles O34: a delivered row goes through its slot, its moments are written before its weights, and a slot's header says what an
interrupted sweep does with it. -/
theorem sweepWritesRowsInOrder : Obligations.SweepWritesRowsInOrder := by
  refine ⟨⟨?_, ?_, ?_⟩, fun s hbegun hheld => exec_sweepResume_begun hbegun hheld, fun s g row => resumeGroup_complete,
    fun s g step row => resumeGroup_filling⟩
  · intro s group row bn _ _ hbinding hbegun hready hheld g rank s0 r s1 l s3 hlines hrheld hrerror
    have hdue : sweepDue s group row bn := ⟨hbinding, hbegun, hready, hheld, hlines, hrheld, hrerror⟩
    refine ⟨fun hbad => exec_sweepRow_held hdue hbad, fun hfinite => ⟨_, exec_sweepRow_written hdue hfinite, ?_, ?_, ?_⟩⟩
    · rw [noteChanges_mem]
      exact sweptRow_mem (slotComplete s group row bn) g group rank row [2, 3, 4, 5] _
    · rw [noteChanges_train]
      exact List.mem_append_right _ (List.mem_singleton_self _)
    · rw [noteChanges_resil]
      exact mem_touchRow _ group row
  · intro s group row x hrow hfinite hweights hmoments hheld
    refine ⟨_, exec_sweepWriteAck_moments hrow hfinite hweights hheld hmoments, ?_, ?_⟩
    · rw [noteChanges_mem, putSwept, onTrain_mem, writeBack14_mem]
    · rw [noteChanges_train]
      exact sweptAt_putSwept ((congrArg (List.find? _) (writeBack14_sweep ..)).trans hrow) (sweptAt_names (x := x) hrow)
  · intro s group row x hrow hfinite hweights hmoments hheld
    refine ⟨_, exec_sweepWriteAck_weights hrow hfinite hweights hheld hmoments, ?_, ?_, ?_, ?_⟩
    · rw [noteChanges_mem]
      rfl
    · rw [noteChanges_train]
      exact sweptAt_putSwept hrow (sweptAt_names (x := x) hrow)
    · rfl
    · rw [noteChanges_train]
      rfl

end Sys2Proof.Proofs
end

section
/-! How the stream unit moves elements and rows (R164 to R166). -/

namespace Sys2Proof.Machine

open Sys2Proof

/-! ## Elements that are read (R164) -/

/-- Elements whose reads give clean bytes and leave the state are put at their places one after another. -/
theorem moveElems_copies {n size : Nat} {s : State} {src dst : List Nat → Nat} {val : List Nat → List Byte} {l : List (List Nat)}
    (h : ∀ c ∈ l, ∃ b, readFor (.pip n) 4 (src c) size s = (.ok b, s) ∧ b.bytes = val c ∧ b.poisoned = false) (out : Bundle) :
    moveElems n size (l.map (fun c => (some (src c), dst c))) out s =
      (⟨.ok (), l.foldl (fun b c => bundlePut b (dst c) (val c) false) out⟩, s) := by
  induction l generalizing out with
  | nil => rfl
  | cons c l ih =>
    obtain ⟨b, hread, hbytes, hclean⟩ := h c List.mem_cons_self
    have hrest := ih (fun d hd => h d (List.mem_cons_of_mem c hd)) (bundlePut out (dst c) (val c) false)
    simp only [List.map_cons, moveElems, hread, hbytes, hclean, hrest, List.foldl_cons]

/-! ## The kinds of a stream (R164, R166) -/

section
variable {x : Stream} (n : Nat) (s : State)

theorem moveStream_load (hk : x.kind = 1) :
    moveStream n x s = moveElems n (elemBytes x.far.fmt) ((coords x.far.ext).map (fun c => (some (x.far.at c), x.near.at c))) [] s := by
  simp only [moveStream, hk]

theorem moveStream_store (hk : x.kind = 2) :
    moveStream n x s = moveElems n (elemBytes x.far.fmt) ((coords x.far.ext).map (fun c => (some (x.near.at c), x.far.at c))) [] s := by
  simp only [moveStream, hk]

theorem moveStream_fill (hk : x.kind = 5) :
    moveStream n x s = (⟨.ok (), (coords x.far.ext).foldl (fun b c =>
      bundlePut b (x.far.at c) (bytesOfNat (elemBytes x.far.fmt) x.pattern) false) []⟩, s) := by
  simp only [moveStream, hk]

end

/-! ## The row of an index (R165) -/

section
variable {x : Stream} (c : List Nat) {i : Nat}

/-- An index in range names its far row, the source of a GATHER and the destination of a SCATTER. -/
theorem indexedRow_in_range (hrow : i < x.far.extent 1) (hones : i ≠ 256 ^ x.indexBytes - 1) :
    indexedRow x c i = some ((List.range (x.far.extent 0)).map (fun e =>
      if x.kind = 3 then (some (x.far.at [e, i, 0, 0, 0]), x.near.at (e :: c))
      else (some (x.near.at (e :: c)), x.far.at [e, i, 0, 0, 0]))) := by
  simp only [indexedRow, if_neg hones, if_neg (Nat.not_le.mpr hrow)]

/-- An index of all ones is a row of zeros of a GATHER and no row of a SCATTER. -/
theorem indexedRow_all_ones (hones : i = 256 ^ x.indexBytes - 1) :
    indexedRow x c i = some (if x.kind = 3 then (List.range (x.far.extent 0)).map (fun e => (none, x.near.at (e :: c))) else []) := by
  simp only [indexedRow, if_pos hones]

/-- Any other index at or beyond the far rows has no row. -/
theorem indexedRow_out_of_range (hrow : x.far.extent 1 ≤ i) (hones : i ≠ 256 ^ x.indexBytes - 1) : indexedRow x c i = none := by
  simp only [indexedRow, if_neg hones, if_pos hrow]

end

end Sys2Proof.Machine

namespace Sys2Proof.Proofs

open Sys2Proof Sys2Proof.Machine

/-- Settles O20: each kind of a stream moves its elements one after another, none of which changes the state, and the range of an index
says which row it names. -/
theorem streamsCopyTheirElements : Obligations.StreamsCopyTheirElements := by
  refine ⟨⟨?_, ?_, ?_⟩, fun x c i _ => ⟨fun hrow hones => ⟨fun hk => ?_, fun hk => ?_⟩, fun hones => ⟨fun hk => ?_, fun hk => ?_⟩,
    indexedRow_out_of_range c⟩⟩
  · exact fun s n x val hk h => (moveStream_load n s hk).trans (moveElems_copies h [])
  · exact fun s n x val hk h => (moveStream_store n s hk).trans (moveElems_copies h [])
  · exact fun s n x hk => moveStream_fill n s hk
  · simp only [indexedRow_in_range c hrow hones, if_pos hk]
  · simp only [indexedRow_in_range c hrow hones, hk, Nat.reduceEqDiff, if_false]
  · rw [indexedRow_all_ones c hones, if_pos hk]
  · rw [indexedRow_all_ones c hones, hk, if_neg (by decide)]

end Sys2Proof.Proofs
end

section
/-! The return of a fill, the end of a write-back, a refresh, and the tick of the reference period (R145, R150, R154, R155, R170, R173,
R314). -/

namespace Sys2Proof.Machine

open Sys2Proof

/-! ## Nothing waits for a slice (R154, R161) -/

/-- No miss waits for a fill entry, no access for a slice, and no tile for its descriptors. -/
def nothingWaits (s : State) : Prop :=
  s.cache.waiting = [] ∧ s.cache.blocked = [] ∧ ∀ e ∈ s.tiles, e.2.issued = []

theorem tileOf_issued_nil {s : State} (h : ∀ e ∈ s.tiles, e.2.issued = []) (n : Nat) : (tileOf s n).issued = [] := by
  unfold tileOf tabGet
  cases hfind : tabFind s.tiles n with
  | none => rfl
  | some t => exact h _ (mem_of_tabFind hfind)

theorem requestsLeft_tileOf {s : State} (h : ∀ e ∈ s.tiles, e.2.issued = []) (n : Nat) : requestsLeft (tileOf s n) = 0 := by
  rw [requestsLeft, tileOf_issued_nil h, List.foldl_nil]

theorem pumpTiles_of_issued_nil {s : State} (h : ∀ e ∈ s.tiles, e.2.issued = []) : pumpTiles s = s := by
  unfold pumpTiles
  generalize s.tiles.map _ = numbers
  induction numbers with
  | nil => rfl
  | cons n rest ih => rwa [List.foldl_cons, requestsLeft_tileOf h, pumpTile]

theorem lineReturned_of_issued_nil {s : State} (h : ∀ e ∈ s.tiles, e.2.issued = []) (line : Nat) : lineReturned s line = s := by
  refine congrArg (fun tiles => { s with tiles := tiles }) ((List.map_congr_left (g := id) fun e he => ?_).trans (List.map_id _))
  rw [h e he, List.map_nil, ← h e he]
  rfl

/-- What has become free goes to nobody where nothing waits for it. -/
theorem admitWaiting_of_nothingWaits {s : State} (h : nothingWaits s) : admitWaiting s = s := by
  obtain ⟨hwaiting, hblocked, htiles⟩ := h
  have hcache : s.onCache (fun c => { c with waiting := [], blocked := [] }) = s := by
    rw [State.onCache, ← hwaiting, ← hblocked]
  rw [admitWaiting, hwaiting, hblocked, hcache, List.foldl_nil, List.foldl_nil, pumpTiles_of_issued_nil htiles]

/-! ## SLICE_FILL_RETURN (R150, R154) -/

/-- The fill's entry is gone and HBM has read its sectors. -/
def fillRead (s : State) (f : Fill) : State :=
  hbmAccess (hbmServed (s.onCache (fun c => { c with fills := c.fills.filter (fun x => decide (x.line ≠ f.line)) })) f.line false)
    f.line (sectorBytes f.want) false

/-- What stands in a set for its line `y` once words of line `x` have come. -/
def refilled (x : Line) (want : BitVec 8) (line : Nat) (y : Line) : Line :=
  if y.line = line then { x with valid := x.valid ||| want } else y

/-- Words of a line have come to its set, if that holds it. -/
def fillLine (s : State) (line : Nat) (want : BitVec 8) : State :=
  match findLine s line with
  | some x => setLines s (servingSet s (homeSet line)) ((linesOf s (servingSet s (homeSet line))).map (refilled x want line))
  | none => s

theorem sliceOnly_fillRead (s : State) (f : Fill) : sliceOnly s (fillRead s f) := ⟨_, rfl⟩

/-- Words that come change the lines of sets and nothing else. -/
theorem fillLine_frame (s : State) (line : Nat) (want : BitVec 8) :
    ∃ sets, fillLine s line want = s.onCache (fun c => { c with sets := sets }) := by
  unfold fillLine
  split <;> exact ⟨_, rfl⟩

/-- No word comes under another line's number. -/
theorem refilled_line {x : Line} {line : Nat} (hx : x.line = line) (want : BitVec 8) (y : Line) :
    (refilled x want line y).line = y.line := by
  unfold refilled
  split
  · next hy => exact hx.trans hy.symm
  · rfl

theorem linesOf_setLines {l : List Line} (s : State) (g : Nat) (h : l ≠ []) : linesOf (setLines s g l) g = l :=
  tabGet_set_value s.cache.sets g h

/-- A line that is there keeps its dirty words, and the words that have come are valid besides its own. -/
theorem findLine_fillLine {s : State} {line : Nat} {x : Line} (want : BitVec 8) (h : findLine s line = some x) :
    findLine (fillLine s line want) line = some { x with valid := x.valid ||| want } := by
  have hx : x.line = line := eq_of_beq (List.find?_some (p := fun y : Line => y.line == line) h)
  have hkeeps : (fun y : Line => y.line == line) ∘ refilled x want line = fun y => y.line == line := by
    funext y
    rw [Function.comp_apply, refilled_line hx]
  have hfound : ((linesOf s (servingSet s (homeSet line))).map (refilled x want line)).find? (fun y => y.line == line) =
      some { x with valid := x.valid ||| want } := by
    rw [List.find?_map, hkeeps, ← findLine, h, Option.map_some, refilled, if_pos hx]
  have hsome : (linesOf s (servingSet s (homeSet line))).map (refilled x want line) ≠ [] := fun hnil => by simp [hnil] at hfound
  simp only [fillLine, h]
  rwa [findLine, show servingSet (setLines ..) (homeSet line) = servingSet s (homeSet line) from rfl, linesOf_setLines _ _ hsome]

/-- A fill all of whose words can be read returns, and where nothing waits for it that is all. -/
theorem exec_sliceFillReturn_good {s : State} {f : Fill} (hfill : s.cache.fills.find? (fun x => x.line == f.line) = some f)
    (hidle : nothingWaits s) (hrail : sliceStopped s f.line = false) (hserved : hbmServes s f.line false = true)
    (hwords : ∀ i, i < 8 → (f.want &&& ~~~ f.written).getLsbD i = true → wordLost s (8 * f.line + i) = false) :
    exec (.sliceFillReturn f.line false) s = .next (noteChanges s (fillLine (fillRead s f) f.line f.want)) := by
  have hgood : (List.range 8).any (fun i => (f.want &&& ~~~ f.written).getLsbD i && wordLost (fillRead s f) (8 * f.line + i)) = false := by
    refine List.any_eq_false.mpr fun i hi hlost => ?_
    obtain ⟨hwanted, hword⟩ := Bool.and_eq_true_iff.mp hlost
    exact Bool.false_ne_true ((hwords i (List.mem_range.mp hi) hwanted).symm.trans hword)
  have hgo : ¬ (sliceStopped s f.line || !hbmServes s f.line false) = true := by simp [hrail, hserved]
  show execSliceFillReturn f.line false s = _
  unfold execSliceFillReturn
  rw [hfill]
  refine (if_neg hgo).trans ?_
  extract_lets read wanted failed repaired homed filled
  have hrepaired : repaired = fillRead s f := if_neg (by rw [show failed = false from hgood]; exact Bool.false_ne_true)
  have hfilled : filled = fillLine (fillRead s f) f.line f.want := by rw [← hrepaired]; rfl
  have hrest : nothingWaits filled := by
    obtain ⟨sets, hsets⟩ := fillLine_frame (fillRead s f) f.line f.want
    rw [hfilled, hsets]
    exact hidle
  rw [lineReturned_of_issued_nil hrest.2.2, ite_self, admitWaiting_of_nothingWaits hrest, hfilled, done]

/-! ## WRITE_BACK_COMPLETE and HBM_REFRESH (R150, R155, R173) -/

/-- The write-back's entry is free and HBM has its dirty sectors. -/
def writeBackTaken (s : State) (w : WriteBack) (line : Nat) : State :=
  hbmAccess (hbmServed (s.onCache (fun c => { c with writebacks := c.writebacks.erase w })) line true) line (sectorBytes w.dirty) true

/-- A write-back that HBM accepts ends, and where nothing waits for its entry that is all. -/
theorem exec_writeBackComplete_accepted {s : State} {line : Nat} {w : WriteBack}
    (hentry : s.cache.writebacks.find? (fun x => x.line == line) = some w) (hidle : nothingWaits s)
    (hrail : sliceStopped s line = false) (hserved : hbmServes s line true = true) :
    exec (.writeBackComplete line) s = .next (noteChanges s (writeBackTaken s w line)) := by
  have hadmit : admitWaiting (writeBackTaken s w line) = writeBackTaken s w line := admitWaiting_of_nothingWaits hidle
  have hgo : ¬ (sliceStopped s line || !hbmServes s line true) = true := by simp [hrail, hserved]
  show execWriteBackComplete line s = _
  simp only [execWriteBackComplete, hentry, if_neg hgo]
  exact congrArg (done s) hadmit

/-- The state of a refresh, before its change ordinals. -/
def refreshed (s : State) (stack ns : Nat) : State :=
  s.onCache (fun c => { c with
    refreshNs := tabCount c.refreshNs stack ns
    openPages := tabErase c.openPages (stack * 4096 + Config.unitChoice s.free stack % 4096) })

theorem exec_hbmRefresh_eq (s : State) (stack ns : Nat) :
    exec (.hbmRefresh stack ns) s = .next (noteChanges s (refreshed s stack ns)) := rfl

/-! ## STALL_SAMPLE (R145, R170, R314) -/

/-- A tile after one reference period, each stalled engine and a stalled sequencer counted. -/
def tickedTile (s : State) (e : Nat × Tile) : Nat × Tile :=
  (e.1, countStall ((List.range 3).foldl (fun x k => countStall x k (engineCause s e.1 k e.2)) e.2) 3 (sequencerCause s e.1 e.2))

/-- The power system after one reference period: the period itself, and for each grid row how long it has been idle (R314). -/
def tickedPower (s : State) : Power :=
  { s.power with
    refPeriods := s.power.refPeriods + 1
    rowIdle := (List.range 16).foldl (fun t y => tabSet 0 t y (if rowIsIdle s y then min 1563 (tabGet 0 s.power.rowIdle y + 1) else 0))
      s.power.rowIdle }

/-- The Cracker after one reference period: each channel whose intake a limit of R183 holds is counted. -/
def tickedCracker (s : State) : Cracker :=
  { s.cracker with channels := s.cracker.channels.map (fun e =>
      (e.1, if quotaHolds s e.1 e.2 then { e.2 with quotaHeld := e.2.quotaHeld + 1 } else e.2)) }

/-- The state after one reference period, before its change ordinals. -/
def ticked (s : State) : State :=
  { s with
    power := tickedPower s
    tiles := s.tiles.map (tickedTile s)
    train := { s.train with phasePeriods := tabCount s.train.phasePeriods (phaseNow s) 1 }
    resil := { s.resil with gateWait := s.resil.gateWait + (if gateHolds s then 1 else 0) }
    cracker := tickedCracker s
    front := { s.front with flushWait := s.front.flushWait + s.front.conns.foldl (fun a c => a + c.2.held.length) 0 } }

theorem exec_stallSample_eq (s : State) : exec .stallSample s = .next (noteChanges s (ticked s)) := by
  show execStallSample s = _
  unfold execStallSample ticked
  cases gateHolds s <;> rfl

/-- A command's end adds its change ordinals and the next free value to what the command did. -/
theorem noteChanges_frame (s t : State) : noteChanges s t = { t with dict := (noteChanges s t).dict, free := s.free + 1 } := by
  unfold noteChanges
  generalize bumpChanges s t = ordinals
  rfl

/-- A command's end moves no line. -/
@[simp] theorem findLine_noteChanges (s t : State) (line : Nat) : findLine (noteChanges s t) line = findLine t line := by
  simp only [findLine, linesOf, servingSet, noteChanges_cache, noteChanges_stack]

end Sys2Proof.Machine

namespace Sys2Proof.Proofs

open Sys2Proof Sys2Proof.Machine

/-- Settles O9: with nothing that waits for them, the ends of fills and write-backs change the slices alone, as a refresh does, and a
tick is the sum of its counts. -/
theorem fillsWriteBacksAndTicks : Obligations.FillsWriteBacksAndTicks := by
  refine ⟨⟨?_, ?_, ?_⟩, ?_⟩
  · intro s f hfill hwaiting hblocked htiles hrail hserved hwords
    obtain ⟨sets, hsets⟩ := fillLine_frame (fillRead s f) f.line f.want
    have hslices := sliceOnly_trans (sliceOnly_fillRead s f) (hsets ▸ sliceOnly_onCache _ _)
    refine ⟨_, exec_sliceFillReturn_good hfill ⟨hwaiting, hblocked, htiles⟩ hrail hserved hwords, (noteChanges_of_sliceOnly hslices).1,
      ?_, ?_, fun x hx => ⟨_, (findLine_noteChanges ..).trans (findLine_fillLine f.want (s := fillRead s f) hx), rfl, rfl⟩⟩
    · rw [noteChanges_cache, hsets]
      rfl
    · rw [noteChanges_cache, hsets]
      rfl
  · intro s line w hentry hwaiting hblocked htiles hrail hserved
    refine ⟨_, exec_writeBackComplete_accepted hentry ⟨hwaiting, hblocked, htiles⟩ hrail hserved,
      (noteChanges_of_sliceOnly ⟨_, rfl⟩).1, ?_⟩
    rw [noteChanges_cache]
    exact ⟨rfl, rfl, rfl, rfl, rfl⟩
  · intro s stack ns _
    refine ⟨_, exec_hbmRefresh_eq s stack ns, (noteChanges_of_sliceOnly ⟨_, rfl⟩).1, ?_⟩
    rw [noteChanges_cache]
    exact ⟨rfl, rfl⟩
  · intro s
    refine ⟨_, exec_stallSample_eq s, ?_⟩
    rw [noteChanges_power, noteChanges_train, noteChanges_tiles, noteChanges_resil, noteChanges_cracker, noteChanges_front]
    exact ⟨rfl, rfl, rfl, rfl, noteChanges_frame s (ticked s), rfl, rfl⟩

end Sys2Proof.Proofs
end

section
/-! How a command of the Cracker ends, what GRAD merges, the tracker, and how tables are served to peers (R8, R174, R177 to R181, R183,
R186, R190, R191). -/

namespace Sys2Proof.Machine

open Sys2Proof

/-! ## A command at the head of its channel (R174, R180) -/

/-- How the head command of a channel ends, by what its body gives: it waits, halts its channel, or leaves its work (R180). -/
def commandEnd (c : Nat) (cmd : CrackerCommand) : Got State × State → State
  | (.wait, u) => u
  | (.fault code, u) => haltChannel (forgetNear c cmd u) c code
  | (.ok t, _) => t

/-- The head command of a channel runs in the row of its kind (R174). -/
theorem runCommand_head {s s1 : State} {c kind : Nat} {cmd : CrackerCommand} {f : CrackerCommand → State → Got State × State}
    (hhead : headCommand s s1 c cmd) (hkind : cmd.kind = kind) : runCommand c kind f s = commandEnd c cmd (f cmd s1) := by
  obtain ⟨h, rest, b, hcmds, hran, hqueue, hstep, hhalt, hrail, hread, hclean, rfl, hfault⟩ := hhead
  have hgo : ¬ ((channelOf s c).ran ∨ 12 ≤ c ∨ h.step ≠ currentStep s ∨ huskStopped s) := by
    simp [hran, hstep, hrail, hqueue]
  simp only [runCommand, hcmds, if_neg hgo, hhalt, ne_eq, not_true_eq_false, if_false, hread, hclean, Bool.false_eq_true, hkind,
    false_and, hfault]
  unfold commandEnd
  rfl

/-- The rows that run a Cracker command: the command's kind, the row and the command's body (Table 7.2). -/
def commandRows : List (Nat × (Nat → Instr) × (Nat → CrackerCommand → State → Got State × State)) :=
  [(1, Instr.crackerGather, gatherBody), (2, Instr.crackerScatter, scatterBody), (3, Instr.grad, gradBody), (4, Instr.flatGather, flatBody)]

theorem exec_commandRow {row : Nat × (Nat → Instr) × (Nat → CrackerCommand → State → Got State × State)} (hrow : row ∈ commandRows)
    (s : State) (c : Nat) : exec (row.2.1 c) s = .next (noteChanges s (runCommand c row.1 (row.2.2 c) s)) := by
  simp only [commandRows, List.mem_cons, List.not_mem_nil, or_false] at hrow
  obtain rfl | rfl | rfl | rfl := hrow <;> rfl

/-- Each row runs the head command of its kind to its end. -/
theorem exec_commandRow_head {row : Nat × (Nat → Instr) × (Nat → CrackerCommand → State → Got State × State)} (hrow : row ∈ commandRows)
    {s s1 : State} {c : Nat} {cmd : CrackerCommand} (hhead : headCommand s s1 c cmd) (hkind : cmd.kind = row.1) :
    exec (row.2.1 c) s = .next (noteChanges s (commandEnd c cmd (row.2.2 c cmd s1))) := by
  rw [exec_commandRow hrow, runCommand_head hhead hkind]

/-! ## Rows of gradients merged (R186) -/

section
variable (rowLen row : Nat) (l : List (Nat × List Nat × Bool))

theorem mergedRow_length : (mergedRow rowLen row l).1.length = rowLen := by
  simp [mergedRow]

/-- Each element is the exact sum of the row's occurrences, rounded once. -/
theorem mergedRow_element {j : Nat} (hj : j < rowLen) :
    (mergedRow rowLen row l).1[j]? = some (encodeNum 7 (exactSum ((l.filter (fun x => decide (x.1 = row))).map (fun x =>
      decodeNum 7 (x.2.1.getD j 0))))) := by
  simp only [mergedRow, List.getElem?_map, List.getElem?_range hj, Option.map_some]

/-- A merged row is poisoned when one of its occurrences is. -/
theorem mergedRow_poisoned_iff : (mergedRow rowLen row l).2 = true ↔ ∃ x ∈ l, x.1 = row ∧ x.2.2 = true := by
  simp only [mergedRow, List.any_eq_true, List.mem_filter, decide_eq_true_eq, and_assoc]

end

/-! ## The tracker (R181, R183) -/

/-- A channel whose batch has entered the tracker. -/
def tracking (b : Nat × List Nat) (x : Channel) : Channel :=
  { x with
    batches := x.batches.filter (fun y => decide (y.1 ≠ b.1))
    inflight := x.inflight ++ b.2 }

theorem tracking_ne_idle {b : Nat × List Nat} (hb : b.2 ≠ []) (x : Channel) : tracking b x ≠ Channel.idle := fun h =>
  List.append_ne_nil_of_right_ne_nil x.inflight hb (congrArg Channel.inflight h)

/-- A channel that was changed to something else than idle reads back, whatever the table. -/
theorem channelOf_onChannel_self {s : State} {c : Nat} {f : Channel → Channel} (h : f (channelOf s c) ≠ Channel.idle) :
    channelOf (onChannel s c f) c = f (channelOf s c) :=
  tabGet_modify_value s.cracker.channels c h

/-- The state in which a page batch has entered the tracker, with its requests counted. -/
def batchEntered (s : State) (c : Nat) (b : Nat × List Nat) : State :=
  let s1 := onChannel s c (tracking b)
  s1.onCracker (fun k => { k with
    sectorRequests := k.sectorRequests + b.2.length
    batches := k.batches + 1
    peak := max k.peak (allInflight s1).length
    queueLoad := match (channelOf s c).cmds.head? with
      | some h => tabCount k.queueLoad h.queue b.2.length
      | none => k.queueLoad })

/-- The requests of a batch at their home slices. -/
def batchRequested (t : State) (c : Nat) (b : Nat × List Nat) : State :=
  b.2.foldl (fun t x => accessSector t c x (sectorsWritten b)) t

theorem sliceOnly_batchRequested (t : State) (c : Nat) (b : Nat × List Nat) : sliceOnly t (batchRequested t c b) := by
  unfold batchRequested
  generalize b.2 = l
  induction l generalizing t with
  | nil => exact sliceOnly_refl t
  | cons x l ih => exact sliceOnly_trans (sliceOnly_accessLine t _) (ih _)

theorem exec_batchRelease_next {s : State} {c : Nat} {b : Nat × List Nat} (hnext : nextBatch s c = some b) (hrail : huskStopped s = false) :
    exec (.batchRelease c) s = .next (noteChanges s (batchRequested (batchEntered s c b) c b)) := by
  show execBatchRelease c s = _
  unfold execBatchRelease
  rw [hrail, hnext]
  rfl

theorem exec_sectorDone_inflight {s : State} {c sector : Nat} (hinflight : (channelOf s c).inflight.contains sector = true)
    (hrail : huskStopped s = false) :
    exec (.sectorDone c sector) s = .next (noteChanges s (finishCommand (onChannel s c (fun x =>
      { x with inflight := x.inflight.erase sector })) c)) :=
  if_pos ⟨hinflight, hrail⟩

theorem finishCommand_ended {s : State} {c : Nat} (hran : (channelOf s c).ran = true) (hbatches : (channelOf s c).batches = [])
    (hinflight : (channelOf s c).inflight = []) (hremote : (channelOf s c).remote = []) :
    finishCommand s c = signalCounter (onChannel s c (fun x => { x with cmds := x.cmds.drop 1, ran := false, signal := none }))
      (channelOf s c).signal :=
  if_pos ⟨hran, hbatches, hinflight, hremote⟩

/-! ## Table requests (R190, R191, Table 7.8) -/

theorem exec_tableReq_full {s : State} {p : Packet} (hfull : slotFull s p = true) : exec (.tableReq p) s = .next s := if_pos hfull

/-- A whole request that comes in one packet is held until its boundary, and answered from then on. -/
theorem takeRequest_whole {s : State} {p : Packet} (hfirst : p.elemOffset = 0) (hwhole : requestWhole p = true) :
    takeRequest s p = if currentStep s < (tableRequestOf p.payload).step then
        s.onCracker (fun k => { k with heldRequests := k.heldRequests ++ [p] })
      else serveRequest s p (tableRequestOf p.payload) := by
  simp only [takeRequest, hfirst, if_true, takeRequest.settle, hwhole, Bool.true_eq_false, false_or]

theorem exec_tableReq_taken {s t : State} {p : Packet} (htake : takePacket s 8 p = some t) (hroom : slotFull s p = false)
    (hrail : huskStopped s = false) : exec (.tableReq p) s = .next (noteChanges s (takeRequest t p)) :=
  (if_neg (by simp [hroom])).trans (withPacket_taken hrail htake)

theorem serveRequest_refused {s : State} {p : Packet} {q : TableRequest} (hstatus : requestStatus s p q ≠ 0) :
    serveRequest s p q = sendPacket (s.onCracker (fun k => { k with served := tabCount k.served (requestStatus s p q) 1 }))
      { blankPacket 9 p.src with
        comm := p.comm, step := q.step, srcSlot := p.dstSlot, dstSlot := p.srcSlot,
        payload := responseHeader q (requestStatus s p q) 0 } :=
  if_pos hstatus

theorem requestStatus_no_region {s : State} {p : Packet} {q : TableRequest} (hregion : (tableRegion s q.region).valid = false) :
    requestStatus s p q = 1 := if_pos (.inl hregion)

/-! ## Table responses (R177, R191) -/

/-- The number of the request that a response answers. -/
def answeredSeq (p : Packet) : Nat := bitsAt (natOfBytes (p.payload.take 64)) 64 32

/-- The status of a response. -/
def answerStatus (p : Packet) : Nat := bitsAt (natOfBytes (p.payload.take 64)) 96 4

/-- The bytes of rows that a response brings, with their poison. -/
def answeredBytes (p : Packet) : List (Byte × Bool) := (p.payload.drop 64).zipIdx.map (fun y => (y.1, p.poison.contains (8 + y.2 / 8)))

/-- The response `p`, taken in `t`, answers the request `x` of channel `c`. -/
def answers (t : State) (p : Packet) (c : Nat) (ch : Channel) (x : RemoteRows) : Prop :=
  t.cracker.channels.find? (fun e => e.2.remote.any (fun y => y.seq == answeredSeq p)) = some (c, ch) ∧
    ch.remote.find? (fun y => y.seq == answeredSeq p) = some x

section
variable {s t u : State} {p : Packet} {c : Nat} {ch : Channel} {x : RemoteRows} (htake : takePacket s 9 p = some t)
  (hrail : huskStopped s = false) (hanswers : answers t p c ch x)
include htake hrail hanswers

/-- A response with a status halts the channel that asked; status 3 stops the module. -/
theorem exec_tableRsp_refused (hstatus : answerStatus p ≠ 0) :
    exec (.tableRsp p) s = .next (noteChanges s
      (if answerStatus p = 3 then stopModule (haltChannel t c 0x04090708) else haltChannel t c 0x04090708)) := by
  obtain ⟨hchannel, hrequest⟩ := hanswers
  unfold answeredSeq at hchannel hrequest
  unfold answerStatus at hstatus ⊢
  refine (withPacket_taken hrail htake).trans ?_
  simp only [hchannel, hrequest, if_pos hstatus]

/-- The last rows of a request are delivered: the request has ended. -/
theorem exec_tableRsp_last (hstatus : answerStatus p = 0) (hdeliver : deliverRemote c x p.elemOffset (answeredBytes p) t = (.ok (), u))
    (hlast : x.rows.length * x.rowBytes ≤ p.elemOffset + (p.payload.drop 64).length) :
    exec (.tableRsp p) s = .next (noteChanges s (finishCommand (onChannel u c (fun y => { y with
      remote := y.remote.filter (fun z => decide (z.seq ≠ answeredSeq p)) })) c)) := by
  obtain ⟨hchannel, hrequest⟩ := hanswers
  unfold answeredSeq at hchannel hrequest ⊢
  unfold answerStatus at hstatus
  unfold answeredBytes at hdeliver
  refine (withPacket_taken hrail htake).trans ?_
  simp only [hchannel, hrequest, hstatus, ne_eq, not_true_eq_false, if_false, hdeliver, List.length_map, List.length_zipIdx, if_pos hlast]

end

/-! ## What a halt leaves of the rows asked for (R180) -/

theorem tabFind_filter_out {α : Type} {t : Tab α} {f : Nat × α → Bool} {k : Nat} (h : ∀ v, f (k, v) = false) :
    tabFind (t.filter f) k = none := by
  induction t with
  | nil => rfl
  | cons e t ih =>
    obtain ⟨j, v⟩ := e
    by_cases hkeep : f (j, v) = true
    · have hother : j ≠ k := by
        rintro rfl
        simp [h v] at hkeep
      rw [List.filter_cons_of_pos hkeep, tabFind, if_neg hother, ih, ite_self]
    · rw [List.filter_cons_of_neg hkeep, ih]

theorem memByte?_forget {m : Memory} {lo hi a : Nat} (hlo : lo ≤ a) (hhi : a < hi) : memByte? (forget m lo hi) a = none :=
  tabFind_filter_out (fun _ => by simp [hlo, hhi])

/-- What is done to entries of queues reaches the front end alone. -/
theorem onEntry_foldl_frame {α : Type} (queue seq : α → Nat) (f : α → Entry → Entry) (l : List α) (s : State) :
    ∃ front, l.foldl (fun t x => onEntry t (queue x) (seq x) (f x)) s = { s with front := front } := by
  induction l generalizing s with
  | nil => exact ⟨_, rfl⟩
  | cons x l ih =>
    obtain ⟨front, h⟩ := ih (onEntry s (queue x) (seq x) (f x))
    exact ⟨front, h⟩

theorem localFault_mem_after_cut {s : State} (hcut : s.train.cut = true) (code : Code) (arg : Nat) :
    (localFault s code arg).mem = s.mem := by
  have hcut' : (recordFault s code arg).train.cut = true := by simp [recordFault, hcut]
  have hsettle : settleFault (recordFault s code arg) = recordFault s code arg := if_neg (by simp [hcut'])
  rw [localFault, hsettle, recordFault, if_pos hcut, enterHolding]
  split <;> simp [raise_mem]

/-- After the cut a halt changes no memory but the rows that the channel's requests asked for. -/
theorem haltChannel_mem_after_cut {s : State} (hcut : s.train.cut = true) (c : Nat) (code : Code) :
    (haltChannel s c code).mem =
      ((channelOf s c).remote.foldl (fun t x => x.rows.foldl (fun t y => forgetRow t c y.1 x.rowBytes) t) s).mem := by
  have hforget : ∀ t a len, (forgetRow t c a len).train = t.train := fun t a len => by
    unfold forgetRow
    split <;> rfl
  have htrain := train_foldl (fun t (x : RemoteRows) => train_foldl (fun t (y : Nat × Nat) => hforget t y.1 x.rowBytes) t x.rows) s
    (channelOf s c).remote
  unfold haltChannel
  extract_lets cmds s0 s1 s2
  obtain ⟨front, hs2⟩ : ∃ front, s2 = { s1 with front := front } :=
    onEntry_foldl_frame CrackerCmd.queue CrackerCmd.seq (fun _ e => if e.code = 0 then { e with code := code } else e) cmds s1
  have hcut2 : s2.train.cut = true := by
    rw [hs2]
    exact (congrArg Training.cut htrain).trans hcut
  rw [localFault_mem_after_cut hcut2, hs2]
  rfl

/-- A halt leaves undefined the row that its channel's one request asked for. -/
theorem haltChannel_forgets_row {s : State} {c a : Nat} {code : Code} {x : RemoteRows} {row : Nat × Nat}
    (hremote : (channelOf s c).remote = [x]) (hrows : x.rows = [row]) (hdetail : accessDetail s (.cracker c) true row.1 x.rowBytes = none)
    (hlo : row.1 ≤ a) (hhi : a < row.1 + x.rowBytes) (hcut : s.train.cut = true) : memByte? (haltChannel s c code).mem a = none := by
  rw [haltChannel_mem_after_cut hcut, hremote, List.foldl_cons, List.foldl_nil, hrows, List.foldl_cons, List.foldl_nil, forgetRow,
    if_pos hdetail]
  exact memByte?_forget hlo hhi

end Sys2Proof.Machine

namespace Sys2Proof.Proofs

open Sys2Proof Sys2Proof.Machine

/-- Settles O21: each row runs the head command of its kind, whose body's value or fault says how it ends. -/
theorem crackerCommandsRunOrHalt : Obligations.CrackerCommandsRunOrHalt := by
  intro row (hrow : row ∈ commandRows)
  refine ⟨fun s s1 t u c cmd hhead hkind hbody => ?_, fun s s1 u c cmd code hhead hkind hbody => ?_⟩
  · rw [exec_commandRow_head hrow hhead hkind, hbody, commandEnd]
  · rw [exec_commandRow_head hrow hhead hkind, hbody, commandEnd]

/-- Settles O23: the sums are those of the merged row, a batch enters its own channel and else reaches the slices alone, and a request
leaves the channel it came from. -/
theorem gradMergesAndTracksRequests : Obligations.GradMergesAndTracksRequests := by
  refine ⟨fun rowLen row j l hj => ⟨mergedRow_length rowLen row l, mergedRow_element rowLen row l hj, mergedRow_poisoned_iff rowLen row l⟩,
    fun s c b hnext hsome hrail => ⟨_, exec_batchRelease_next hnext hrail, ?_⟩, fun s c sector => exec_sectorDone_inflight,
    fun s c => finishCommand_ended⟩
  obtain ⟨cache, hslices⟩ := sliceOnly_batchRequested (batchEntered s c b) c b
  have hchannel : channelOf (batchEntered s c b) c = tracking b (channelOf s c) :=
    channelOf_onChannel_self (s := s) (tracking_ne_idle hsome _)
  have hnow : channelOf (noteChanges s (batchRequested (batchEntered s c b) c b)) c = tracking b (channelOf s c) := by
    rw [channelOf, noteChanges_cracker, hslices]
    exact hchannel
  refine ⟨congrArg Channel.inflight hnow, congrArg Channel.batches hnow, ?_, ?_, ?_⟩
  · rw [noteChanges_cracker, hslices]
    rfl
  · rw [noteChanges_cracker, hslices]
    rfl
  · rw [noteChanges_frame, hslices]
    rfl

/-- Settles O25: a request is answered by its step and its status, a response by its status, and a halt forgets the rows asked for. -/
theorem remoteTableRowsServed : Obligations.RemoteTableRowsServed := by
  refine ⟨⟨?_, ?_, fun s p q => serveRequest_refused, fun s p => exec_tableReq_full, fun s p q => requestStatus_no_region⟩, ?_, ?_, ?_, ?_⟩
  · intro s s1 p htake hfirst hwhole hroom hrail hdue
    rw [exec_tableReq_taken htake hroom hrail, takeRequest_whole hfirst hwhole, if_neg (Nat.not_lt.mpr hdue)]
  · intro s s1 p htake hfirst hwhole hroom hrail hlater
    rw [exec_tableReq_taken htake hroom hrail, takeRequest_whole hfirst hwhole, if_pos hlater]
  · intro s s1 t p c ch x htake hrail hchannel hrequest hstatus hdeliver hlast
    exact exec_tableRsp_last htake hrail ⟨hchannel, hrequest⟩ hstatus hdeliver hlast
  · intro s s1 p c ch x htake hrail hchannel hrequest hstatus (hgoing : answerStatus p ≠ 3)
    rw [exec_tableRsp_refused htake hrail ⟨hchannel, hrequest⟩ hstatus, if_neg hgoing]
  · intro s s1 p c ch x htake hrail hchannel hrequest (hstatus : answerStatus p = 3)
    rw [exec_tableRsp_refused htake hrail ⟨hchannel, hrequest⟩ (by simp [hstatus]), if_pos hstatus]
  · exact fun s c a code x row => haltChannel_forgets_row

end Sys2Proof.Proofs
end

section
/-! Words made of fields, and the formats of chapter 9 and 13 read back as they are written (Tables 9.5, 9.7, 13.3). -/

namespace Sys2Proof.Machine

open Sys2Proof

/-! ## Fields of a word -/

/-- The number whose fields, given as widths and values, stand from bit `lo` up. -/
def packFields : Nat → List (Nat × Nat) → Nat
  | _, [] => 0
  | lo, f :: l => f.2 * 2 ^ lo + packFields (lo + f.1) l

/-- The fields of the given widths that a number holds from bit `lo` up. -/
def readFields (v : Nat) : Nat → List Nat → List Nat
  | _, [] => []
  | lo, w :: l => bitsAt v lo w :: readFields v (lo + w) l

/-- Every field is below the power of two of its width. -/
def fieldsFit (l : List (Nat × Nat)) : Prop := ∀ f ∈ l, f.2 < 2 ^ f.1

theorem packFields_shift (lo : Nat) (l : List (Nat × Nat)) : packFields lo l = 2 ^ lo * packFields 0 l := by
  induction l generalizing lo with
  | nil => rfl
  | cons f l ih =>
    simp only [packFields, zero_add]
    rw [ih (lo + f.1), ih f.1]
    ring

theorem packFields_zero_cons (f : Nat × Nat) (l : List (Nat × Nat)) : packFields 0 (f :: l) = f.2 + 2 ^ f.1 * packFields 0 l := by
  rw [packFields, zero_add, packFields_shift f.1, pow_zero, mul_one]

theorem packFields_lt {l : List (Nat × Nat)} (h : fieldsFit l) : packFields 0 l < 2 ^ (l.map Prod.fst).sum := by
  induction l with
  | nil => simp [packFields]
  | cons f l ih =>
    obtain ⟨hf, hl⟩ := List.forall_mem_cons.mp h
    rw [packFields_zero_cons, List.map_cons, List.sum_cons, pow_add]
    calc f.2 + 2 ^ f.1 * packFields 0 l < 2 ^ f.1 * (packFields 0 l + 1) := by rw [mul_add]; omega
      _ ≤ 2 ^ f.1 * 2 ^ (l.map Prod.fst).sum := Nat.mul_le_mul_left _ (ih hl)

theorem readFields_of_div {v lo : Nat} {l : List (Nat × Nat)} (h : fieldsFit l) (hv : v / 2 ^ lo = packFields 0 l) :
    readFields v lo (l.map Prod.fst) = l.map Prod.snd := by
  induction l generalizing lo with
  | nil => rfl
  | cons f l ih =>
    obtain ⟨hf, hl⟩ := List.forall_mem_cons.mp h
    rw [packFields_zero_cons] at hv
    have hhead : bitsAt v lo f.1 = f.2 := by
      rw [bitsAt, hv, Nat.add_mul_mod_self_left, Nat.mod_eq_of_lt hf]
    have htail : v / 2 ^ (lo + f.1) = packFields 0 l := by
      rw [pow_add, ← Nat.div_div_eq_div_mul, hv, Nat.add_mul_div_left _ _ (Nat.two_pow_pos _), Nat.div_eq_of_lt hf, zero_add]
    simp only [List.map_cons, readFields, hhead, ih hl htail]

/-- Fields that fit their widths are read back as they were packed. -/
theorem readFields_packFields {l : List (Nat × Nat)} (h : fieldsFit l) :
    readFields (packFields 0 l) 0 (l.map Prod.fst) = l.map Prod.snd :=
  readFields_of_div h (by rw [pow_zero, Nat.div_one])

/-- A flag is the field of one bit. -/
theorem bitAt_of_field {v i : Nat} {b : Bool} (h : bitsAt v i 1 = natOfBool b) : bitAt v i = b := by
  rw [bitsAt, pow_one] at h
  cases b <;> simp [bitAt, h, natOfBool]

theorem natOfBool_lt (b : Bool) : natOfBool b < 2 ^ 1 := by cases b <;> decide

/-! ## Header bytes -/

theorem natOfBytes_bytesOfNat {n v : Nat} (h : v < 2 ^ (8 * n)) : natOfBytes (bytesOfNat n v) = v := by
  induction n generalizing v with
  | zero =>
    obtain rfl : v = 0 := by omega
    rfl
  | succ n ih =>
    have hrest : v / 256 < 2 ^ (8 * n) := Nat.div_lt_of_lt_mul (by rwa [mul_add, Nat.add_comm, pow_add] at h)
    simp only [bytesOfNat, natOfBytes, ih hrest, BitVec.toNat_ofNat]
    omega

/-- What stands after a header of 64 bytes. -/
theorem drop_header (v : Nat) (l : List Byte) : (bytesOfNat 64 v ++ l).drop 64 = l :=
  List.drop_left' (bytesOfNat_length 64 v)

theorem take_header (v : Nat) (l : List Byte) : (bytesOfNat 64 v ++ l).take 64 = bytesOfNat 64 v :=
  List.take_left' (bytesOfNat_length 64 v)

/-- Fields of at most `n` bytes, written as `n` bytes, are the number that these hold. -/
theorem natOfBytes_packFields {n : Nat} {l : List (Nat × Nat)} (h : fieldsFit l) (hw : (l.map Prod.fst).sum ≤ 8 * n) :
    natOfBytes (bytesOfNat n (packFields 0 l)) = packFields 0 l :=
  natOfBytes_bytesOfNat ((packFields_lt h).trans_le (Nat.pow_le_pow_right Nat.two_pos hw))

/-! ## Link headers (Table 9.5) -/

/-- The fields of a link header, from bit 0 up. -/
def linkHeaderFields (h : LinkHeader) : List (Nat × Nat) :=
  [(2, h.pos), (1, natOfBool h.valid), (1, natOfBool h.abort), (4, h.vc), (12, h.seq), (12, h.ack), (1, natOfBool h.nak),
    (1, natOfBool h.probe), (4, h.creditVc), (8, h.creditCount), (2, h.version)]

theorem linkHeader_nat_eq (h : LinkHeader) : h.nat = packFields 0 (linkHeaderFields h) := by
  simp only [LinkHeader.nat, linkHeaderFields, packFields, Nat.reduceAdd, zero_add, pow_zero, mul_one, add_zero, add_assoc]

theorem linkHeaderOf_nat {h : LinkHeader} (hfit : fieldsFit (linkHeaderFields h)) : linkHeaderOf h.nat = h := by
  have hread := readFields_packFields hfit
  rw [← linkHeader_nat_eq] at hread
  simp only [linkHeaderFields, List.map_cons, List.map_nil, readFields, Nat.reduceAdd, List.cons.injEq, and_true] at hread
  obtain ⟨hpos, hvalid, habort, hvc, hseq, hack, hnak, hprobe, hcvc, hcount, hversion⟩ := hread
  simp only [linkHeaderOf, hpos, bitAt_of_field hvalid, bitAt_of_field habort, hvc, hseq, hack, bitAt_of_field hnak,
    bitAt_of_field hprobe, hcvc, hcount, hversion]

/-! ## Requests and replies (Table 13.3) -/

/-- The fields of a request's header, from bit 0 up; those of value 0 are reserved. -/
def requestFields (op : Nat) (r : Request) : List (Nat × Nat) :=
  [(8, r.version), (8, op), (8, 0), (1, natOfBool r.viewStaged), (1, natOfBool r.viewPending), (1, natOfBool r.viewSnapshot), (5, 0),
    (32, r.requestId.toNat), (64, r.session.toNat), (24, r.target.toNat), (8, 0), (16, r.index), (8, r.sub), (8, r.typ.toNat),
    (32, r.offset), (16, r.length), (16, 0), (64, r.applyAt), (16, r.batch)]

theorem requestMessage_eq (op : Nat) (r : Request) :
    requestMessage op r = bytesOfNat 64 (packFields 0 (requestFields op r)) ++ r.data := by
  simp only [requestMessage, requestFields, packFields, Nat.reduceAdd, zero_add, pow_zero, mul_one, add_zero, zero_mul, add_assoc]

theorem requestOf_requestMessage {op : Nat} {r : Request} (hfit : fieldsFit (requestFields op r)) :
    requestOf (requestMessage op r) = (op, r) := by
  have hread := readFields_packFields hfit
  have hnat := natOfBytes_packFields (n := 64) hfit (by simp [requestFields])
  rw [← take_header _ r.data, ← requestMessage_eq] at hnat
  rw [← hnat] at hread
  have hdata : (requestMessage op r).drop 64 = r.data := by rw [requestMessage_eq, drop_header]
  simp only [requestFields, List.map_cons, List.map_nil, readFields, Nat.reduceAdd, List.cons.injEq, and_true] at hread
  obtain ⟨hversion, hop, -, hstaged, hpending, hsnap, -, hid, hsession, htarget, -, hindex, hsub, htyp, hoffset, hlength, -, hat,
    hbatch⟩ := hread
  simp only [requestOf, hversion, hop, bitAt_of_field hstaged, bitAt_of_field hpending, bitAt_of_field hsnap, hid, hsession, htarget,
    hindex, hsub, htyp, hoffset, hlength, hat, hbatch, hdata, BitVec.ofNat_toNat, BitVec.setWidth_eq]

/-- The fields of a reply's header, from bit 0 up; those of value 0 are reserved. -/
def replyFields (y : Reply) : List (Nat × Nat) :=
  [(8, 1), (8, y.op), (8, y.status), (8, 0), (32, y.requestId.toNat), (64, y.session.toNat), (24, 0), (8, y.source), (16, y.index),
    (8, y.sub), (8, y.typ.toNat), (32, 0), (16, y.data.length), (144, 0), (64, y.effectiveStep), (64, y.ordinal)]

theorem replyMessage_eq (y : Reply) : replyMessage y = bytesOfNat 64 (packFields 0 (replyFields y)) ++ y.data := by
  simp only [replyMessage, replyFields, packFields, Nat.reduceAdd, zero_add, pow_zero, mul_one, add_zero, zero_mul, add_assoc]

theorem replyOf_replyMessage {y : Reply} (hfit : fieldsFit (replyFields y)) : replyOf (replyMessage y) = y := by
  have hread := readFields_packFields hfit
  have hnat := natOfBytes_packFields (n := 64) hfit (by simp [replyFields])
  rw [← take_header _ y.data, ← replyMessage_eq] at hnat
  rw [← hnat] at hread
  have hdata : (replyMessage y).drop 64 = y.data := by rw [replyMessage_eq, drop_header]
  simp only [replyFields, List.map_cons, List.map_nil, readFields, Nat.reduceAdd, List.cons.injEq, and_true] at hread
  obtain ⟨-, hop, hstatus, -, hid, hsession, -, hsource, hindex, hsub, htyp, -, hlength, -, hstep, hordinal⟩ := hread
  simp only [replyOf, hop, hstatus, hid, hsession, hsource, hindex, hsub, htyp, hlength, hstep, hordinal, hdata, List.take_length,
    BitVec.ofNat_toNat, BitVec.setWidth_eq]

/-! ## Packets (Table 9.7) -/

/-- The fields of a transport header, from bit 0 up. -/
def packetFields (p : Packet) : List (Nat × Nat) :=
  [(4, p.ptype), (2, p.cls), (1, natOfBool p.detoured), (1, natOfBool p.flagOr), (24, p.dst.toNat), (24, p.src.toNat), (8, p.comm),
    (32, p.streamSeq.toNat), (64, p.step), (12, p.srcSlot), (12, p.dstSlot), (13, p.group), (4, p.fmt), (1, natOfBool p.deferred),
    (1, natOfBool p.reverse), (13, p.payload.length), (40, p.elemOffset), (32, p.collId), (32, p.epoch), (64, p.arg.toNat)]

theorem headerBytes_eq (p : Packet) : headerBytes p = bytesOfNat 64 (packFields 0 (packetFields p)) := by
  simp only [headerBytes, packetFields, packFields, Nat.reduceAdd, zero_add, pow_zero, mul_one, add_zero, add_assoc]

/-- A payload's bytes with the marks of its poisoned words: each mark stands on a word's first byte. -/
def packetMarks (p : Packet) : List (Byte × Bool) :=
  p.payload.zipIdx.map (fun x => (x.1, decide (x.2 % 8 = 0) && p.poison.contains (x.2 / 8)))

theorem packetMarks_length (p : Packet) : (packetMarks p).length = p.payload.length := by simp [packetMarks]

theorem packetMarks_bytes (p : Packet) : (packetMarks p).map (fun x => x.1) = p.payload := by
  simp only [packetMarks, List.map_map, Function.comp_def, List.zipIdx_map_fst]

/-- The word that a marked byte at a place of a payload poisons. -/
def poisonedWord (x : (Byte × Bool) × Nat) : Option Nat := if x.1.2 ∧ x.2 % 8 = 0 then some (x.2 / 8) else none

theorem poisonedWord_eq_some {x : (Byte × Bool) × Nat} {w : Nat} : poisonedWord x = some w ↔ x.1.2 = true ∧ x.2 = 8 * w := by
  rw [poisonedWord, Option.ite_none_right_eq_some, Option.some.injEq, and_assoc]
  exact and_congr_right fun _ => by omega

theorem mem_marked_iff {p : Packet} (hin : ∀ w ∈ p.poison, 8 * w < p.payload.length) (w : Nat) :
    w ∈ (packetMarks p).zipIdx.filterMap poisonedWord ↔ w ∈ p.poison := by
  simp only [List.mem_filterMap, poisonedWord_eq_some, Prod.exists, List.mem_zipIdx_iff_getElem?, packetMarks, List.getElem?_map,
    List.getElem?_zipIdx]
  constructor
  · rintro ⟨b, mark, i, hget, rfl, rfl⟩
    simp at hget
    exact hget.2
  · intro hw
    refine ⟨p.payload[8 * w]'(hin w hw), true, 8 * w, ?_, rfl, rfl⟩
    simp [hin w hw, hw]

/-- The words of the marks stand in rising order. -/
theorem marked_rising (l : List (Byte × Bool)) : (l.zipIdx.filterMap poisonedWord).Pairwise (· < ·) := by
  have hplaces : l.zipIdx.Pairwise (fun x y => x.2 < y.2) := by
    rw [← List.pairwise_map (f := Prod.snd), List.zipIdx_map_snd]
    exact List.pairwise_lt_range'
  refine List.Pairwise.filterMap _ (fun x y hxy a ha b hb => ?_) hplaces
  obtain ⟨-, hx⟩ := poisonedWord_eq_some.mp ha
  obtain ⟨-, hy⟩ := poisonedWord_eq_some.mp hb
  omega

theorem marked_poison {p : Packet} (hrise : p.poison.Pairwise (· < ·)) (hin : ∀ w ∈ p.poison, 8 * w < p.payload.length) :
    (packetMarks p).zipIdx.filterMap poisonedWord = p.poison :=
  (marked_rising _).eq_of_mem_iff hrise (mem_marked_iff hin)

theorem packetOf_headerBytes {p : Packet} (hfit : fieldsFit (packetFields p)) (hrise : p.poison.Pairwise (· < ·))
    (hin : ∀ w ∈ p.poison, 8 * w < p.payload.length) : packetOf (natOfBytes (headerBytes p)) (packetMarks p) = p := by
  have hread := readFields_packFields hfit
  rw [← natOfBytes_packFields (n := 64) hfit (by simp [packetFields]), ← headerBytes_eq] at hread
  have hpoison := marked_poison hrise hin
  simp only [packetFields, List.map_cons, List.map_nil, readFields, Nat.reduceAdd, List.cons.injEq, and_true] at hread
  obtain ⟨htype, hcls, hdetoured, hflag, hdst, hsrc, hcomm, hseq, hstep, hsrcSlot, hdstSlot, hgroup, hfmt, hdeferred, hreverse, hlength,
    helem, hcoll, hepoch, harg⟩ := hread
  simp only [packetOf, htype, hcls, bitAt_of_field hdetoured, bitAt_of_field hflag, hdst, hsrc, hcomm, hseq, hstep, hsrcSlot, hdstSlot,
    hgroup, hfmt, bitAt_of_field hdeferred, bitAt_of_field hreverse, hlength, ← packetMarks_length p, List.take_length,
    packetMarks_bytes, helem, hcoll, hepoch, harg, BitVec.ofNat_toNat, BitVec.setWidth_eq]
  exact congrArg (fun l => ({ p with poison := l } : Packet)) hpoison

end Sys2Proof.Machine

namespace Sys2Proof.Proofs

open Sys2Proof Sys2Proof.Machine

/-- Settles O54: each format is a word of fields, and fields that fit their widths are read back. -/
theorem messagesReadBackAsWritten : Obligations.MessagesReadBackAsWritten := by
  refine ⟨?_, ?_, ?_, ?_⟩
  · intro op r hop hwf
    obtain ⟨hversion, hindex, hsub, hoffset, hlength, hat, hbatch, -⟩ := of_decide_eq_true hwf
    refine requestOf_requestMessage ?_
    simp only [fieldsFit, requestFields, List.forall_mem_cons, natOfBool_lt, BitVec.isLt, List.not_mem_nil, false_implies,
      implies_true, and_true, true_and]
    omega
  · intro y hop hstatus hsource hindex hsub hstep hordinal hlength
    refine replyOf_replyMessage ?_
    simp only [fieldsFit, replyFields, List.forall_mem_cons, BitVec.isLt, List.not_mem_nil, false_implies, implies_true, and_true,
      true_and]
    omega
  · intro p hwf hrise hin
    obtain ⟨htype, hcls, hcomm, hstep, hsrcSlot, hdstSlot, hgroup, hfmt, helem, hcoll, hepoch, hlength⟩ := of_decide_eq_true hwf
    refine packetOf_headerBytes ?_ hrise hin
    simp only [fieldsFit, packetFields, List.forall_mem_cons, natOfBool_lt, BitVec.isLt, List.not_mem_nil, false_implies,
      implies_true, and_true, true_and]
    omega
  · intro h hpos hvc hseq hack hcvc hcount hversion
    refine linkHeaderOf_nat ?_
    simp only [fieldsFit, linkHeaderFields, List.forall_mem_cons, natOfBool_lt, List.not_mem_nil, false_implies, implies_true,
      and_true, true_and]
    omega

end Sys2Proof.Proofs
end

section
/-! A member's own part of a collective, and the chunks, ring positions and packets that it is made of (R237 to R241). -/

namespace Sys2Proof.Machine

open Sys2Proof

/-! ## The own part runs once (R241) -/

/-- The member's own part of a collective is due: its READY is sent, its GO is held, and it has not run. -/
def partDue (s : State) (c : Coll) : Prop := huskStopped s = false ∧ c.readySent = true ∧ c.decisions ≠ [] ∧ c.ran = false

theorem ownPart_due {s : State} {k : CollKey} {kind : Nat} {f : State → CollKey → Nat → State}
    (hkind : (collAt s k (openStep s k)).kind = kind) (hdue : partDue s (collAt s k (openStep s k))) :
    ownPart s k kind f = .next (noteChanges s (f (onColl s k (openStep s k) (fun c => { c with ran := true })) k (openStep s k))) := by
  obtain ⟨hrail, hready, hgo, hran⟩ := hdue
  exact if_neg (by simp [hrail, hkind, hready, hgo, hran])

theorem ownPart_held {s : State} {k : CollKey} {kind : Nat} {f : State → CollKey → Nat → State}
    (hheld : huskStopped s = true ∨ (collAt s k (openStep s k)).readySent = false ∨ (collAt s k (openStep s k)).decisions = [] ∨
      (collAt s k (openStep s k)).ran = true) : ownPart s k kind f = .next s :=
  if_pos (hheld.imp_right .inr)

/-- A row of the collectives: its command runs the own part of its kind. -/
def ownPartRow (row : Nat × (CollKey → Instr) × (State → CollKey → Nat → State)) : Prop :=
  ∀ s k, exec (row.2.1 k) s = ownPart s k row.1 row.2.2

/-! ## Chunks (R239) -/

theorem chunkStart_zero (count h : Nat) : chunkStart count h 0 = 0 := Nat.zero_div h

theorem chunkStart_all (count : Nat) {h : Nat} (hpos : 0 < h) : chunkStart count h h = count := Nat.mul_div_cancel count hpos

theorem chunkStart_le_succ (count h i : Nat) : chunkStart count h i ≤ chunkStart count h (i + 1) :=
  Nat.div_le_div_right (Nat.mul_le_mul_left count (Nat.le_succ i))

/-! ## Positions in the ring (R239) -/

theorem ringPosition_lt {n : Nat} (o slot : Nat) (back : Bool) (hn : 0 < n) : ringPosition n o slot back < n := by
  cases back <;> exact Nat.mod_lt _ hn

/-- The owner's position is the last, whichever way the order goes. -/
theorem ringPosition_owner {n : Nat} (o : Nat) (back : Bool) (hn : 0 < n) : ringPosition n o o back = n - 1 := by
  have hlast : (o + 2 * n - o - 1) % n = n - 1 := by
    rw [show o + 2 * n - o - 1 = n - 1 + n by omega, Nat.add_mod_right, Nat.mod_eq_of_lt (by omega)]
  cases back <;> exact hlast

theorem ringPosition_injective {n o x y : Nat} {back : Bool} (ho : o < n) (hx : x < n) (hy : y < n)
    (h : ringPosition n o x back = ringPosition n o y back) : x = y := by
  suffices hmod : x ≡ y [MOD n] from Nat.ModEq.eq_of_lt_of_lt hmod hx hy
  cases back with
  | false =>
    have hshift (z : Nat) : z + 2 * n - o - 1 = z + (2 * n - o - 1) := by omega
    simp only [ringPosition, Bool.false_eq_true, if_false, hshift] at h
    exact Nat.ModEq.add_right_cancel' _ h
  | true =>
    have hsum : o + 2 * n - x - 1 + x = o + 2 * n - y - 1 + y := by omega
    exact Nat.ModEq.add_left_cancel h (hsum ▸ Nat.ModEq.refl _)

/-! ## Packets of a run of elements -/

/-- The first `m` packets of a run of `len` elements carry `m` times the packet's size, up to all of them. -/
theorem packets_carry (size lo len m : Nat) :
    ((List.range m).map (fun i => (lo + i * size, min size (len - i * size)))).foldl (fun a r => a + r.2) 0 = min (m * size) len := by
  induction m with
  | zero => simp
  | succ m ih =>
    rw [List.range_succ, List.map_append, List.foldl_append, ih, Nat.succ_mul]
    simp only [List.map_cons, List.map_nil, List.foldl_cons, List.foldl_nil]
    omega

theorem packetRuns_carry_all {size lo hi : Nat} (hsize : 0 < size) :
    (packetRuns size lo hi).foldl (fun a r => a + r.2) 0 = hi - lo := by
  have hcover := Nat.lt_mul_div_succ (hi - lo + size - 1) hsize
  rw [mul_add, mul_comm size] at hcover
  exact (packets_carry size lo (hi - lo) _).trans (min_eq_right (by omega))

/-- Every packet of a run carries an element, no more than its size, and begins in the run. -/
theorem mem_packetRuns {size lo hi : Nat} (hsize : 0 < size) {r : Nat × Nat} (h : r ∈ packetRuns size lo hi) :
    1 ≤ r.2 ∧ r.2 ≤ size ∧ lo ≤ r.1 := by
  obtain ⟨i, hmem, rfl⟩ := List.mem_map.mp h
  have hfull := (Nat.le_div_iff_mul_le hsize).mp (List.mem_range.mp hmem)
  rw [Nat.succ_mul] at hfull
  dsimp only
  omega

end Sys2Proof.Machine

namespace Sys2Proof.Proofs

open Sys2Proof Sys2Proof.Machine

/-- Settles O27: every row runs its own part, which is due once; chunks, positions and packets are counted by division. -/
theorem collectivesRunTheirOwnPart : Obligations.CollectivesRunTheirOwnPart := by
  refine ⟨?_, ⟨?_, ?_, ?_⟩⟩
  · suffices hrows : ∀ row ∈ _, ownPartRow row from fun row hrow s k hkind => by
      rw [hrows row hrow s k]
      exact ⟨fun hrail hready hgo hran => ownPart_due hkind ⟨hrail, hready, hgo, hran⟩, ownPart_held⟩
    simp only [ownPartRow, List.forall_mem_cons, List.not_mem_nil, false_implies, implies_true, and_true]
    exact ⟨fun _ _ => rfl, fun _ _ => rfl, fun _ _ => rfl, fun _ _ => rfl, fun _ _ => rfl, fun _ _ => rfl⟩
  · exact fun count h hpos => ⟨chunkStart_zero count h, chunkStart_all count hpos, fun i _ => chunkStart_le_succ count h i⟩
  · intro n o back ho
    have hn : 0 < n := by omega
    exact ⟨fun x _ => ringPosition_lt o x back hn, ringPosition_owner o back hn, fun x y hx hy h => ringPosition_injective ho hx hy h⟩
  · exact fun size lo hi hsize _ => ⟨packetRuns_carry_all hsize, fun r hr => mem_packetRuns hsize hr⟩

end Sys2Proof.Proofs
end

section
/-! Acknowledgements, resends, the deadline of a reduction, and the completion of a collective (R188, R231, R233, R242, R244). -/

namespace Sys2Proof.Machine

open Sys2Proof

/-! ## Streams (R231, R233) -/

/-- The stream whose packets an ACK acknowledges; that the class stands above bit 32 is the model's choice (assumption 67). -/
def ackedStream (t : State) (p : Packet) : StreamKey := ⟨ownNode t, p.src, p.arg.toNat / 2 ^ 32 % 4, p.comm⟩

/-- An ACK that names an unacknowledged packet frees it and those before it, and what waited for room goes out. -/
theorem exec_ack_found {s t : State} {p : Packet} {i : Nat} (hrail : huskStopped s = false) (htake : takePacket s 5 p = some t)
    (hfound : (txOf t (ackedStream t p)).unacked.findIdx? (fun q => decide (q.streamSeq.toNat = p.arg.toNat % 2 ^ 32)) = some i) :
    exec (.ack p) s = .next (noteChanges s (drainSend t.fabric.toSend.length
      (setTx t { txOf t (ackedStream t p) with unacked := (txOf t (ackedStream t p)).unacked.drop (i + 1) }))) := by
  refine (withPacket_taken hrail htake).trans ?_
  unfold ackedStream at hfound
  simp only [hfound]
  rfl

theorem exec_ackTimer_due {s : State} {k : StreamKey} (h : (rxOf s k).unackedCount ≠ 0) :
    exec (.ackTimer k) s = .next (noteChanges s (sendAck s k)) := if_neg h

theorem exec_resendTimeout_due {s : State} {k : StreamKey} (h : (txOf s k).unacked ≠ []) :
    exec (.resendTimeout k) s = .next (noteChanges s (resendStream (raise s 0x030A0907 (nodePosition k.dst)) (txOf s k))) := if_neg h

theorem exec_pathNotice_taken {s t : State} {p : Packet} (hrail : huskStopped s = false) (htake : takePacket s 6 p = some t) :
    exec (.pathNotice p) s = .next (noteChanges s
      ((t.fabric.tx.filter (fun x => decide (x.key.dst.toNat = p.elemOffset % 2 ^ 24))).foldl resendStream t)) :=
  withPacket_taken hrail htake

/-! ## The deadline of a reduction (R244) -/

/-- Where no READY waits, the root's deadline is no tie: the collective has expired. -/
theorem exec_reductionDeadline_due {s : State} {k : CollKey} (htimer : (collAt s k (openStep s k)).timer = true)
    (hsent : (collAt s k (openStep s k)).goSent = false) (hroot : isRoot s k = true) (hnone : s.fabric.delivered = []) :
    exec (.reductionDeadline k) s = .next (noteChanges s (maybeGo (onColl s k (openStep s k) (fun c =>
      { c with expired := true, timer := false })) k (openStep s k))) := by
  refine (if_neg (by simp [htimer, hsent, hroot])).trans ?_
  simp only [hnone, List.any_nil, Bool.false_eq_true, if_false]
  rfl

/-! ## The completion of a collective (R188, R242) -/

/-- The collective of a key that its member works on, done. -/
def collDone (s : State) (k : CollKey) : State := setColl s { collAt s k (openStep s k) with done := true }

/-- What completion leaves of the training step: a dense group's result is saved, a sweep group's merge may begin. -/
def completed (s : State) (k : CollKey) : State :=
  if k.group = noGroup then collDone s k
  else if k.group < 4096 then saveResult (onWork (collDone s k) k.group (fun w => { w with reduced := true })) k.group
  else match bindingOfGroup (collDone s k) k.group with
    | some b => onBinding (collDone s k) b (fun w => { w with exchanged := true })
    | none => collDone s k

theorem completed_free {s : State} {k : CollKey} (h : k.group = noGroup) : completed s k = collDone s k := if_pos h

theorem completed_dense {s : State} {k : CollKey} (h : k.group < 4096) :
    completed s k = saveResult (onWork (collDone s k) k.group (fun w => { w with reduced := true })) k.group :=
  (if_neg (by unfold noGroup; omega)).trans (if_pos h)

theorem completed_sweep {s : State} {k : CollKey} {bn : Nat} (hlow : 4096 ≤ k.group) (hgroup : k.group ≠ noGroup)
    (hbinding : bindingOfGroup s k.group = some bn) :
    completed s k = onBinding (collDone s k) bn (fun w => { w with exchanged := true }) := by
  have hkept : bindingOfGroup (collDone s k) k.group = some bn := hbinding
  rw [completed, if_neg hgroup, if_neg (Nat.not_lt.mpr hlow), hkept]

/-- A finished collective completes, the carrier's once the reduced summary is here. -/
theorem exec_collectiveComplete_due {s : State} {k : CollKey} (hopen : (collAt s k (openStep s k)).done = false)
    (hfinished : collFinished s (collAt s k (openStep s k)) = true)
    (hsummary : k.group ≠ noGroup → carrierNow s = some k.group → s.train.reducedSummary ≠ none) :
    exec (.collectiveComplete k) s =
      .next (noteChanges s (signalCounter (completed s k) (collAt s k (openStep s k)).signal)) := by
  refine if_neg ?_
  simp only [hopen, hfinished, Bool.false_eq_true, Bool.true_eq_false, false_or, decide_eq_true_eq]
  exact fun ⟨⟨hgroup, hcarrier⟩, hnone⟩ => hsummary hgroup hcarrier hnone

end Sys2Proof.Machine

namespace Sys2Proof.Proofs

open Sys2Proof Sys2Proof.Machine

/-- Settles O29: each row acts by its own condition, and completion goes by the kind of its group. -/
theorem acknowledgementsAndDeadlines : Obligations.AcknowledgementsAndDeadlines := by
  refine ⟨⟨fun s t p i => exec_ack_found, fun s k => exec_ackTimer_due, fun s k => exec_resendTimeout_due,
    fun s t p => exec_pathNotice_taken⟩, fun s k => exec_reductionDeadline_due, ?free, ?dense, ?sweep⟩
  case free =>
    intro s k hgroup hopen hfinished
    rw [exec_collectiveComplete_due hopen hfinished (absurd hgroup), completed_free hgroup]
    rfl
  case dense =>
    intro s k hgroup hopen hfinished hsummary
    rw [exec_collectiveComplete_due hopen hfinished (fun _ => hsummary), completed_dense hgroup]
    rfl
  case sweep =>
    intro s k bn hlow hgroup hopen hfinished hcarrier hbinding
    rw [exec_collectiveComplete_due hopen hfinished (fun _ h => absurd h hcarrier), completed_sweep hlow hgroup hbinding]
    rfl

end Sys2Proof.Proofs
end

section
/-! How the training of a port ends (R221, Tables 9.3 and 9.6). -/

namespace Sys2Proof.Machine

open Sys2Proof

/-! ## One port -/

/-- A changed port is the change of what stood there, unless the change makes it a port that is off. -/
theorem portOf_onPort_self {s : State} {n : Nat} {f : Port → Port} (h : f (portOf s n) ≠ Port.off) :
    portOf (onPort s n f) n = f (portOf s n) :=
  tabGet_modify_value s.fabric.ports n h

theorem port_ne_off {p : Port} (h : p.state ≠ 0) : p ≠ Port.off := fun e => h (e ▸ rfl)

@[simp] theorem raise_fabric (s : State) (c : Code) (a : Nat) : (raise s c a).fabric = s.fabric := by
  obtain ⟨b, d, h⟩ := raise_frame s c a
  rw [h]

theorem portOf_of_fabric {s t : State} (h : t.fabric = s.fabric) (n : Nat) : portOf t n = portOf s n := by
  rw [portOf, h, portOf]

/-- A port with a code and its step in its link fault record (Table 9.6). -/
def recordLinkFault (s : State) (c : Code) (p : Port) : Port := { p with faultCode := c, faultStep := currentStep s }

theorem portOf_linkFault {s : State} {n : Nat} (c : Code) (h : (portOf s n).state ≠ 0) :
    portOf (linkFault s n c) n = recordLinkFault s c (portOf s n) :=
  (portOf_of_fabric (raise_fabric _ c n) n).trans (portOf_onPort_self (port_ne_off h))

theorem linkFault_reroute (s : State) (n : Nat) (c : Code) : (linkFault s n c).fabric.reroute = s.fabric.reroute := by
  rw [linkFault, raise_fabric]
  rfl

/-! ## A port comes up with nothing to send (R223, R229) -/

theorem pumpPort_nothing {s : State} {n : Nat} (h : (portOf s n).outbox = []) : pumpPort s n = s := by
  rw [pumpPort, h]
  rfl

theorem releaseReroute_nothing {s : State} (h : s.fabric.reroute = []) : (releaseReroute s).fabric = { s.fabric with reroute := [] } := by
  simp only [releaseReroute, h, List.foldl_nil, List.filterMap_nil]
  rfl

/-- The port that comes up in a state: its numbering begins anew, and 8 credits are held for each channel. -/
def raisedPort (state : Nat) (p : Port) : Port :=
  { p with
    state := state
    txSeq := 0
    rxLast := 0xFFF
    replay := []
    discarding := false
    credits := (List.range 16).map (fun vc => (vc, 8))
    granted := (List.range 16).map (fun vc => (vc, 8))
    assembling := [] }

theorem portOf_raisePort {s : State} {n state : Nat} (hstate : state ≠ 0) (hsend : (portOf s n).outbox = [])
    (hheld : s.fabric.reroute = []) : portOf (raisePort s n state) n = raisedPort state (portOf s n) := by
  have hself : portOf (onPort s n (raisedPort state)) n = raisedPort state (portOf s n) := portOf_onPort_self (port_ne_off hstate)
  have hraise : raisePort s n state = releaseReroute (onPort s n (raisedPort state)) :=
    congrArg releaseReroute (pumpPort_nothing ((congrArg Port.outbox hself).trans hsend))
  rw [hraise, portOf, releaseReroute_nothing (s := onPort s n (raisedPort state)) hheld]
  exact hself

/-! ## The outcomes (Table 9.3) -/

/-- The lanes of a port's mode that trained. -/
def trainedLanes (s : State) (port : Nat) (good : NatSet) : List Nat :=
  (List.range (if cfgElem s 0x500001 port = 1 then 9 else 8)).filter (fun n => good.contains n)

/-- A port with the lanes that training found bad, and its spare where it takes the place of one. -/
def noteLanes (s : State) (port : Nat) (good : NatSet) (p : Port) : Port :=
  { p with
    badLanes := (List.range (if cfgElem s 0x500001 port = 1 then 9 else 8)).filter (fun n => !good.contains n)
    spareUsed := decide (cfgElem s 0x500001 port = 1 ∧ (trainedLanes s port good).length = 8) && good.contains 8 }

section
variable {s : State} {port : Nat} {good : NatSet} {version : Nat}

theorem finishTraining_otherVersion (h : version ≠ modeVersion (cfgElem s 0x500001 port)) :
    finishTraining s port good version = linkFault (onPort s port (noteLanes s port good)) port 0x030B0905 := if_pos h

theorem finishTraining_few (h : version = modeVersion (cfgElem s 0x500001 port)) (hfew : (trainedLanes s port good).length < 4) :
    finishTraining s port good version = linkFault (onPort s port (noteLanes s port good)) port 0x030B0904 :=
  (if_neg (not_not.mpr h)).trans ((if_neg (by unfold trainedLanes at hfew; omega)).trans (if_neg (Nat.not_le.mpr hfew)))

theorem finishTraining_full (h : version = modeVersion (cfgElem s 0x500001 port)) (hfull : 8 ≤ (trainedLanes s port good).length) :
    finishTraining s port good version = raisePort (onPort s port (noteLanes s port good)) port 2 :=
  (if_neg (not_not.mpr h)).trans (if_pos hfull)

theorem finishTraining_half (h : version = modeVersion (cfgElem s 0x500001 port)) (hfour : 4 ≤ (trainedLanes s port good).length)
    (height : (trainedLanes s port good).length < 8) :
    finishTraining s port good version = raisePort (linkFault (onPort s port (noteLanes s port good)) port 0x030B0903) port 3 :=
  (if_neg (not_not.mpr h)).trans ((if_neg (Nat.not_le.mpr height)).trans (if_pos hfour))

variable (htrains : (portOf s port).state = 1)
include htrains

theorem portOf_noteLanes : portOf (onPort s port (noteLanes s port good)) port = noteLanes s port good (portOf s port) :=
  portOf_onPort_self (port_ne_off (ne_of_eq_of_ne htrains one_ne_zero))

/-- The port of a training that ended with a link fault: in training still, with its lanes noted and the code in its record. -/
theorem portOf_trainingFault (c : Code) : portOf (linkFault (onPort s port (noteLanes s port good)) port c) port =
    recordLinkFault s c (noteLanes s port good (portOf s port)) := by
  have hlanes := portOf_noteLanes (good := good) htrains
  rw [portOf_linkFault c (by rw [hlanes]; exact ne_of_eq_of_ne htrains one_ne_zero), hlanes]
  rfl

theorem training_full (h : version = modeVersion (cfgElem s 0x500001 port)) (hfull : 8 ≤ (trainedLanes s port good).length)
    (hheld : s.fabric.reroute = []) (hsend : (portOf s port).outbox = []) :
    portOf (finishTraining s port good version) port = raisedPort 2 (noteLanes s port good (portOf s port)) := by
  have hlanes := portOf_noteLanes (good := good) htrains
  have hup := portOf_raisePort (s := onPort s port (noteLanes s port good)) two_ne_zero (by rw [hlanes]; exact hsend) hheld
  rw [finishTraining_full h hfull, hup, hlanes]

theorem training_half (h : version = modeVersion (cfgElem s 0x500001 port)) (hfour : 4 ≤ (trainedLanes s port good).length)
    (height : (trainedLanes s port good).length < 8) (hheld : s.fabric.reroute = []) (hsend : (portOf s port).outbox = []) :
    portOf (finishTraining s port good version) port =
      raisedPort 3 (recordLinkFault s 0x030B0903 (noteLanes s port good (portOf s port))) := by
  have hfault := portOf_trainingFault (good := good) htrains 0x030B0903
  have hup := portOf_raisePort (s := linkFault (onPort s port (noteLanes s port good)) port 0x030B0903) three_ne_zero
    (by rw [hfault]; exact hsend) (by rw [linkFault_reroute]; exact hheld)
  rw [finishTraining_half h hfour height, hup, hfault]

end

/-! ## The rows that end a training -/

/-- A row ends the training of a port in training. -/
def endsTraining (row : Nat → NatSet → Nat → Instr) : Prop :=
  ∀ s port good version, (portOf s port).state = 1 →
    exec (row port good version) s = .next (noteChanges s (finishTraining s port good version))

theorem portTrainingDone_endsTraining : endsTraining Instr.portTrainingDone := fun _ _ _ _ h => if_neg (not_not.mpr h)

theorem trainingRetry_endsTraining : endsTraining Instr.trainingRetry := fun _ _ _ _ h => if_neg (not_not.mpr h)

/-- What a training row leaves of the port that it names. -/
theorem exec_training {row : Nat → NatSet → Nat → Instr} (hrow : endsTraining row) {s : State} {port : Nat} {good : NatSet}
    {version : Nat} {p : Port} (htrains : (portOf s port).state = 1) (hport : portOf (finishTraining s port good version) port = p) :
    ∃ t, exec (row port good version) s = .next t ∧ portOf t port = p :=
  ⟨_, hrow s port good version htrains, (portOf_of_fabric (noteChanges_fabric _ _) port).trans hport⟩

end Sys2Proof.Machine

namespace Sys2Proof.Proofs

open Sys2Proof Sys2Proof.Machine

/-- Settles O30: each outcome of training leaves one port, whose fields the statement reads. -/
theorem trainingOutcomeByLanes : Obligations.TrainingOutcomeByLanes := by
  intro row hmem s port good version _ htrains _
  have hrow : endsTraining row := by
    obtain rfl | rfl := List.mem_pair.mp hmem
    · exact portTrainingDone_endsTraining
    · exact trainingRetry_endsTraining
  refine ⟨fun h => ?_, fun h hfew => ?_, fun h hfull hheld hsend => ?_, fun h hfour height hheld hsend => ?_⟩
  · obtain ⟨t, ht, hp⟩ := exec_training hrow htrains
      ((congrArg (portOf · port) (finishTraining_otherVersion h)).trans (portOf_trainingFault (good := good) htrains _))
    exact ⟨t, ht, by rw [hp]; exact ⟨htrains, rfl⟩⟩
  · obtain ⟨t, ht, hp⟩ := exec_training hrow htrains
      ((congrArg (portOf · port) (finishTraining_few h hfew)).trans (portOf_trainingFault htrains _))
    exact ⟨t, ht, by rw [hp]; exact ⟨htrains, rfl⟩⟩
  · obtain ⟨t, ht, hp⟩ := exec_training hrow htrains (training_full htrains h hfull hheld hsend)
    exact ⟨t, ht, by rw [hp]; exact ⟨rfl, rfl, rfl, rfl⟩⟩
  · obtain ⟨t, ht, hp⟩ := exec_training hrow htrains (training_half htrains h hfour height hheld hsend)
    exact ⟨t, ht, by rw [hp]; exact ⟨rfl, rfl⟩⟩

end Sys2Proof.Proofs
end

section
/-! The reduced step summary, and the RESULT that carries it (R247). -/

namespace Sys2Proof.Machine

open Sys2Proof

/-! ## The reduced summary -/

section
variable (own : Summary) (flag : Bool) (inc dfr : List Summary)

theorem reduceSummaries_nonfinite :
    (reduceSummaries own flag inc dfr).nonfinite = true ↔ flag = true ∨ ∃ x ∈ inc ++ dfr, x.nonfinite = true := by
  rw [reduceSummaries, Bool.or_eq_true, List.any_eq_true, or_comm]

theorem reduceSummaries_overBound :
    (reduceSummaries own flag inc dfr).overBound = true ↔ ∃ x ∈ inc ++ dfr, x.overBound = true := List.any_eq_true

theorem reduceSummaries_fault : (reduceSummaries own flag inc dfr).fault = true ↔ ∃ x ∈ inc ++ dfr, x.fault = true := List.any_eq_true

/-- The members agree when every included digest is the root's; the deferred ones are not asked. -/
theorem reduceSummaries_agree : (reduceSummaries own flag inc dfr).agree = true ↔ ∀ x ∈ inc, x.digest = own.digest := by
  simp only [reduceSummaries, List.all_eq_true, decide_eq_true_eq]

end

/-! ## RESULT -/

/-- The payload of a RESULT: the reduced summary without its digest, then the root's digest. -/
def resultBytes (r : Summary) (digest : BitVec 128) : List Byte := summaryBytes { r with digest := 0 } ++ bytesOfNat 16 digest.toNat

/-- RESULT goes to every Henelo slot of a collective's group. -/
def resultSent (s : State) (c : Coll) (bytes : List Byte) : State :=
  (heneloSlots (collGroup s c.key).1).foldl (fun (t : State) (x : Nat) => sendPacket t { collPacket t c 4 x with payload := bytes }) s

/-- The root may send RESULT: its cut is past, the carrier's GO is sent, nothing withholds it, and it has not sent it in this step. -/
def resultDue (s : State) (c : Coll) : Prop :=
  isRoot s c.key = true ∧ s.train.cut = true ∧ c.decisions ≠ [] ∧ rootHolds s c.key.comm (currentStep s) = false ∧
    s.resil.resultSentFor ≠ some (currentStep s)

/-- A root without older members that holds every summary due sends RESULT, once in the step. -/
theorem exec_resultSend_due {s : State} {c : Coll} {own : Summary} {inc dfr : List Summary} (hcarrier : carrierColl s = some c)
    (hown : s.train.ownSummary = some own) (hdue : resultDue s c) (holder : olderSlots (collGroup s c.key).1 = [])
    (hinc : summariesOf c.summaries ((heneloSlots (collGroup s c.key).1).filter (fun x => decide (c.decisions.getD x 2 = 0))) = some inc)
    (hdfr : summariesOf s.fabric.carrierDeferred c.deferredIn = some dfr) :
    exec .resultSend s = .next (noteChanges s
      ((resultSent s c (resultBytes (reduceSummaries own c.flagOr inc dfr) own.digest)).onResil (fun x =>
        { x with resultSentFor := some (currentStep s) }))) := by
  obtain ⟨hroot, hcut, hgo, hfree, honce⟩ := hdue
  show execResultSend s = _
  simp only [execResultSend, hcarrier, hown, hroot, hcut, hgo, hfree, honce, holder, hinc, hdfr, decide_true, Bool.true_or,
    Bool.true_eq_false, Bool.false_eq_true, or_self, if_false]
  rfl

end Sys2Proof.Machine

namespace Sys2Proof.Proofs

open Sys2Proof Sys2Proof.Machine

/-- Settles O33: the reduced summary is read flag by flag, and RESULT is due once. -/
theorem summariesReducedAndSent : Obligations.SummariesReducedAndSent :=
  ⟨fun own flag inc dfr => ⟨reduceSummaries_nonfinite own flag inc dfr, reduceSummaries_overBound own flag inc dfr,
      reduceSummaries_fault own flag inc dfr, reduceSummaries_agree own flag inc dfr, rfl⟩,
    fun _ _ _ _ _ hcarrier hown hroot hcut hgo hfree holder honce hinc hdfr =>
      exec_resultSend_due hcarrier hown ⟨hroot, hcut, hgo, hfree, honce⟩ holder hinc hdfr⟩

end Sys2Proof.Proofs
end

section
/-! Writes of RW and RWS objects and their REVERT (R44, R325, R337, R351). -/

namespace Sys2Proof.Machine

open Sys2Proof

/-! ## The object of a write -/

theorem objFind_of_checkWrite {s : State} {x : Session} {r : Request} {revert part : Bool} {o : Obj}
    (h : checkWrite s x r revert part = .ok o) : objFind (r.index * 256 + r.sub) = some o := by
  unfold checkWrite at h
  split at h
  · exact nomatch h
  · next p hp =>
    rw [hp]
    split_ifs at h <;> cases h <;> rfl

/-- The two objects whose writes can ask for a stack reset: stack_reset is WO, test_state is RW (R344, R360). -/
theorem resetObjects_access : ∀ o ∈ objects, (o.key = 0x181003 → o.access = 4) ∧ (o.key = 0x701001 → o.access = 2) := by
  decide +kernel

/-- A write of an object that is not WO, nor test_state, asks for no stack reset. -/
theorem resetAsked_none {k : Nat} {o : Obj} (hobj : objFind k = some o) (haccess : o.access ≠ 4)
    (htest : o.key = 0x701001 → o.access ≠ 2) (off : Nat) (data : List Byte) (source : Nat) :
    resetAsked [⟨o, off, data, source⟩] = none := by
  obtain ⟨hreset, hstate⟩ := resetObjects_access o (List.mem_of_find?_eq_some hobj)
  have hkey : o.key ≠ 0x181003 := fun h => haccess (hreset h)
  have hkey' : o.key ≠ 0x701001 := fun h => htest h (hstate h)
  simp [resetAsked, hkey, hkey']

/-- A row whose command is the write of the object of its key. -/
def isWriteOf (row : Nat × (Request → Instr)) : Prop := ∀ r s, exec (row.2 r) s = serveWrite row.1 Findings.nothing r s

/-! ## What is accepted, and its answer -/

/-- What a request in use leaves of the write ordinal. -/
theorem ordinal_inUse {s : State} {x : Session} : (inUse s x).dict.ordinal = s.dict.ordinal := by
  unfold inUse performKept.touch
  split <;> rfl

theorem acceptWrites_rw {s t : State} {w : PartWrite} {applyAt : Nat} {found : Findings} (haccess : w.obj.access = 2)
    (hwrite : rwWrite (counted s) w.obj w.off w.data w.source = .ok t) :
    acceptWrites found s applyAt [w] = .ok (t, 0, s.dict.ordinal + 1) := by
  have hstaged : w.obj.staged = false := by simp [Obj.staged, haccess]
  have hpart : writePart found (s.dict.ordinal + 1) applyAt (s.onDict (fun d => { d with ordinal := s.dict.ordinal + 1 })) w = .ok t := by
    unfold writePart
    rw [haccess]
    exact hwrite
  simp [acceptWrites, hstaged, writeParts, hpart]

/-- A write that joins the staged set at its ordinal (R44). -/
def stagedWith (s : State) (w : Staged) : State := s.onDict (fun d => { d with staged := d.staged ++ [w] })

theorem acceptWrites_staged {s : State} {w : PartWrite} {applyAt eff : Nat} {found : Findings} (haccess : w.obj.access = 3)
    (hstep : stagedStep s applyAt = .ok eff) :
    acceptWrites found s applyAt [w] =
      .ok (stagedWith (counted s) ⟨s.dict.ordinal + 1, applyAt, w.obj.key, w.off, w.data, w.source⟩, eff, s.dict.ordinal + 1) := by
  have hstaged : w.obj.staged = true := by simp [Obj.staged, haccess]
  have hpart : writePart found (s.dict.ordinal + 1) applyAt (s.onDict (fun d => { d with ordinal := s.dict.ordinal + 1 })) w =
      .ok (stagedWith (counted s) ⟨s.dict.ordinal + 1, applyAt, w.obj.key, w.off, w.data, w.source⟩) := by
    unfold writePart
    rw [haccess]
    rfl
  simp [acceptWrites, hstaged, hstep, writeParts, hpart]

/-- A request that is accepted with an effective step and a write ordinal is answered with both. -/
theorem serve_accepted {s t : State} {op : Nat} {r : Request} {x : Session} {eff n : Nat} {found : Findings} (hasked : askedBy s op r x)
    (ha : perform found (inUse s x) op r = ⟨t, acceptedReply op r eff n, none⟩) :
    serve found op r s = .next (noteChanges s (replied t r (acceptedReply op r eff n))) := by
  rw [serve_of_askedBy found hasked, ha]
  rfl

/-! ## RW objects (R325, R337) -/

/-- The bytes of an RW write stand in the values, and the entries that they cover have the write's source. -/
def valuesWritten (s : State) (o : Obj) (off : Nat) (data : List Byte) (source : Nat) : State :=
  s.onDict (fun d => { d with
    values := storeWrite d.values o.key off data
    source := markSources d.startSource d.source ⟨0, 0, o.key, off, data, source⟩ })

/-- An RW write that passes its cross-object checks takes effect. -/
theorem rwWrite_stored {s : State} {o : Obj} {off source : Nat} {data : List Byte} (htyped : typedRw o.key = false)
    (hcheck : rwCheck s (storeWrite s.dict.values o.key off data) o.key (coveredEntries o.key off data.length) = none) :
    rwWrite s o off data source =
      .ok (rwAfter (valuesWritten s o off data source) o.key (coveredEntries o.key off data.length)) := by
  simp only [rwWrite, htyped, Bool.false_eq_true, if_false, hcheck]
  rfl

theorem rwWrite_uploadTarget {s : State} {o : Obj} {off source : Nat} {data : List Byte} (hkey : o.key = 0x180201) :
    rwWrite s o off data source = .ok ((writeUploadTarget s (natOfBytes data)).onDict (fun d => { d with
      source := markSources d.startSource d.source ⟨0, 0, o.key, off, data, source⟩ })) := by
  have htyped : typedRw o.key = true := by rw [hkey]; rfl
  have hact : acted o.key (typedWrite s o.key off data) = .ok (writeUploadTarget s (natOfBytes data)) := by rw [hkey]; rfl
  simp only [rwWrite, htyped, if_true, hact]

theorem serve_write_rw {s t : State} {r : Request} {x : Session} {o : Obj} {found : Findings} (h : writes s r x o)
    (haccess : o.access = 2) (htest : o.key ≠ 0x701001) (hwrite : rwWrite (counted (inUse s x)) o r.offset r.data 2 = .ok t) :
    serve found 2 r s = .next (acts s t r) := by
  have hreset := resetAsked_none (objFind_of_writes h) (by omega) (fun hkey => absurd hkey htest) r.offset r.data 2
  have ha := perform_write_accepted h (acceptWrites_rw (found := found) (w := ⟨o, r.offset, r.data, 2⟩) haccess hwrite)
  rw [hreset, ordinal_inUse] at ha
  exact serve_accepted h.1 ha

/-! ## RWS objects (R44) -/

theorem serve_write_staged {s : State} {r : Request} {x : Session} {o : Obj} {eff : Nat} {found : Findings} (h : writes s r x o)
    (haccess : o.access = 3) (hstep : stagedStep (inUse s x) r.applyAt = .ok eff) :
    serve found 2 r s = .next (noteChanges s (replied
      (stagedWith (counted (inUse s x)) ⟨s.dict.ordinal + 1, r.applyAt, o.key, r.offset, r.data, 2⟩) r
      (acceptedReply 2 r eff (s.dict.ordinal + 1)))) := by
  have hreset := resetAsked_none (objFind_of_writes h) (by omega) (by omega) r.offset r.data 2
  have ha := perform_write_accepted h (acceptWrites_staged (found := found) (w := ⟨o, r.offset, r.data, 2⟩) haccess hstep)
  rw [hreset, ordinal_inUse] at ha
  exact serve_accepted h.1 ha

/-! ## REVERT (R337) -/

/-- An accepted REVERT is a write of the value of start-up. -/
theorem perform_revert_accepted {s t : State} {r : Request} {x : Session} {o : Obj} {eff n : Nat} {found : Findings}
    (hasked : askedBy s 3 r x) (hbatch : r.batch = 0) (hcheck : checkWrite (inUse s x) x r true false = .ok o)
    (ha : acceptWrites found (inUse s x) r.applyAt [⟨o, 0, startData (inUse s x) o, 9⟩] = .ok (t, eff, n)) :
    perform found (inUse s x) 3 r = ⟨t, acceptedReply 3 r eff n, resetAsked [⟨o, 0, startData (inUse s x) o, 9⟩]⟩ := by
  obtain ⟨-, -, -, -, hsess, hpend, -, -, hserved⟩ := hasked
  have hsess' := sessionOf_inUse hpend hsess
  have hcheck' := (checkWrite_role (x := x) (y := { x with lastUse := s.power.refPeriods }) rfl r true false).trans hcheck
  simp only [perform, hserved, hsess', writeRequest, hbatch, ne_eq, not_true_eq_false, if_false, decide_true, hcheck', if_true, ha,
    acceptedReply]

theorem serve_revert_staged {s : State} {r : Request} {x : Session} {o : Obj} {eff : Nat} {found : Findings} (hasked : askedBy s 3 r x)
    (hbatch : r.batch = 0) (hcheck : checkWrite (inUse s x) x r true false = .ok o) (haccess : o.access = 3)
    (hstep : stagedStep (inUse s x) r.applyAt = .ok eff) :
    serve found 3 r s = .next (noteChanges s (replied
      (stagedWith (counted (inUse s x)) ⟨s.dict.ordinal + 1, r.applyAt, o.key, 0, startData (inUse s x) o, 9⟩) r
      (acceptedReply 3 r eff (s.dict.ordinal + 1)))) := by
  have hreset := resetAsked_none (objFind_of_checkWrite hcheck) (by omega) (by omega) 0 (startData (inUse s x) o) 9
  have ha := perform_revert_accepted hasked hbatch hcheck
    (acceptWrites_staged (found := found) (w := ⟨o, 0, startData (inUse s x) o, 9⟩) haccess hstep)
  rw [hreset, ordinal_inUse] at ha
  exact serve_accepted hasked ha

/-! ## upload_target (R351) -/

/-- upload_target is an RW object, and its table entry bears its own key. -/
theorem objFind_uploadTarget {o : Obj} (h : objFind 0x180201 = some o) : o.key = 0x180201 ∧ o.access = 2 := by
  have hentry : (objFind 0x180201).all (fun o => decide (o.key = 0x180201 ∧ o.access = 2)) = true := by decide +kernel
  rw [h] at hentry
  exact of_decide_eq_true hentry

end Sys2Proof.Machine

namespace Sys2Proof.Proofs

open Sys2Proof Sys2Proof.Machine

/-- Settles O37: an RW write takes effect, an RWS write or REVERT joins the staged set, and each is answered with its ordinal. -/
theorem settingsTakeEffectOrStage : Obligations.SettingsTakeEffectOrStage := by
  refine ⟨?rows, ?stored, fun s r x o eff => serve_write_staged, fun s r x o eff => serve_revert_staged, ?target⟩
  case rows =>
    suffices hrows : ∀ row ∈ _, isWriteOf row from fun row hrow s r x o hr _ => (hrows row hrow r s).trans (if_pos hr)
    simp only [isWriteOf, List.forall_mem_cons, List.not_mem_nil, false_implies, implies_true, and_true]
    exact ⟨fun _ _ => rfl, fun _ _ => rfl, fun _ _ => rfl⟩
  case stored =>
    intro s r x o h haccess htyped s1 values entries hcheck
    have htest : o.key ≠ 0x701001 := fun hkey => by rw [hkey] at htyped; exact nomatch htyped
    exact serve_write_rw h haccess htest (rwWrite_stored htyped hcheck)
  case target =>
    intro s r x o hr h
    obtain ⟨hkey, haccess⟩ := objFind_uploadTarget (hr ▸ objFind_of_writes h)
    have htest : o.key ≠ 0x701001 := by rw [hkey]; decide
    exact (if_pos hr).trans (serve_write_rw h haccess htest (rwWrite_uploadTarget hkey))

end Sys2Proof.Proofs
end

section
/-! Front-end links, pauses, rates and retries, and what a connection loses when it enters error: alone, or with every ready connection
of a port that is reset (R252 to R254, R272, R273, R327). -/

namespace Sys2Proof.Machine

open Sys2Proof

/-! ## Connections -/

/-- A connection that is not in reset is listed with what changed it; what other connections read stays, whatever the table. -/
theorem connOf_onConn {s : State} {d : Nat} {f : Conn → Conn} (hstate : (f (connOf s d)).state ≠ 0) (c : Nat) :
    connOf (onConn s d f) c = if c = d then f (connOf s c) else connOf s c := by
  have hvalue : f (tabGet Conn.reset s.front.conns d) ≠ Conn.reset := fun h => hstate (congrArg Conn.state h)
  split
  · next h => subst h; exact tabGet_modify_value _ _ hvalue
  · next h =>
    have hinsert : (onConn s d f).front.conns = tabInsert s.front.conns d (f (connOf s d)) := if_neg hvalue
    rw [connOf, hinsert]
    exact tabGet_insert_other _ _ _ h

/-! ## Connections in error (R254, R272) -/

theorem raise_front (s : State) (c : Code) (a : Nat) : (raise s c a).front = s.front := by
  obtain ⟨b, d, h⟩ := raise_frame s c a
  rw [h]

/-- Counting the bytes that were not delivered changes no connection. -/
theorem stopExports_conns (s : State) (c : Nat) (error : Bool) : (stopExports s c error).front.conns = s.front.conns := by
  unfold stopExports
  split
  · rfl
  · split
    · rw [raise_front]; rfl
    · rfl

/-- A connection once it has entered error, if it was ready. -/
def errored (x : Conn) : Conn := if x.state = 1 then { x with state := 2, held := [], retriesUsed := 0 } else x

theorem errored_ready {x : Conn} (h : x.state = 1) : errored x = { x with state := 2, held := [], retriesUsed := 0 } := if_pos h

theorem errored_other {x : Conn} (h : x.state ≠ 1) : errored x = x := if_neg h

@[simp] theorem errored_errored (x : Conn) : errored (errored x) = errored x := by
  refine errored_other ?_
  unfold errored
  split
  · exact Nat.succ_ne_self 1
  · assumption

/-- Only the connection itself enters error. -/
theorem connOf_connError (s : State) (d c : Nat) : connOf (connError s d) c = if c = d then errored (connOf s c) else connOf s c := by
  unfold connError
  by_cases hready : (connOf s d).state = 1
  · rw [if_neg (not_not.mpr hready), connOf, stopExports_conns]
    refine (connOf_onConn (s := dropOutputs s d) (Nat.succ_ne_zero 1) c).trans ?_
    split
    · next h => subst h; exact (errored_ready hready).symm
    · rfl
  · rw [if_pos hready]
    split
    · next h => subst h; exact (errored_other hready).symm
    · rfl

theorem connOf_foldl_connError (s : State) (l : List Nat) (c : Nat) :
    connOf (l.foldl connError s) c = if c ∈ l then errored (connOf s c) else connOf s c := by
  induction l generalizing s with
  | nil => rfl
  | cons d l ih =>
    rw [List.foldl_cons, ih, connOf_connError]
    by_cases hd : c = d <;> by_cases hl : c ∈ l <;> simp [hd, hl]

theorem connPort_of_mem_readyConns {s : State} {p c : Nat} (h : c ∈ readyConns s p) : connPort s c = p := by
  obtain ⟨e, he, rfl⟩ := List.mem_map.mp h
  obtain ⟨-, -, hport⟩ := by simpa using he
  exact hport

theorem mem_readyConns {s : State} {c : Nat} (h : (connOf s c).state = 1) : c ∈ readyConns s (connPort s c) := by
  cases hfind : tabFind s.front.conns c with
  | none => rw [connOf, tabGet, hfind] at h; exact nomatch h
  | some x =>
    have hx : connOf s c = x := by rw [connOf, tabGet, hfind, Option.getD_some]
    exact List.mem_map.mpr ⟨(c, x), List.mem_filter.mpr ⟨mem_of_tabFind hfind, decide_eq_true ⟨hx ▸ h, rfl⟩⟩, rfl⟩

/-- The connections of the port enter error, and no other. -/
theorem connOf_portError (s : State) (p c : Nat) :
    connOf (portError s p) c = if connPort s c = p then errored (connOf s c) else connOf s c := by
  rw [portError, connOf_foldl_connError]
  by_cases hlist : c ∈ readyConns s p
  · rw [if_pos hlist, if_pos (connPort_of_mem_readyConns hlist)]
  · rw [if_neg hlist]
    split
    · next hport => exact (errored_other fun hready => hlist (hport ▸ mem_readyConns hready)).symm
    · rfl

/-! ## What connections in error leave (R273) -/

/-- Ports, queues, configuration, memory, start-up's phase and reset record, the stack, the step and the fabric. -/
def besideConns (s : State) : (Tab Nat × Tab Queue) × Tab Byte × Memory × (Nat × ResetRecord) × Stack × Training × Fabric :=
  ((s.front.portUp, s.front.queues), s.dict.values, s.mem, (s.boot.phase, s.boot.lastReset), s.stack, s.train, s.fabric)

theorem besideConns_logEvent (s : State) (c : Code) (a : Nat) : besideConns (logEvent s c a) = besideConns s := by
  unfold logEvent
  dsimp only
  split
  · split <;> rfl
  · rfl

theorem besideConns_raise (s : State) (c : Code) (a : Nat) : besideConns (raise s c a) = besideConns s := by
  unfold raise
  split
  · rfl
  · exact besideConns_logEvent s c a

theorem besideConns_connError (s : State) (c : Nat) : besideConns (connError s c) = besideConns s := by
  have hstop : ∀ t, besideConns (stopExports t c true) = besideConns t := fun t => by
    unfold stopExports
    split
    · rfl
    · exact besideConns_raise _ _ _
  unfold connError
  split
  · rfl
  · exact hstop _

theorem besideConns_portError (s : State) (p : Nat) : besideConns (portError s p) = besideConns s := by
  unfold portError
  generalize readyConns s p = l
  induction l generalizing s with
  | nil => rfl
  | cons c l ih => exact (ih _).trans (besideConns_connError s c)

/-! ## fe_port_reset (R273) -/

/-- What a write's server does around its action leaves connections, and all that is beside them. -/
theorem connOf_acts (s t : State) (r : Request) (c : Nat) : connOf (acts s t r) c = connOf t c := by
  rw [connOf, acts, noteChanges_front]
  rfl

theorem besideConns_acts (s t : State) (r : Request) : besideConns (acts s t r) = besideConns t := by
  simp only [besideConns, acts, noteChanges_front, noteChanges_values, noteChanges_mem, noteChanges_boot, noteChanges_stack,
    noteChanges_train, noteChanges_fabric]
  rfl

theorem inUse_eq (s : State) (x : Session) : ∃ l, inUse s x = s.onDict (fun d => { d with sessions := l }) := by
  unfold inUse performKept.touch
  split
  · exact ⟨s.dict.sessions, rfl⟩
  · exact ⟨_, rfl⟩

/-- The keys of a table whose list of keys is increasing rise. -/
theorem tabRising_of_pairwise {α : Type} {t : Tab α} (h : t.Pairwise (fun a b => a.1 < b.1)) : tabRising none t = true := by
  induction t with
  | nil => rfl
  | cons e t ih =>
    obtain ⟨hfirst, hrest⟩ := List.pairwise_cons.mp h
    cases t with
    | nil => rfl
    | cons e' t =>
      have hlt : e.1 < e'.1 := hfirst e' List.mem_cons_self
      simp only [tabRising, hlt, decide_true, Bool.true_and]
      exact ih hrest

/-! ## Pauses (R252) -/

theorem foldl_emit (s : State) (l : List Output) : l.foldl emit s = { s with out := s.out ++ l } := by
  induction l generalizing s with
  | nil => simp
  | cons o l ih => simp [ih, emit]

section
variable {s : State} {p pri quanta : Nat} (henabled : bitAt (cfgElem s 0x580006 p) 7 = true) (hpri : cfgElem s 0x580006 p % 8 = pri)
include henabled hpri

theorem exec_pauseFrame (hquanta : quanta ≠ 0) :
    exec (.priorityFlowControlFrame p pri quanta) s = .next (noteChanges s (s.onFront (fun f => { f with paused := setAdd f.paused p }))) :=
  (if_neg (by simp [henabled, hpri])).trans (if_neg hquanta)

theorem exec_pauseFrame_resumes : exec (.priorityFlowControlFrame p pri 0) s = .next (noteChanges s (resumePort s p)) :=
  (if_neg (by simp [henabled, hpri])).trans (if_pos rfl)

end

/-- What waited is sent in order, and the connections stay. -/
theorem resumePort_eq (s : State) (p : Nat) :
    resumePort s p =
      { s.onFront (fun f => { f with paused := setRemove f.paused p, heldOut := f.heldOut.filter (fun x => !(x.1 == p)) }) with
        out := s.out ++ (s.front.heldOut.filter (fun x => x.1 == p)).map (fun x => x.2) } :=
  foldl_emit _ _

/-! ## Neighbours (R253, R327) -/

theorem exec_neighborRequest_own {s : State} {p : Nat} {ipv6 : Bool} {addr : BitVec 128} (haddr : addr ≠ 0)
    (hown : (portAddresses s p ipv6).1.contains addr.toNat = true) :
    exec (.neighborRequest p ipv6 addr) s = .next (noteChanges s (emit s (.neighborReply p (portAddresses s p ipv6).2))) :=
  if_pos ⟨haddr, hown⟩

theorem exec_neighborRequest_zero (s : State) (p : Nat) (ipv6 : Bool) : exec (.neighborRequest p ipv6 0) s = .next s := by
  show execNeighborRequest p ipv6 0 s = _
  simp only [execNeighborRequest, ne_eq, not_true_eq_false, false_and, if_false]

/-! ## Congestion and retries (R253, R254) -/

section
variable {s : State} {c : Nat} (hready : (connOf s c).state = 1)
include hready

theorem exec_cnpReceive_ready :
    let s1 := s.onFront (fun f => { f with cnpsReceived := tabCount f.cnpsReceived (connPort s c) 1 })
    exec (.cnpReceive c) s = .next (noteChanges s (onConn s1 c (fun x => { x with rateMbps := max 1000 (x.rateMbps / 2) }))) :=
  if_neg (not_not.mpr hready)

theorem exec_egressRateRise_ready :
    exec (.egressRateRise c) s = .next (noteChanges s (onConn s c (fun x => { x with
      rateMbps := min (lineRate s c) (x.rateMbps + lineRate s c / 20) }))) :=
  if_neg (not_not.mpr hready)

theorem exec_retryTimeout_again {x : Export} (hact : activeExport s c = some x)
    (hleft : (connOf s c).retriesUsed < bitsAt (cfgElem s 0x580201 c) 325 3) :
    exec (.transportRetryTimeout c) s =
      .next (noteChanges s (exportSend (onConn s c (fun y => { y with retriesUsed := y.retriesUsed + 1 })) x).1) := by
  show execTransportRetryTimeout c s = _
  simp only [execTransportRetryTimeout, hact]
  exact (if_neg (not_not.mpr hready)).trans (if_neg (Nat.not_le_of_lt hleft))

theorem exec_retryTimeout_exhausted {x : Export} (hact : activeExport s c = some x)
    (hspent : bitsAt (cfgElem s 0x580201 c) 325 3 ≤ (connOf s c).retriesUsed) :
    exec (.transportRetryTimeout c) s = .next (noteChanges s (connError s c)) := by
  show execTransportRetryTimeout c s = _
  simp only [execTransportRetryTimeout, hact]
  exact (if_neg (not_not.mpr hready)).trans (if_pos hspent)

end

end Sys2Proof.Machine

namespace Sys2Proof.Proofs

open Sys2Proof Sys2Proof.Machine

/-- A write of a port number to fe_port_reset resets that port. -/
theorem exec_fePortReset {s : State} {r : Request} {x : Session} {o : Obj} (hr : r.index * 256 + r.sub = 0x580007) (h : writes s r x o)
    (hport : natOfBytes r.data < 2) :
    exec (.fePortReset r) s = .next (acts s (resetFePort (counted (inUse s x)) (natOfBytes r.data)) r) :=
  (valueWritesAct.1 _ (List.mem_of_getElem? (i := 5) rfl) s r x o hr h).1 _ (if_neg (Nat.not_lt_of_le (Nat.le_of_lt_succ hport)))

/-- Settles O59: the connections of the port enter error one by one, and what they leave is what the port's own reset left. -/
theorem portResetTouchesOnePort : Obligations.PortResetTouchesOnePort := by
  rintro s r x o p hr h rfl hp
  obtain ⟨l, huse⟩ := inUse_eq s x
  refine ⟨_, exec_fePortReset hr h hp, ?_⟩
  generalize natOfBytes r.data = p
  have hconn : ∀ c, connOf (acts s (resetFePort (counted (inUse s x)) p) r) c =
      if connPort s c = p then errored (connOf s c) else connOf s c := fun c => by
    rw [connOf_acts, resetFePort, connOf_portError, huse]
    rfl
  have hbeside := (besideConns_acts s (resetFePort (counted (inUse s x)) p) r).trans (besideConns_portError _ p)
  rw [huse] at hbeside hconn ⊢
  simp only [besideConns, Prod.mk.injEq] at hbeside
  obtain ⟨⟨hup, hqueues⟩, hvalues, hmem, ⟨hphase, hreset⟩, hstack, htrain, hfabric⟩ := hbeside
  refine ⟨hup, fun hrise => ?_, fun c hready hport => ?_, fun c hother => ?_, hqueues, hvalues, hmem, hphase, hreset, hstack, htrain, hfabric⟩
  · rw [hup]
    exact tabGet_set_self (tabRising_of_pairwise hrise) p 0
  · rw [hconn, if_pos hport, errored_ready hready]
  · rw [hconn]
    split
    · next hport => exact errored_other (hother.resolve_right (not_not.mpr hport))
    · rfl

/-- Settles O42: each command of the links and of congestion by its own condition. -/
theorem linksPausesRatesAndRetries : Obligations.LinksPausesRatesAndRetries := by
  refine ⟨⟨fun _ _ => rfl, fun _ _ hmode => if_neg hmode, fun _ _ hoff => if_pos hoff, fun _ _ _ _ => exec_pauseFrame, ?resumed,
    fun _ _ _ _ => exec_neighborRequest_own, exec_neighborRequest_zero⟩, fun _ _ => exec_cnpReceive_ready,
    fun _ _ => exec_egressRateRise_ready, fun _ _ hother => ⟨if_pos hother, if_pos hother⟩,
    fun _ _ _ hact hready => ⟨exec_retryTimeout_again hready hact, exec_retryTimeout_exhausted hready hact⟩, ?error⟩
  case resumed =>
    intro s p pri henabled hpri
    refine ⟨_, exec_pauseFrame_resumes henabled hpri, ?_⟩
    rw [resumePort_eq, noteChanges_front, noteChanges_out]
    exact ⟨rfl, rfl, rfl⟩
  case error =>
    intro s c hready
    rw [connOf_connError, if_pos rfl, errored_ready hready]
    exact ⟨rfl, rfl⟩

end Sys2Proof.Proofs
end

section
/-! RDMA writes and reads: the check, the answer, the doorbell pages, the status mirror, and a flush read that is served (R253, R256 to
R259). -/

namespace Sys2Proof.Machine

open Sys2Proof

/-! ## Writes (R256 to R258, R262) -/

/-- An RDMA write that is allowed, counted and acknowledged. -/
def writeTaken (s : State) (conn : Nat) (ce : Bool) (n : Nat) : State :=
  sendOn ((noteCe s conn ce).onFront (fun f => { f with writeBytes := tabCount f.writeBytes (connPort s conn) n })) conn (.rdmaAck conn)

section
variable {s : State} {conn : Nat} {rkey : BitVec 32} {addr : BitVec 64} {l : List Byte} (ce : Bool) (hready : (connOf s conn).state = 1)
include hready

theorem exec_rdmaWrite_refused {code : Code} (hcode : requestCode s conn rkey.toNat addr.toNat l.length true = some code) :
    exec (.rdmaWrite ⟨conn, ce⟩ rkey addr l) s = .next (noteChanges s (sendNak (noteCe s conn ce) conn false code)) := by
  show execRdmaWrite ⟨conn, ce⟩ rkey addr l s = _
  simp only [execRdmaWrite, hready, ne_eq, not_true_eq_false, if_false, hcode, done]

variable (hcode : requestCode s conn rkey.toNat addr.toNat l.length true = none)
include hcode

theorem exec_rdmaWrite_doorbell (hkey : rkey = 1) :
    exec (.rdmaWrite ⟨conn, ce⟩ rkey addr l) s =
      .next (noteChanges s (writeDoorbell (writeTaken s conn ce l.length) conn addr.toNat l)) := by
  show execRdmaWrite ⟨conn, ce⟩ rkey addr l s = _
  simp only [execRdmaWrite, hready, ne_eq, not_true_eq_false, if_false, hcode, if_pos hkey, done, writeTaken]

theorem exec_rdmaWrite_waits (hkey : rkey ≠ 1) (hbytes : l ≠ []) :
    exec (.rdmaWrite ⟨conn, ce⟩ rkey addr l) s = .next (noteChanges s
      (onConn (writeTaken s conn ce l.length) conn (fun c => { c with unseen := c.unseen ++ [⟨addr.toNat, l⟩] }))) := by
  show execRdmaWrite ⟨conn, ce⟩ rkey addr l s = _
  simp only [execRdmaWrite, hready, ne_eq, not_true_eq_false, if_false, hcode, if_neg hkey, if_neg hbytes, done, writeTaken]

end

/-- The first word of queue `q`'s doorbell page. -/
theorem doorbellPage_toNat {q : Nat} (hq : q < 64) : (BitVec.ofNat 64 (doorbellBase + 4096 * q)).toNat = doorbellBase + 4096 * q := by
  rw [BitVec.toNat_ofNat, doorbellBase]
  omega

/-- Every connection may write the doorbell pages (R262). -/
theorem requestCode_doorbell (s : State) (conn : Nat) {a len : Nat} (hlow : doorbellBase ≤ a) (hhigh : a + len ≤ 0x030000040000) :
    requestCode s conn 1 a len true = none := by
  have hin : ¬ (a < doorbellBase ∨ 0x030000040000 < a + len) := by omega
  simp [requestCode, hin]

/-- A post_count of 32 bits in queue `q`'s page waits for its ordinal (R262). -/
theorem writeDoorbell_postCount (s : State) (conn q : Nat) {l : List Byte} (hlen : l.length = 8) (hvalue : natOfBytes l < 2 ^ 32) :
    writeDoorbell s conn (doorbellBase + 4096 * q) l =
      onConn s conn (fun c => { c with doorbells := c.doorbells ++ [⟨q, 0, natOfBytes l⟩] }) := by
  have hoff : (doorbellBase + 4096 * q - doorbellBase) % 0x1000 = 0 := by omega
  have hpage : (doorbellBase + 4096 * q - doorbellBase) / 0x1000 = q := by omega
  simp only [writeDoorbell, hlen, hoff, hpage, hvalue, true_or, and_self, if_true]

/-! ## Reads (R256, R259) -/

section
variable {s : State} {conn : Nat} {rkey : BitVec 32} {addr : BitVec 64} {n : Nat} (ce : Bool) (hready : (connOf s conn).state = 1)
include hready

theorem exec_rdmaRead_refused {code : Code} (hcode : requestCode s conn rkey.toNat addr.toNat n false = some code) :
    exec (.rdmaRead ⟨conn, ce⟩ rkey addr n) s = .next (noteChanges s (sendNak (noteCe s conn ce) conn false code)) := by
  show execRdmaRead ⟨conn, ce⟩ rkey addr n s = _
  simp only [execRdmaRead, hready, ne_eq, not_true_eq_false, if_false, hcode, done]

variable (hcode : requestCode s conn rkey.toNat addr.toNat n false = none) (hlength : n ≠ 0)
include hcode hlength

theorem exec_rdmaRead_mirror (hkey : rkey = 2) :
    exec (.rdmaRead ⟨conn, ce⟩ rkey addr n) s = .next (noteChanges s (serveRead (noteCe s conn ce) conn addr.toNat n).1) := by
  show execRdmaRead ⟨conn, ce⟩ rkey addr n s = _
  simp only [execRdmaRead, hready, ne_eq, not_true_eq_false, if_false, hcode, if_neg hlength, if_pos hkey, done]

theorem exec_rdmaRead_held (hkey : rkey ≠ 2) :
    exec (.rdmaRead ⟨conn, ce⟩ rkey addr n) s = .next (noteChanges s (onConn (noteCe s conn ce) conn (fun c => { c with
      held := c.held ++ [⟨addr.toNat, n, c.unseen.length, c.doorbells.length, c.mergeFailed⟩]
      mergeFailed := false }))) := by
  show execRdmaRead ⟨conn, ce⟩ rkey addr n s = _
  simp only [execRdmaRead, hready, ne_eq, not_true_eq_false, if_false, hcode, if_neg hlength, if_neg hkey, done]

end

/-- Every connection may read the status mirror (R259, R269). -/
theorem requestCode_mirror (s : State) (conn : Nat) {a len : Nat} (hlow : mirrorBase ≤ a) (hhigh : a + len ≤ 0x030011000000) :
    requestCode s conn 2 a len false = none := by
  have hin : ¬ (a < mirrorBase ∨ 0x030011000000 < a + len) := by omega
  simp [requestCode, hin]

theorem regionOf_mirror {a : Nat} (hlow : mirrorBase ≤ a) (hhigh : a < 0x030011000000) : regionOf a = some .mirror := by
  have hin : mirrorBase ≤ a ∧ a < 0x030011000000 := ⟨hlow, hhigh⟩
  have hbelow : ¬ a < hbmEnd ∧ ¬ a < 0x010280000000 ∧ ¬ a < 0x020030000000 ∧ ¬ a < 0x030000040000 := by
    simp only [mirrorBase, hbmEnd] at hlow ⊢
    omega
  obtain ⟨hhbm, hpinned, hstore, hdoorbell⟩ := hbelow
  simp only [regionOf, if_neg hhbm, hpinned, hstore, hdoorbell, and_false, if_false, if_pos hin]

/-- The status mirror is answered with the bytes that it has, counted at the connection's port. -/
theorem serveRead_mirror (s : State) (conn : Nat) {a : Nat} (len : Nat) (h : regionOf a = some .mirror) :
    serveRead s conn a len =
      (sendOn (s.onFront (fun f => { f with readBytes := tabCount f.readBytes (connPort s conn) len })) conn
        (.rdmaData conn ((List.range len).map (fun i => mirrorByte s (a - mirrorBase + i)))), false) :=
  if_pos h

/-! ## FLUSH_READ_RELEASE (R257, R259) -/

/-- Once the writes before it stand and the doorbells before it have acted, a flush read is served and leaves its connection. -/
theorem exec_flushReadRelease_served {s s1 s3 : State} {conn : Nat} {h : HeldRead} {rest : List HeldRead}
    (hheld : (connOf s conn).held = h :: rest) (hready : (connOf s conn).state = 1) (hplaced : placeAll h.writes s conn = (s1, true))
    (hmerged : ((connOf (takeDoorbells h.doorbells s1 conn) conn).held.head?.map (fun x => x.failed)).getD false = false)
    (hserved : serveRead (takeDoorbells h.doorbells s1 conn) conn h.addr h.length = (s3, false)) :
    exec (.flushReadRelease conn) s = .next (noteChanges s
      ((onConn s3 conn (fun c => { c with held := c.held.drop 1 })).onFront (fun f => { f with flushReads := f.flushReads + 1 }))) := by
  show execFlushReadRelease conn s = _
  simp only [execFlushReadRelease, hheld, hready, hplaced, hserved, ne_eq, not_true_eq_false, if_false, Bool.true_eq_false,
    Bool.false_eq_true, done]
  cases hlist : (connOf (takeDoorbells h.doorbells s1 conn) conn).held <;> rw [hlist] at hmerged <;>
    exact if_neg (Bool.eq_false_iff.mp hmerged)

end Sys2Proof.Machine

namespace Sys2Proof.Proofs

open Sys2Proof Sys2Proof.Machine

/-- Settles O43: every request by the outcome of its check, and then by where its address lies. -/
theorem rdmaRequestsCheckedThenAnswered : Obligations.RdmaRequestsCheckedThenAnswered := by
  refine ⟨fun _ _ _ _ _ ce _ hready => exec_rdmaWrite_refused ce hready, fun _ _ _ _ _ ce _ hready => exec_rdmaRead_refused ce hready,
    fun _ _ _ _ _ ce hready hkey hbytes hcode => exec_rdmaWrite_waits ce hready hcode hkey hbytes, ?doorbell,
    fun _ _ _ _ _ ce hready hkey hlength hcode => exec_rdmaRead_held ce hready hcode hlength hkey, ?mirror,
    fun _ _ _ _ _ _ => exec_flushReadRelease_served⟩
  case doorbell =>
    intro s conn q l ce hready hq hlen hvalue
    have hpage := doorbellPage_toNat hq
    have hcode : requestCode s conn (1 : BitVec 32).toNat (BitVec.ofNat 64 (doorbellBase + 4096 * q)).toNat l.length true = none := by
      rw [hpage, hlen]
      exact requestCode_doorbell s conn (Nat.le_add_right _ _) (by simp only [doorbellBase]; omega)
    rw [exec_rdmaWrite_doorbell ce hready hcode rfl, hpage, writeDoorbell_postCount _ _ _ hlen hvalue, hlen]
    rfl
  case mirror =>
    intro s conn addr n ce hready hlow hhigh hpos
    have hcode : requestCode s conn (2 : BitVec 32).toNat addr.toNat n false = none := requestCode_mirror s conn hlow hhigh
    rw [exec_rdmaRead_mirror ce hready hcode (Nat.ne_of_gt hpos) rfl, serveRead_mirror _ _ _ (regionOf_mirror hlow (by omega))]

end Sys2Proof.Proofs
end

section
/-! Doorbells and the reads of pending entries (R262, R263). -/

namespace Sys2Proof.Machine

open Sys2Proof

/-! ## Doorbells (R262) -/

/-- A queue that is not disabled is listed with what changed it, whatever the table. -/
theorem queueOf_onQueue {s : State} {q : Nat} {f : Queue → Queue} (hstate : (f (queueOf s q)).state ≠ 0) :
    queueOf (onQueue s q f) q = f (queueOf s q) :=
  tabGet_modify_value _ _ fun h => hstate (congrArg Queue.state h)

/-- The oldest doorbell write of a connection has taken ordinal `n`. -/
def doorbellTaken (s : State) (c n : Nat) : State :=
  onConn (s.onFront (fun f => { f with doorbellOrdinal := n })) c (fun x => { x with
    doorbells := x.doorbells.drop 1
    held := x.held.map (fun h => { h with doorbells := h.doorbells - 1 }) })

section
variable {s : State} {c : Nat} {d : Doorbell} {rest : List Doorbell} (hnext : (connOf s c).doorbells = d :: rest)
include hnext

theorem takeDoorbell_next :
    takeDoorbell s c =
      let n := s.front.doorbellOrdinal + 1
      if d.offset = 0 then postCount (doorbellTaken s c n) d.queue d.value n
      else consumeCount (doorbellTaken s c n) d.queue d.value := by
  rw [takeDoorbell, hnext]
  rfl

theorem exec_postCount_next (hoff : d.offset = 0) :
    let n := s.front.doorbellOrdinal + 1
    exec (.postCount c) s = .next (noteChanges s (postCount (doorbellTaken s c n) d.queue d.value n)) := by
  show execPostCount c s = _
  simp only [execPostCount, takeDoorbell_next hnext, hnext, hoff, if_true, done]

theorem exec_cqConsumed_next (hoff : d.offset = 8) :
    let n := s.front.doorbellOrdinal + 1
    exec (.cqConsumed c) s = .next (noteChanges s (consumeCount (doorbellTaken s c n) d.queue d.value)) := by
  show execCqConsumed c s = _
  simp only [execCqConsumed, takeDoorbell_next hnext, hnext, hoff, Nat.reduceEqDiff, if_true, if_false, done]

end

/-! ## post_count and cq_consumed (R262, R263) -/

section
variable {s : State} {q : Nat} (henabled : (queueOf s q).state = 1)

theorem postCount_same {p : Nat} (n : Nat) (hsame : seqDistance p (queueOf s q).posted = 0) : postCount s q p n = s :=
  if_pos (.inr (.inl hsame))

include henabled

theorem postCount_overflow {p : Nat} (n : Nat) (hpos : 0 < seqDistance p (queueOf s q).posted)
    (hahead : seqDistance p (queueOf s q).posted < 2 ^ 31) (hfull : (queueRecord s q).size < seqDistance p (queueOf s q).consumed) :
    postCount s q p n = faultQueue s q 0x040D0A02 p :=
  (if_neg (by omega)).trans (if_pos hfull)

/-- The entries between the posted count and the new one become pending, in order, with the doorbell's ordinal. -/
theorem queueOf_postCount {p : Nat} (n : Nat) (hpos : 0 < seqDistance p (queueOf s q).posted)
    (hahead : seqDistance p (queueOf s q).posted < 2 ^ 31) (hroom : seqDistance p (queueOf s q).consumed ≤ (queueRecord s q).size) :
    queueOf (postCount s q p n) q = { queueOf s q with
      posted := p
      pending := (queueOf s q).pending ++
        (List.range (seqDistance p (queueOf s q).posted)).map (fun i => ⟨((queueOf s q).posted + i) % 2 ^ 32, n, 0, false⟩) } := by
  unfold postCount
  dsimp only
  rw [if_neg (by omega), if_neg (Nat.not_lt_of_le hroom)]
  exact queueOf_onQueue (by simp [henabled])

theorem queueOf_consumeCount {c : Nat}
    (hreleased : seqDistance c (queueOf s q).consumed ≤ seqDistance (queueOf s q).released (queueOf s q).consumed) :
    queueOf (consumeCount s q c) q = { queueOf s q with consumed := c } := by
  unfold consumeCount
  dsimp only
  rw [if_neg (not_not.mpr henabled), if_neg (Nat.not_lt_of_le hreleased)]
  exact queueOf_onQueue (by simp [henabled])

theorem consumeCount_unreleased {c : Nat}
    (hahead : seqDistance (queueOf s q).released (queueOf s q).consumed < seqDistance c (queueOf s q).consumed) :
    consumeCount s q c = faultQueue s q 0x040D0A03 c :=
  (if_neg (not_not.mpr henabled)).trans (if_pos hahead)

end

/-! ## Reading a pending entry (R263) -/

/-- The first read of a pending entry, or the next one after a mismatch, whose row counts it. -/
theorem exec_entryRead {s : State} {q : Nat} {p : Pending} {rest : List Pending} (hpending : (queueOf s q).pending = p :: rest)
    (hkept : p.reads = 0 → p.second = false → (queueOf s q).kept.contains p.seq = false) :
    exec (if p.reads = 0 then .entryRead q else .entryReread q) s = .next (noteChanges s
      (readEntry (if p.reads = 0 then s else s.onFront (fun f => { f with rereads := tabCount f.rereads q 1 })) q p)) := by
  by_cases hfirst : p.reads = 0
  · have hfree : ¬ (p.reads ≠ 0 ∨ p.second = false ∧ (queueOf s q).kept.contains p.seq = true) := by
      rintro (h | ⟨hsecond, hin⟩)
      · exact h hfirst
      · exact Bool.false_ne_true ((hkept hfirst hsecond).symm.trans hin)
    rw [if_pos hfirst, if_pos hfirst]
    show execEntryRead q s = _
    simp only [execEntryRead, hpending, if_neg hfree, done]
  · rw [if_neg hfirst, if_neg hfirst]
    show execEntryReread q s = _
    simp only [execEntryReread, hpending, if_neg hfirst, done]

section
variable {s s1 : State} {q v : Nat} {p : Pending}
  (hread : readRecord s ((queueRecord s q).ring + 128 * (p.seq % (queueRecord s q).size)) 128 = (.ok v, s1))
include hread

theorem readEntry_accepted (htag : bitsAt v 0 16 = expectedTag (queueRecord s q) p.seq) : readEntry s q p = acceptEntry s1 q p v := by
  simp only [readEntry, hread, if_pos htag]

theorem readEntry_mismatch (htag : bitsAt v 0 16 ≠ expectedTag (queueRecord s q) p.seq) :
    readEntry s q p = readEntry.mismatch q p s1 := by
  simp only [readEntry, hread, if_neg htag]

end

/-- A mismatch of a first reading: the entry is read again, up to 64 reads. -/
theorem mismatch_first (s : State) (q : Nat) {p : Pending} (hsecond : p.second = false) :
    readEntry.mismatch q p s =
      if 64 ≤ p.reads + 1 then faultQueue s q 0x040D0A01 p.seq
      else onQueue s q (fun x => { x with pending := { p with reads := p.reads + 1 } :: x.pending.drop 1 }) :=
  if_neg (by rw [hsecond]; exact Bool.false_ne_true)

/-- Counting a read changes no queue's record. -/
theorem queueRecord_counted (s : State) (q : Nat) (b : Prop) [Decidable b] (f : FrontEnd → FrontEnd) :
    queueRecord (if b then s else s.onFront f) q = queueRecord s q := by
  split <;> rfl

end Sys2Proof.Machine

namespace Sys2Proof.Proofs

open Sys2Proof Sys2Proof.Machine

/-- Settles O44: a doorbell by its offset and its count, a pending entry by the tag that was read and how often. -/
theorem doorbellsAndEntryReads : Obligations.DoorbellsAndEntryReads := by
  refine ⟨fun _ _ _ _ hnext => ⟨exec_postCount_next hnext, exec_cqConsumed_next hnext⟩, ?post,
    fun _ _ _ henabled => ⟨queueOf_consumeCount henabled, consumeCount_unreleased henabled⟩, ?read⟩
  case post =>
    intro s q p n henabled
    refine ⟨postCount_same n, fun hpos hahead hroom => ?_, postCount_overflow henabled n⟩
    rw [queueOf_postCount henabled n hpos hahead hroom]
    refine ⟨rfl, by simp, fun i hi => ?_⟩
    simp [hi]
  case read =>
    intro s s1 q v p rest hpending t row hkept hread
    have hrow : exec row s = .next (noteChanges s (readEntry t q p)) := exec_entryRead hpending hkept
    have hrecord : queueRecord t q = queueRecord s q := queueRecord_counted s q _ _
    clear_value t row
    rw [← hrecord] at hread ⊢
    refine ⟨fun htag => ?_, fun htag hsecond hleft => ?_, fun htag hsecond hlast => ?_⟩
    · rw [hrow, readEntry_accepted hread htag]
    · rw [hrow, readEntry_mismatch hread htag, mismatch_first _ _ hsecond, if_neg (by omega)]
    · rw [hrow, readEntry_mismatch hread htag, mismatch_first _ _ hsecond, if_pos (by omega)]

end Sys2Proof.Proofs
end

section
/-! MIRROR records at the buddy and the packets about them (R282, R286, R300), and the requests for single lines and their replies (R200,
R298). -/

namespace Sys2Proof.Machine

open Sys2Proof

/-! ## Payloads made of words (Table 13.5) -/

theorem natOfBytes_append (l m : List Byte) : natOfBytes (l ++ m) = natOfBytes l + 2 ^ (8 * l.length) * natOfBytes m := by
  induction l with
  | nil => simp [natOfBytes]
  | cons b l ih =>
    simp only [List.cons_append, natOfBytes, ih, List.length_cons]
    ring

/-- Words of 64 bits one after another, as a control packet's payload holds them. -/
def wordsPayload (words : List Nat) : List Byte := words.flatMap (bytesOfNat 8)

theorem wordsPayload_length (words : List Nat) : (wordsPayload words).length = 8 * words.length := by
  simp [wordsPayload, List.length_flatMap, bytesOfNat_length, mul_comm]

theorem natOfBytes_wordsPayload {words : List Nat} (h : ∀ w ∈ words, w < 2 ^ 64) :
    natOfBytes (wordsPayload words) = packFields 0 (words.map (Prod.mk 64)) := by
  induction words with
  | nil => rfl
  | cons w words ih =>
    obtain ⟨hw, hwords⟩ := List.forall_mem_cons.mp h
    have hhead : natOfBytes (bytesOfNat 8 w) = w := natOfBytes_bytesOfNat hw
    rw [wordsPayload, List.flatMap_cons, natOfBytes_append, hhead, bytesOfNat_length, List.map_cons, packFields_zero_cons, ← ih hwords]
    rfl

/-- The words at the front of a payload are read back. -/
theorem readFields_wordsPayload {words : List Nat} (h : ∀ w ∈ words, w < 2 ^ 64) (l : List Byte) :
    readFields (natOfBytes ((wordsPayload words ++ l).take (8 * words.length))) 0 (words.map (fun _ => 64)) = words := by
  have hfit : fieldsFit (words.map (Prod.mk 64)) := by simpa [fieldsFit] using h
  rw [List.take_left' (wordsPayload_length words), natOfBytes_wordsPayload h]
  simpa using readFields_packFields hfit

theorem bitsAt_narrow {m n : Nat} (v lo : Nat) (h : m ≤ n) : bitsAt v lo m = bitsAt v lo n % 2 ^ m :=
  (Nat.mod_mod_of_dvd _ (Nat.pow_dvd_pow 2 h)).symm

theorem bitsAt_three_words {a b c : Nat} (ha : a < 2 ^ 64) (hb : b < 2 ^ 64) (hc : c < 2 ^ 64) (l : List Byte) :
    let v := natOfBytes ((bytesOfNat 8 a ++ bytesOfNat 8 b ++ bytesOfNat 8 c ++ l).take 24)
    bitsAt v 0 64 = a ∧ bitsAt v 64 64 = b ∧ bitsAt v 128 64 = c := by
  have hwords : ∀ w ∈ [a, b, c], w < 2 ^ 64 :=
    List.forall_mem_cons.mpr ⟨ha, List.forall_mem_cons.mpr ⟨hb, List.forall_mem_singleton.mpr hc⟩⟩
  simpa [readFields, wordsPayload] using readFields_wordsPayload hwords l

theorem bitsAt_two_words {a b : Nat} (ha : a < 2 ^ 64) (hb : b < 2 ^ 64) :
    let v := natOfBytes ((bytesOfNat 8 a ++ bytesOfNat 8 b).take 16)
    bitsAt v 0 64 = a ∧ bitsAt v 64 64 = b := by
  have hwords : ∀ w ∈ [a, b], w < 2 ^ 64 := List.forall_mem_cons.mpr ⟨ha, List.forall_mem_singleton.mpr hb⟩
  simpa [readFields, wordsPayload] using readFields_wordsPayload hwords []

/-! ## Records that arrive (R282, R287) -/

section
variable {s : State} {node : BitVec 24} {l : List (Byte × Bool)}

/-- A record is taken to be held for a client: the node is one already, or there is room and it is no other member of the job. -/
def takesClient (s : State) (node : BitVec 24) : Prop :=
  s.resil.clients.contains node = true ∨ (s.resil.clients.length < 4096 ∧ (jobNodes s).contains node = false)

/-- A record held for a client, in the Acorn area and in the list of records. -/
def heldFor (s : State) (node : BitVec 24) (l : List (Byte × Bool)) : State :=
  let r := (savedFrom node l).1
  (placeIn s .acorn 0x600002 (Config.areaPlace 1 [node.toNat, r.kind, r.group, r.step]) l).onResil (fun x => { x with
    clients := addNode node x.clients
    mirrored := holdRecord x.mirrored r })

theorem takeRecord_bad (hbad : (savedFrom node l).2 = false) (hown : forFill s (savedFrom node l).1 = false) :
    takeRecord s node l = raise s 0x080E0B05 (savedFrom node l).1.group := by
  simp only [takeRecord, hbad, hown, if_true, Bool.false_eq_true, if_false]

variable (hgood : (savedFrom node l).2 = true) (hpaired : s.resil.twinState ≠ 2)
include hgood hpaired

theorem takeRecord_forFill (hown : forFill s (savedFrom node l).1 = true) :
    takeRecord s node l = ackRecord (takeFill s (savedFrom node l).1) node ((l.take 64).map (fun x => x.1)) := by
  simp only [takeRecord, hgood, hpaired, hown, Bool.true_eq_false, if_false, false_and, if_true]

theorem takeRecord_client (hother : forFill s (savedFrom node l).1 = false) (hclient : takesClient s node) :
    takeRecord s node l = ackRecord (heldFor s node l) node ((l.take 64).map (fun x => x.1)) := by
  have htakes : ¬ (s.resil.clients.contains node = false ∧ (4096 ≤ s.resil.clients.length ∨
      (((savedFrom node l).1.kind = 5 ∨ (savedFrom node l).1.kind = 6) ∧ (jobNodes s).contains node = true))) := by
    rcases hclient with hknown | ⟨hroom, houtside⟩
    · simp only [hknown, Bool.true_eq_false, false_and, not_false_eq_true]
    · simp only [houtside, Bool.false_eq_true, and_false, or_false, Nat.not_le_of_lt hroom, not_false_eq_true]
  simp only [takeRecord, hgood, hpaired, hother, Bool.true_eq_false, Bool.false_eq_true, false_and, if_false, if_neg htakes]
  rfl

end

/-! ## The rows of chapter 11's packets -/

/-- The bytes of a MIRROR packet, each marked where its word is poisoned. -/
def recordBytes (p : Packet) : List (Byte × Bool) := p.payload.zipIdx.map (fun x => (x.1, p.poison.contains (x.2 / 8)))

/-- No piece of a record from this node waits any longer for the next. -/
def piecesDone (t : State) (node : BitVec 24) : State :=
  t.onResil (fun r => { r with incoming := r.incoming.filter (fun x => decide (x.1 ≠ node)) })

section
variable {s t : State} {p : Packet} (hrail : huskStopped s = false)
include hrail

/-- A MIRROR packet that holds a whole record, and no packet of a twin's, brings that record (log entries 11 and 12). -/
theorem exec_mirror_whole (htake : takePacket s 0xA p = some t) (hshort : p.payload.length < 4096) (hfirst : p.elemOffset = 0)
    (hkind : natOfBytes (p.payload.take 1) < 16) :
    exec (.mirror p) s = .next (noteChanges s (takeRecord (piecesDone t p.src) p.src (recordBytes p))) := by
  have hrecord : ¬ 0x10 ≤ natOfBytes (p.payload.take 1) := Nat.not_le_of_lt hkind
  refine (withPacket_taken hrail htake).trans ?_
  simp only [hfirst, hrecord, false_and, and_false, if_false, if_true, List.nil_append, hshort]
  rfl

/-- MIRROR_ACK takes the record out of the save gate and of the transfer, and the READYs that it held are sent (R286). -/
theorem exec_mirrorAck_taken (htake : takePacket s 0xB p = some t) :
    exec (.mirrorAck p) s = .next (noteChanges s (releaseReadys (t.onResil (fun r => { r with
      gate := r.gate.filter (fun x => !acked p.payload x)
      transfer := r.transfer.filter (fun x => !acked p.payload x) })) (carrierNow t))) :=
  withPacket_taken hrail htake

variable (htake : takePacket s 0xC p = some t)
include htake

/-- The buddy that this module names is sent a full transfer when it asks (R300). -/
theorem exec_fullTransferRequest_buddy (hbuddy : cfg t 0x600001 < 2 ^ 32)
    (hpayload : p.payload = bytesOfNat 8 7 ++ bytesOfNat 8 (cfg t 0x600001)) :
    exec (.fullTransferRequest p) s = .next (noteChanges s (startTransfer t)) := by
  obtain ⟨hop, hnode⟩ := bitsAt_two_words (by decide : 7 < 2 ^ 64) (hbuddy.trans (by decide))
  rw [← hpayload] at hop hnode
  have hlow : bitsAt (natOfBytes (p.payload.take 16)) 64 32 = cfg t 0x600001 := by
    rw [bitsAt_narrow _ _ (by decide : 32 ≤ 64), hnode, Nat.mod_eq_of_lt hbuddy]
  exact (withPacket_taken hrail htake).trans (by rw [if_pos ⟨hop, hlow⟩])

theorem exec_lineRequest_asked {a step : Nat} (ha : a < 2 ^ 64) (hstep : step < 2 ^ 64)
    (hpayload : p.payload = bytesOfNat 8 5 ++ bytesOfNat 8 a ++ bytesOfNat 8 step) :
    let x := lineAnswer t p.src a step
    exec (.lineRequest p) s = .next (noteChanges s
      (sendPacket x.2.2 (controlPacket x.2.2 p.src p.comm 6 (bytesOfNat 8 a ++ bytesOfNat 8 x.1 ++ x.2.1)))) := by
  obtain ⟨hop, haddr, hat⟩ := bitsAt_three_words (by decide : 5 < 2 ^ 64) ha hstep []
  rw [List.append_nil, ← hpayload] at hop haddr hat
  refine (withPacket_taken hrail htake).trans ?_
  simp only [hop, haddr, hat, ne_eq, not_true_eq_false, if_false]

section
variable {a status : Nat} {l : List Byte} (ha : a < 2 ^ 64) (hstatus : status < 2 ^ 64)
  (hpayload : p.payload = bytesOfNat 8 6 ++ bytesOfNat 8 a ++ bytesOfNat 8 status ++ l)
  (hheld : t.prot.heldLines.any (fun h => decide (h.1 = a / 64)) = true)
include ha hstatus hpayload hheld

/-- A reply for a line that is held: its bytes are kept, or its node is known to have none. -/
theorem exec_lineReply_held :
    exec (.lineReply p) s = .next (noteChanges s
      (if status ≠ 0 then t.onProt (fun q => { q with lineAsked := q.lineAsked ++ [(a / 64, p.src)] })
      else t.onProt (fun q => { q with
        lineValues := q.lineValues.filter (fun x => decide (x.1 ≠ a / 64)) ++ [(a / 64, l.take 64)] }))) := by
  have hbytes : p.payload.drop 24 = l := by
    rw [hpayload, List.drop_left' (by simp only [List.length_append, bytesOfNat_length])]
  obtain ⟨hop, haddr, hcode⟩ := bitsAt_three_words (by decide : 6 < 2 ^ 64) ha hstatus l
  rw [← hpayload] at hop haddr hcode
  refine (withPacket_taken hrail htake).trans ?_
  simp only [hop, haddr, hcode, hbytes, hheld, ne_eq, not_true_eq_false, Bool.true_eq_false, or_self, if_false]

end

end

/-! ## Lines that nobody holds (R298) -/

theorem lineAnswer_unknown {s : State} {node : BitVec 24} {a step : Nat} (hgeneration : generationLine s node a step = none)
    (hgroup : groupAt s a = none) : lineAnswer s node a step = (2, List.replicate 64 0, s) := by
  simp only [lineAnswer, hgeneration, hgroup]

end Sys2Proof.Machine

namespace Sys2Proof.Proofs

open Sys2Proof Sys2Proof.Machine

/-- Settles O48: a record goes by its digest and by whose it is, and a control packet's words say what it asks or answers. -/
theorem mirrorsAndLines : Obligations.MirrorsAndLines := by
  refine ⟨⟨?record, fun _ _ _ hrail htake => exec_mirrorAck_taken hrail htake,
      fun _ _ _ hrail htake => exec_fullTransferRequest_buddy hrail htake,
      fun _ hwaits => if_neg (not_and_or.mpr hwaits), fun _ hgate htransfer => if_pos ⟨hgate, htransfer⟩⟩,
    fun _ _ _ _ _ hrail htake => exec_lineRequest_asked hrail htake,
    ?value, ?refusal, fun _ _ _ _ => lineAnswer_unknown⟩
  case record =>
    intro s t p hrail htake hshort hfirst hkind hpaired t1 l r kept
    have hexec : exec (.mirror p) s = .next (noteChanges s (takeRecord t1 p.src l)) :=
      exec_mirror_whole hrail htake hshort hfirst hkind
    have hpaired1 : t1.resil.twinState ≠ 2 := hpaired
    refine ⟨fun hgood hother hclient => ?_, fun hgood hown => ?_, fun hbad hother => ?_⟩
    · rw [hexec, takeRecord_client hgood hpaired1 hother hclient]
      rfl
    · rw [hexec, takeRecord_forFill hgood hpaired1 hown]
    · rw [hexec, takeRecord_bad hbad hother]
  case value =>
    intro s t p a l hrail htake ha hlen hpayload hheld
    rw [exec_lineReply_held hrail htake ha (by decide : 0 < 2 ^ 64) hpayload hheld, if_neg (not_not.mpr rfl), List.take_of_length_le hlen.le]
  case refusal =>
    intro s t p a status l hrail htake ha hpos hstatus hpayload hheld
    rw [exec_lineReply_held hrail htake ha hstatus hpayload hheld, if_pos hpos.ne']

end Sys2Proof.Proofs
end

section
/-! The twin's timers, eviction, and rejoining (R303 to R305). -/

namespace Sys2Proof.Machine

open Sys2Proof

/-! ## Timers (R303, R304) -/

section
variable {s : State}

theorem exec_twinTimers_idle (hidle : twinWaits s = false) : exec .twinTimeout s = .next s ∧ exec .twinLateLimit s = .next s :=
  ⟨if_pos hidle, if_pos (.inl hidle)⟩

variable (hwaits : twinWaits s = true)
include hwaits

theorem exec_twinTimeout_hopFailed (hdown : portUp s 6 = false) :
    exec .twinTimeout s =
      .next (noteChanges s (raise (s.onResil (fun r => { r with twinState := 1 })) 0x080E0B0A (currentStep s))) :=
  (if_neg (by simp [hwaits])).trans (if_pos hdown)

variable (hup : portUp s 6 = true)
include hup

theorem exec_twinTimeout_first (hfirst : s.resil.twinLateRaised = false) :
    exec .twinTimeout s =
      .next (noteChanges s (raise (s.onResil (fun r => { r with twinLateRaised := true })) 0x080E0B0C (currentStep s))) := by
  show execTwinTimeout s = _
  simp only [execTwinTimeout, hwaits, hup, hfirst, Bool.true_eq_false, Bool.false_eq_true, if_false, done]

theorem exec_twinTimeout_again (hraised : s.resil.twinLateRaised = true) : exec .twinTimeout s = .next s := by
  show execTwinTimeout s = _
  simp only [execTwinTimeout, hwaits, hup, hraised, Bool.true_eq_false, if_false, if_true]

/-- The partner that is late beyond the limit while the hop is up is evicted. -/
theorem exec_twinLateLimit_evicts :
    exec .twinLateLimit s = .next (noteChanges s
      (raise ((sendPacket s (twinPacket s 0x12 [])).onResil (fun r => { r with twinState := 1 })) 0x080E0B0D (currentStep s))) :=
  if_neg (by simp [hwaits, hup])

end

/-! ## Rejoining (R305) -/

section
variable {s : State} (hrole : cfg s 0x600601 ≠ 0) (hcut : s.train.cut = false)
include hrole hcut

/-- Between steps, the survivor copies everything to its partner and is paired again. -/
theorem exec_twinRejoin_survivor (hsingle : s.resil.twinState = 1) :
    exec .twinRejoin s =
      .next (noteChanges s (copyToTwin (s.onResil (fun r => { r with twinState := 0, twinExports := false })))) :=
  (if_neg (by simp [hrole, hcut])).trans (if_pos hsingle)

/-- Between steps, the module that rejoins takes the copy over once it holds the survivor's ledger. -/
theorem exec_twinRejoin_partner {r : Saved} (hrejoins : s.resil.twinState = 2)
    (hledger : s.resil.submitted.find? (fun y => y.kind == 5) = some r) :
    exec .twinRejoin s = .next (noteChanges s (runAgain ((joinTwin s r).onResil (fun x => { x with twinState := 0 })))) := by
  show execTwinRejoin s = _
  simp only [execTwinRejoin, hrole, hcut, hrejoins, hledger, Bool.false_eq_true, or_self, OfNat.ofNat_ne_one, if_false, if_true, done]

section
variable (hpaired : s.resil.twinState = 0)
include hpaired

/-- With no job it begins to rejoin (log entry 86). -/
theorem exec_twinRejoin_begins (hfresh : s.train.started = false) :
    exec .twinRejoin s = .next (noteChanges s (s.onResil (fun r => { r with twinState := 2 }))) := by
  show execTwinRejoin s = _
  simp only [execTwinRejoin, hrole, hcut, hpaired, hfresh, Bool.false_eq_true, or_self, OfNat.zero_ne_ofNat, zero_ne_one, if_false, done]

theorem exec_twinRejoin_runs (hstarted : s.train.started = true) : exec .twinRejoin s = .next s := by
  show execTwinRejoin s = _
  simp only [execTwinRejoin, hrole, hcut, hpaired, hstarted, Bool.false_eq_true, or_self, OfNat.zero_ne_ofNat, zero_ne_one, if_false, if_true]

end

end

/-- The module that rejoins has committed what the survivor has. -/
theorem joinTwin_committed (s : State) (r : Saved) : (joinTwin s r).train.committed = r.step := rfl

/-- Returning to running leaves the committed step and the state of the pair. -/
theorem runAgain_running (s : State) :
    (runAgain s).train.committed = s.train.committed ∧ (runAgain s).resil.twinState = s.resil.twinState ∧ (runAgain s).resil.state = 0 :=
  ⟨rfl, rfl, rfl⟩

end Sys2Proof.Machine

namespace Sys2Proof.Proofs

open Sys2Proof Sys2Proof.Machine

/-- Settles O49: a timer goes by whether the module waits and by its hop, and a rejoin by the state of the pair. -/
theorem twinTimersAndRejoin : Obligations.TwinTimersAndRejoin := by
  refine ⟨fun _ => exec_twinTimeout_hopFailed, fun _ => exec_twinTimeout_first, fun _ => exec_twinTimeout_again,
    fun _ => exec_twinLateLimit_evicts, fun _ => exec_twinTimers_idle, fun _ => exec_twinRejoin_survivor, ?partner,
    fun _ => exec_twinRejoin_begins, fun _ => exec_twinRejoin_runs⟩
  case partner =>
    intro s r hrole hcut hrejoins hledger
    obtain ⟨hcommitted, hpair, hstate⟩ := runAgain_running ((joinTwin s r).onResil (fun x => { x with twinState := 0 }))
    refine ⟨_, exec_twinRejoin_partner hrole hcut hrejoins hledger, ?_, ?_, ?_⟩
    · rw [noteChanges_resil, hpair]
      rfl
    · rw [noteChanges_resil, hstate]
    · rw [noteChanges_train, hcommitted]
      exact joinTwin_committed s r

end Sys2Proof.Proofs
end

section
/-! What leaves flash as it is: every function of the model that is neither a start, a retirement, a write of an image, the floor or the
signing counter, nor calls one that is. One lemma for each, in the order of the model's files; they are the frame of O56 -/

namespace Sys2Proof.Machine

open Sys2Proof

@[simp] theorem flash_ite (c : Prop) [Decidable c] (a b : State) : (if c then a else b).flash = if c then a.flash else b.flash := by split <;> rfl

theorem sliceOnly_flash {s t : State} (h : sliceOnly s t) : t.flash = s.flash := by obtain ⟨_, rfl⟩ := h; rfl

@[simp] theorem foldl_flash {α : Type} {f : State → α → State} (hf : ∀ t x, (f t x).flash = t.flash) (s : State) (l : List α) :
    (l.foldl f s).flash = s.flash := by
  induction l generalizing s with
  | nil => rfl
  | cons x l ih => exact (ih _).trans (hf s x)

@[simp] theorem foldl_snd_flash {α β : Type} {f : β × State → α → β × State} (hf : ∀ y x, (f y x).2.flash = y.2.flash) (y : β × State) (l : List α) :
    (l.foldl f y).2.flash = y.2.flash := by
  induction l generalizing y with
  | nil => rfl
  | cons x l ih => exact (ih _).trans (hf y x)

@[simp] theorem foldl_fst_flash {α β : Type} {f : State × β → α → State × β} (hf : ∀ y x, (f y x).1.flash = y.1.flash) (y : State × β) (l : List α) :
    (l.foldl f y).1.flash = y.1.flash := by
  induction l generalizing y with
  | nil => rfl
  | cons x l ih => exact (ih _).trans (hf y x)

@[simp] theorem Got.andThen_flash {α β : Type} {f : α → State → Got β × State} (hf : ∀ a t, (f a t).2.flash = t.flash) (r : Got α × State) :
    (Got.andThen r f).2.flash = r.2.flash := by
  obtain ⟨a | c | _, t⟩ := r
  · exact hf a t
  · rfl
  · rfl

@[simp] theorem Got.each_flash {α β : Type} {f : α → State → Got β × State} (hf : ∀ a t, (f a t).2.flash = t.flash) (l : List α) (s : State) :
    (Got.each f l s).2.flash = s.flash := by
  induction l generalizing s with
  | nil => rfl
  | cons a l ih =>
    have ha := hf a s
    unfold Got.each
    split
    · rename_i e
      rw [e] at ha
      have hl := (ih _).trans ha
      split <;> rename_i e <;> rw [e] at hl <;> exact hl
    all_goals
      rename_i e
      rw [e] at ha
      exact ha

@[simp] theorem onIssued_flash (s : State) (n k : Nat) (f : Issued → Issued) : (onIssued s n k f).flash = s.flash := by rfl

@[simp] theorem snd_ite_flash {α : Type} (c : Prop) [Decidable c] (a b : α × State) :
    (if c then a else b).2.flash = if c then a.2.flash else b.2.flash := by
  split <;> rfl

@[simp] theorem fst_ite_flash {α : Type} (c : Prop) [Decidable c] (a b : State × α) :
    (if c then a else b).1.flash = if c then a.1.flash else b.1.flash := by
  split <;> rfl

theorem foldl_snd_snd_flash {α β γ : Type} {f : β × γ × State → α → β × γ × State} (hf : ∀ y x, (f y x).2.2.flash = y.2.2.flash)
    (y : β × γ × State) (l : List α) : (l.foldl f y).2.2.flash = y.2.2.flash := by
  induction l generalizing y with
  | nil => rfl
  | cons x l ih => exact (ih _).trans (hf y x)

theorem Got.andThen_flash_of {α β : Type} {F : Flash} {r : Got α × State} {f : α → State → Got β × State} (hr : r.2.flash = F)
    (hf : ∀ a t, (f a t).2.flash = t.flash) : (Got.andThen r f).2.flash = F := (Got.andThen_flash hf r).trans hr

/-! ## Functions of Machine/Ops -/

@[simp] theorem logEvent_flash (s : State) (code : Code) (arg : Nat) : (logEvent s code arg).flash = s.flash := by
  unfold logEvent
  dsimp only
  split <;> simp

@[simp] theorem raise_flash (s : State) (code : Code) (arg : Nat) : (raise s code arg).flash = s.flash := linkOnly_flash (linkOnly_raise _ _ _)

/-! ## Functions of Machine/Wire -/

@[simp] theorem idleFlit_flash (s : State) (port : Nat) (nak : Bool) (creditVc creditCount : Nat) :
    (idleFlit s port nak creditVc creditCount).flash = s.flash := linkOnly_flash (linkOnly_idleFlit _ _ _ _ _)

@[simp] theorem answerFlit_flash (s : State) (port vc : Nat) : (answerFlit s port vc).flash = s.flash := by rfl

@[simp] theorem returnCredits_flash (s : State) (port vc : Nat) :
    (returnCredits s port vc).flash = s.flash := linkOnly_flash (linkOnly_returnCredits _ _ _)

@[simp] theorem removeDelivered_flash (s : State) (p : Packet) :
    (removeDelivered s p).flash = s.flash := linkOnly_flash (linkOnly_removeDelivered _ _)

@[simp] theorem sendFlit_flash (s : State) (port : Nat) (f : OutFlit) :
    (sendFlit s port f).flash = s.flash := linkOnly_flash (linkOnly_sendFlit _ _ _)

@[simp] theorem pump_flash (n : Nat) (s : State) (port : Nat) : (pump n s port).flash = s.flash := linkOnly_flash (linkOnly_pump _ _ _)
@[simp] theorem pumpPort_flash (s : State) (port : Nat) : (pumpPort s port).flash = s.flash := linkOnly_flash (linkOnly_pumpPort _ _)

@[simp] theorem queueFlits_flash (s : State) (port : Nat) (l : List OutFlit) :
    (queueFlits s port l).flash = s.flash := linkOnly_flash (linkOnly_queueFlits _ _ _)

@[simp] theorem countDetour_flash (s : State) (detour : Bool) : (countDetour s detour).flash = s.flash := linkOnly_flash (linkOnly_countDetour _ _)

@[simp] theorem putOnPort_flash (s : State) (p : Packet) (port vc : Nat) :
    (putOnPort s p port vc).flash = s.flash := linkOnly_flash (linkOnly_putOnPort _ _ _ _)

@[simp] theorem holdReroute_flash (s : State) (p : Packet) (arrival : Option (Nat × Bool)) (room : Option InputRoom) :
    (holdReroute s p arrival room).flash = s.flash := linkOnly_flash (linkOnly_holdReroute _ _ _ _)

@[simp] theorem forwardFrom_flash (s : State) (p : Packet) (arrival : Option (Nat × Bool)) (room : Option InputRoom) :
    (forwardFrom s p arrival room).flash = s.flash := linkOnly_flash (linkOnly_forwardFrom _ _ _ _)

@[simp] theorem forward_flash (s : State) (p : Packet) (arrival : Option (Nat × Bool)) :
    (forward s p arrival).flash = s.flash := linkOnly_flash (linkOnly_forward _ _ _)

@[simp] theorem releaseReroute_flash (s : State) : (releaseReroute s).flash = s.flash := by
  unfold releaseReroute
  dsimp only
  rw [foldl_flash (fun t r => returnCredits_flash t _ _), onFabric_flash, foldl_flash, onFabric_flash]
  intro t h
  split
  · rfl
  · exact forward_flash _ _ _

@[simp] theorem setTx_flash (s : State) (t : TxStream) : (setTx s t).flash = s.flash := by rfl
@[simp] theorem setRx_flash (s : State) (t : RxStream) : (setRx s t).flash = s.flash := by rfl
@[simp] theorem sendStream_flash (s : State) (p : Packet) : (sendStream s p).flash = s.flash := linkOnly_flash (linkOnly_sendStream _ _)
@[simp] theorem sendPacket_flash (s : State) (p : Packet) : (sendPacket s p).flash = s.flash := linkOnly_flash (linkOnly_sendPacket _ _)

@[simp] theorem drainSend_flash (n : Nat) (s : State) : (drainSend n s).flash = s.flash := by
  induction n generalizing s with
  | zero => rfl
  | succ n ih =>
    unfold drainSend
    split <;> simp [ih]

@[simp] theorem enterHolding_flash (s : State) : (enterHolding s).flash = s.flash := by simp [enterHolding]
@[simp] theorem stopModule_flash (s : State) : (stopModule s).flash = s.flash := by rfl
@[simp] theorem sendHoldNotices_flash (s : State) : (sendHoldNotices s).flash = s.flash := linkOnly_flash (linkOnly_sendHoldNotices _)
@[simp] theorem leavePair_flash (s : State) : (leavePair s).flash = s.flash := by simp [leavePair]
@[simp] theorem withholdCut_flash (s : State) : (withholdCut s).flash = s.flash := by simp [withholdCut]
@[simp] theorem poisonEscape_flash (s : State) : (poisonEscape s).flash = s.flash := by simp [poisonEscape]

/-! ## Functions of Machine/Memory -/

@[simp] theorem holdLine_flash (s : State) (a : Nat) : (holdLine s a).flash = s.flash := by simp [holdLine]

@[simp] theorem copyRow_flash (s : State) (bank row : Nat) : (copyRow s bank row).flash = s.flash := by
  refine foldl_flash (fun t e => ?_) s _
  dsimp only
  split
  · rfl
  · split
    · split_ifs <;> simp
    · rfl

@[simp] theorem repairRowAt_flash (s : State) (a : Nat) : (repairRowAt s a).flash = s.flash := by simp [repairRowAt]
@[simp] theorem demandRow_flash (s : State) (a : Nat) : (demandRow s a).flash = s.flash := by simp [demandRow]
@[simp] theorem spoilWord_flash (s : State) (w : Nat) : (spoilWord s w).flash = s.flash := by rfl

@[simp] theorem lookupTag_flash (s : State) (line : Nat) : (lookupTag s line).flash = s.flash := by
  unfold lookupTag
  split <;> simp

@[simp] theorem lookupTags_flash (s : State) (a len : Nat) : (lookupTags s a len).flash = s.flash := by simp [lookupTags]

@[simp] theorem readWord_flash (s : State) (w : Nat) : (readWord s w).2.flash = s.flash := by
  grind [readWord, demandRow_flash, holdLine_flash, onProt_flash]

@[simp] theorem readWords_flash (n : Nat) (s : State) (w : Nat) : (readWords n s w).2.flash = s.flash := by
  induction n generalizing s w with
  | zero => rfl
  | succ n ih =>
    simp only [readWords]
    split <;> simp [ih]

@[simp] theorem readBytes_flash (s : State) (a len : Nat) : (readBytes s a len).2.flash = s.flash := by simp [readBytes]

@[simp] theorem writeWhole_flash (s : State) (w : Nat) (d : Word64) (poison : Bool) : (writeWhole s w d poison).flash = s.flash := by
  simp [writeWhole]

@[simp] theorem writeNarrow_flash (s : State) (w : Nat) (new : List (Option (Byte × Bool))) : (writeNarrow s w new).1.flash = s.flash := by
  grind [writeNarrow, demandRow_flash, onProt_flash, readWord_flash, writeWhole_flash]

@[simp] theorem writeWords_flash (n : Nat) (s : State) (w a : Nat) (l : List (Byte × Bool)) : (writeWords n s w a l).1.flash = s.flash := by
  induction n generalizing s w with
  | zero => rfl
  | succ n ih =>
    simp only [writeWords]
    split <;> simp [ih]

@[simp] theorem writeMarked_flash (s : State) (a : Nat) (l : List (Byte × Bool)) : (writeMarked s a l).1.flash = s.flash := by
  unfold writeMarked
  split <;> simp

@[simp] theorem writeBytes_flash (s : State) (a : Nat) (l : List Byte) : (writeBytes s a l).1.flash = s.flash := by simp [writeBytes]
@[simp] theorem putFor_flash (block : Nat) (s : State) (a : Nat) (l : List Byte) : (putFor block s a l).flash = s.flash := by simp [putFor]
@[simp] theorem putMem_flash (s : State) (a : Nat) (l : List Byte) : (putMem s a l).flash = s.flash := by simp [putMem]

@[simp] theorem readBankWord_flash (s : State) (w : Nat) : (readBankWord s w).2.flash = s.flash := by
  unfold readBankWord
  split <;> simp

@[simp] theorem writeBankWord_flash (s : State) (w d : Nat) (poison : Bool) : (writeBankWord s w d poison).flash = s.flash := by simp [writeBankWord]

@[simp] theorem writeBankElems_writeLone_flash (s : State) (i v : Nat) (p : Bool) : (writeBankElems.writeLone s i v p).1.flash = s.flash := by
  grind [writeBankElems.writeLone, onProt_flash, readBankWord_flash, writeBankWord_flash]

@[simp] theorem writeBankElems_flash (s : State) (l : List (Nat × Nat × Bool)) : (writeBankElems s l).1.flash = s.flash := by
  fun_induction writeBankElems s l with
  | case1 => rfl
  | case2 => simp
  | case3 _ _ _ _ _ _ _ _ _ ih => simpa using ih
  | case4 s i v p _ _ _ _ _ _ _ h _ _ h' ih =>
    have hlone := writeBankElems_writeLone_flash s i v p
    rw [h] at hlone
    rw [h'] at ih
    exact ih.trans hlone

/-! ## Functions of Machine/HomeSlice -/

@[simp] theorem hbmAccess_flash (s : State) (line bytes : Nat) (write : Bool) : (hbmAccess s line bytes write).flash = s.flash := by rfl
@[simp] theorem hbmServed_flash (s : State) (line : Nat) (write : Bool) : (hbmServed s line write).flash = s.flash := by rfl
@[simp] theorem setLines_flash (s : State) (g : Nat) (l : List Line) : (setLines s g l).flash = s.flash := sliceOnly_flash (sliceOnly_setLines _ _ _)
@[simp] theorem evictLine_flash (s : State) (x : Line) : (evictLine s x).flash = s.flash := sliceOnly_flash (sliceOnly_evictLine _ _)

theorem allocateLine_flash (s : State) (x : Line) {t : State} (h : allocateLine s x = some t) : t.flash = s.flash :=
  sliceOnly_flash (sliceOnly_allocateLine h)

@[simp] theorem touchLine_flash (s : State) (x : Line) : (touchLine s x).flash = s.flash := sliceOnly_flash (sliceOnly_touchLine _ _)

@[simp] theorem accessHint_flash (s : State) (x : Line) (cls : Nat) : (accessHint s x cls).2.flash = s.flash := by
  grind [accessHint, evictLine_flash, setLines_flash]

@[simp] theorem writeBackNow_flash (s : State) (x : Line) : (writeBackNow s x).flash = s.flash := by simp [writeBackNow]
@[simp] theorem limitHints_flash (s : State) (g : Nat) : (limitHints s g).flash = s.flash := by rfl

@[simp] theorem displaceLines_flash (n : Nat) (s : State) (g : Nat) : (displaceLines n s g).flash = s.flash := by
  induction n generalizing s with
  | zero => rfl
  | succ n ih =>
    unfold displaceLines
    dsimp only
    split
    · rfl
    · split <;> simp [ih]

@[simp] theorem requestFill_flash (s : State) (who : Initiator) (line : Nat) (want : BitVec 8) (hint : Nat) :
    (requestFill s who line want hint).flash = s.flash := sliceOnly_flash (sliceOnly_requestFill _ _ _ _ _)

@[simp] theorem serveLine_flash (s : State) (x : SliceAccess) : (serveLine s x).2.flash = s.flash := by
  grind [serveLine, accessHint_flash, allocateLine_flash, onCache_flash, requestFill_flash, touchLine_flash]

@[simp] theorem accessLine_flash (s : State) (x : SliceAccess) : (accessLine s x).flash = s.flash := sliceOnly_flash (sliceOnly_accessLine _ _)

@[simp] theorem accessSector_flash (s : State) (channel sector : Nat) (write : Bool) : (accessSector s channel sector write).flash = s.flash := by
  simp [accessSector]

@[simp] theorem accessSectors_flash (s : State) (channel a len : Nat) (write : Bool) : (accessSectors s channel a len write).flash = s.flash := by
  simp [accessSectors]

@[simp] theorem accessSlices_flash (s : State) (who : Initiator) (a len : Nat) (write : Bool) :
    (accessSlices s who a len write).flash = s.flash := sliceOnly_flash (sliceOnly_accessSlices _ _ _ _ _)

@[simp] theorem forgetIssued_flash (s : State) (d : Issued) : (forgetIssued s d).flash = s.flash := by rfl

@[simp] theorem raceWrites_flash (s : State) (others : List (Nat × Issued)) (l : List Run) : (raceWrites s others l).flash = s.flash := by
  simp [raceWrites]

@[simp] theorem noteWritten_flash (s : State) (l : List Run) : (noteWritten s l).flash = s.flash := by rfl
@[simp] theorem noteFetched_flash (s : State) (n : Nat) (l : List Nat) : (noteFetched s n l).flash = s.flash := by rfl
@[simp] theorem disturb_flash (s : State) (l : List Run) : (disturb s l).flash = s.flash := by simp [disturb]
@[simp] theorem readThrough_flash (s : State) (who : Initiator) (a len : Nat) : (readThrough s who a len).2.flash = s.flash := by simp [readThrough]

@[simp] theorem writeThrough_flash (s : State) (who : Initiator) (a : Nat) (l : List (Byte × Bool)) : (writeThrough s who a l).1.flash = s.flash := by
  simp [writeThrough]

@[simp] theorem putThrough_flash (s : State) (who : Initiator) (a : Nat) (l : List Byte) : (putThrough s who a l).flash = s.flash := by
  simp [putThrough]

@[simp] theorem runAheadFill_flash (s : State) (who : Initiator) (line : Nat) (want : BitVec 8) : (runAheadFill s who line want).flash = s.flash := by
  grind [runAheadFill, allocateLine_flash, onCache_flash, requestFill_flash]

theorem requestNext_flash (s : State) (n : Nat) (d : Issued) {t : State} (h : requestNext s n d = some t) : t.flash = s.flash := by
  have hserve := serveLine_flash s
  unfold requestNext at h
  grind [onIssued_flash]

@[simp] theorem pumpTile_flash (k : Nat) (s : State) (n : Nat) : (pumpTile k s n).flash = s.flash := by
  induction k generalizing s with
  | zero => rfl
  | succ k ih =>
    unfold pumpTile
    split
    · rename_i t h
      obtain ⟨d, -, hd⟩ := List.exists_of_findSome?_eq_some h
      exact (ih t).trans (requestNext_flash _ _ _ hd)
    · rfl

@[simp] theorem pumpTiles_flash (s : State) : (pumpTiles s).flash = s.flash := by simp [pumpTiles]
@[simp] theorem lineReturned_flash (s : State) (line : Nat) : (lineReturned s line).flash = s.flash := by rfl
@[simp] theorem admitWaiting_flash (s : State) : (admitWaiting s).flash = s.flash := by simp [admitWaiting]
@[simp] theorem burstFails_flash (s : State) (line : Nat) (words : BitVec 8) : (burstFails s line words).flash = s.flash := by simp [burstFails]
@[simp] theorem failBurst_flash (s : State) (line : Nat) (words : BitVec 8) : (failBurst s line words).flash = s.flash := by simp [failBurst]
@[simp] theorem clearMemCounters_flash (s : State) : (clearMemCounters s).flash = s.flash := by rfl

/-! ## Functions of Machine/Tile -/

@[simp] theorem readFor_flash (who : Initiator) (block a len : Nat) (s : State) : (readFor who block a len s).2.flash = s.flash := by
  grind [readFor, lookupTags_flash, readBytes_flash]

@[simp] theorem writeRuns_flash (l : List (Nat × List (Byte × Bool))) (s : State) : (writeRuns l s).1.flash = s.flash := by
  induction l generalizing s with
  | nil => rfl
  | cons r l ih => simp [writeRuns, ih]

@[simp] theorem forgetBundle_flash (s : State) (b : Bundle) : (forgetBundle s b).flash = s.flash := by rfl

@[simp] theorem writeFor_flash (who : Initiator) (block : Nat) (b : Bundle) (s : State) : (writeFor who block b s).2.flash = s.flash := by
  grind [writeFor, writeRuns_flash]

@[simp] theorem fetch64_flash (n a : Nat) (s : State) : (fetch64 n a s).2.flash = s.flash := by simp [fetch64]

@[simp] theorem fetchTensor_flash (n : Nat) (t : Tile) (pointer : Nat) (side : Bool) (s : State) :
    (fetchTensor n t pointer side s).2.flash = s.flash := by
  unfold fetchTensor
  split_ifs
  · rfl
  · rfl
  · refine (Got.andThen_flash (fun v s1 => ?_) _).trans (fetch64_flash _ _ _)
    split <;> rfl

@[simp] theorem detectTrap_flash (s : State) (n : Nat) (i : TrapInfo) : (detectTrap s n i).flash = s.flash := by rfl
@[simp] theorem trapHere_flash (s : State) (n : Nat) (c : Code) : (trapHere s n c).flash = s.flash := by rfl

@[simp] theorem signalCounter_flash (s : State) (target : Option (Nat × Nat)) : (signalCounter s target).flash = s.flash := by
  unfold signalCounter
  split <;> simp

@[simp] theorem holdFor_flash (s : State) (n cause : Nat) : (holdFor s n cause).flash = s.flash := by rfl
@[simp] theorem orderIssued_flash (s : State) (n : Nat) (d : Issued) : (orderIssued s n d).flash = s.flash := by simp [orderIssued]
@[simp] theorem fetchSlices_flash (s : State) (n pc : Nat) (named : List Nat) : (fetchSlices s n pc named).flash = s.flash := by simp [fetchSlices]
@[simp] theorem issued_flash (s : State) (n d : Nat) (x : Issue) (fault : Option Code) : (issued s n d x fault).flash = s.flash := by simp [issued]

@[simp] theorem endTileProgram_flash (s : State) (n : Nat) : (endTileProgram s n).flash = s.flash := by
  unfold endTileProgram
  split <;> simp

@[simp] theorem restartRow_flash (s : State) (n : Nat) : (restartRow s n).flash = s.flash := by simp [restartRow]
@[simp] theorem clearTileCounters_flash (s : State) : (clearTileCounters s).flash = s.flash := by rfl

/-! ## Functions of Machine/Collectives -/

@[simp] theorem recordFault_flash (s : State) (code : Code) (arg : Nat) : (recordFault s code arg).flash = s.flash := by simp [recordFault]
@[simp] theorem setColl_flash (s : State) (c : Coll) : (setColl s c).flash = s.flash := by rfl
@[simp] theorem onColl_flash (s : State) (k : CollKey) (step : Nat) (f : Coll → Coll) : (onColl s k step f).flash = s.flash := by rfl

@[simp] theorem placeIn_flash (s : State) (who : Initiator) (key place : Nat) (l : List (Byte × Bool)) :
    (placeIn s who key place l).flash = s.flash := by
  simp [placeIn]

@[simp] theorem readElems_flash (s : State) (c : Coll) (a n : Nat) : (readElems s c a n).2.flash = s.flash := by simp [readElems]

@[simp] theorem noteMarks_flash (s : State) (k : CollKey) (step e : Nat) (l : List (Nat × Bool)) : (noteMarks s k step e l).flash = s.flash := by
  simp [noteMarks]

@[simp] theorem fabricWrite_flash (s : State) (a : Nat) (l : List (Byte × Bool)) : (fabricWrite s a l).flash = s.flash := by simp [fabricWrite]
@[simp] theorem ownValues_flash (s : State) (c : Coll) (e n : Nat) : (ownValues s c e n).2.flash = s.flash := by simp [ownValues]

@[simp] theorem deliver_flash (s : State) (k : CollKey) (step e : Nat) (l : List (Nat × Bool)) : (deliver s k step e l).flash = s.flash := by
  simp [deliver]

@[simp] theorem sendStep_flash (s : State) (p : Packet) : (sendStep s p).flash = s.flash := by simp [sendStep]

@[simp] theorem sendData_flash (s : State) (c : Coll) (slot e : Nat) (reverse deferred : Bool) (l : List (Nat × Bool)) :
    (sendData s c slot e reverse deferred l).flash = s.flash := by
  simp [sendData]

@[simp] theorem finishChunk_flash (s : State) (k : CollKey) (step : Nat) : (finishChunk s k step).flash = s.flash := by
  unfold finishChunk
  dsimp only
  split <;> simp

@[simp] theorem startReduction_flash (s : State) (k : CollKey) (step : Nat) : (startReduction s k step).flash = s.flash := by simp [startReduction]

@[simp] theorem passPartial_flash (s : State) (k : CollKey) (step e : Nat) (back : Bool) (l : List (Nat × Bool)) (o : Nat) :
    (passPartial s k step e back l o).flash = s.flash := by
  grind [passPartial, finishChunk_flash, noteMarks_flash, onColl_flash, ownValues_flash, sendData_flash]

@[simp] theorem reductionData_flash (s : State) (k : CollKey) (step : Nat) (p : Packet) : (reductionData s k step p).flash = s.flash := by
  simp [reductionData]

@[simp] theorem moveData_flash (s : State) (c : Coll) (slot e : Nat) (back : Bool) (l : List (Nat × Bool)) :
    (moveData s c slot e back l).flash = s.flash := by
  simp [moveData]

@[simp] theorem placeElems_flash (s : State) (k : CollKey) (step a : Nat) (l : List (Nat × Bool)) : (placeElems s k step a l).flash = s.flash := by
  simp [placeElems]

@[simp] theorem startGather_flash (s : State) (k : CollKey) (step : Nat) : (startGather s k step).flash = s.flash := by
  unfold startGather
  dsimp only
  split <;> simp

@[simp] theorem startBroadcast_flash (s : State) (k : CollKey) (step : Nat) : (startBroadcast s k step).flash = s.flash := by simp [startBroadcast]
@[simp] theorem startAllToAll_flash (s : State) (k : CollKey) (step : Nat) : (startAllToAll s k step).flash = s.flash := by simp [startAllToAll]

@[simp] theorem moveReceived_flash (s : State) (k : CollKey) (step : Nat) (p : Packet) : (moveReceived s k step p).flash = s.flash := by
  simp [moveReceived]

@[simp] theorem sendReady_flash (s : State) (k : CollKey) (step : Nat) (summary : Option Summary) : (sendReady s k step summary).flash = s.flash := by
  simp [sendReady]

@[simp] theorem maybeGo_flash (s : State) (k : CollKey) (step : Nat) : (maybeGo s k step).flash = s.flash := by simp [maybeGo]
@[simp] theorem readyAtRoot_flash (s : State) (p : Packet) : (readyAtRoot s p).flash = s.flash := by simp [readyAtRoot]

@[simp] theorem sendDeferred_flash (s : State) (k : CollKey) (step : Nat) (d : Deferred) : (sendDeferred s k step d).flash = s.flash := by
  simp [sendDeferred]

@[simp] theorem writeHeld_flash (s : State) (k : CollKey) (step : Nat) : (writeHeld s k step).flash = s.flash := by simp [writeHeld]

@[simp] theorem settleOwn_flash (s : State) (k : CollKey) (step : Nat) : (settleOwn s k step).flash = s.flash := by
  unfold settleOwn
  dsimp only
  split
  · rfl
  · rw [writeHeld_flash]
    split
    · rw [onFabric_flash, placeIn_flash, ownValues_flash]
    · rfl

@[simp] theorem goAtMember_flash (s : State) (p : Packet) : (goAtMember s p).flash = s.flash := by
  unfold goAtMember
  dsimp only
  split <;> simp

@[simp] theorem sendAck_flash (s : State) (k : StreamKey) : (sendAck s k).flash = s.flash := (sendPacket_flash _ _).trans (setRx_flash s _)

theorem takePacket_flash (s : State) (ptype : Nat) (p : Packet) {t : State} (h : takePacket s ptype p = some t) : t.flash = s.flash := by
  grind [takePacket, removeDelivered_flash, sendAck_flash, setRx_flash]

@[simp] theorem dropPacket_flash (s : State) (p : Packet) : (dropPacket s p).flash = s.flash := by simp [dropPacket]
@[simp] theorem countTie_flash (s : State) (p : Packet) : (countTie s p).flash = s.flash := by simp [countTie]
@[simp] theorem resendStream_flash (s : State) (x : TxStream) : (resendStream s x).flash = s.flash := by simp [resendStream]

/-! ## Functions of Machine/Egress -/

@[simp] theorem sendOn_flash (s : State) (c : Nat) (o : Output) : (sendOn s c o).flash = s.flash := by simp [sendOn]

@[simp] theorem egressWrites_flash (conn rkey n : Nat) (s : State) (va : Nat) (l : List Byte) :
    (egressWrites conn rkey n s va l).flash = s.flash := by
  induction n generalizing s va l with
  | zero => rfl
  | succ n ih => simp [egressWrites, ih]

@[simp] theorem egressSend_flash (s : State) (x : Export) (off : Nat) (l : List Byte) : (egressSend s x off l).flash = s.flash := by simp [egressSend]
@[simp] theorem replaceExport_flash (s : State) (x y : Export) : (replaceExport s x y).flash = s.flash := by rfl
@[simp] theorem beginExport_flash (s : State) (x : Export) : (beginExport s x).flash = s.flash := by simp [beginExport]

@[simp] theorem startNext_flash (s : State) (conn : Nat) : (startNext s conn).flash = s.flash := by
  grind [startNext, beginExport_flash, onFront_flash]

@[simp] theorem restartExports_flash (s : State) (conn : Nat) : (restartExports s conn).flash = s.flash := by simp [restartExports]
@[simp] theorem addExport_flash (s : State) (x : Export) : (addExport s x).flash = s.flash := by simp [addExport]
@[simp] theorem dropOutputs_flash (s : State) (conn : Nat) : (dropOutputs s conn).flash = s.flash := by rfl

@[simp] theorem stopExports_flash (s : State) (conn : Nat) (error : Bool) : (stopExports s conn error).flash = s.flash := by
  unfold stopExports
  split <;> simp

@[simp] theorem connError_flash (s : State) (conn : Nat) : (connError s conn).flash = s.flash := by simp [connError]
@[simp] theorem exportDue_flash (s : State) : (exportDue s).flash = s.flash := by grind [exportDue, addExport_flash, onResil_flash]
@[simp] theorem acornExported_flash (s : State) (x : Export) : (acornExported s x).flash = s.flash := by simp [acornExported]

/-! ## Functions of Machine/Saving -/

@[simp] theorem partialRowsOf_flash (s : State) (bn : Nat) : (partialRowsOf s bn).2.flash = s.flash := by simp [partialRowsOf]
@[simp] theorem touchRow_flash (s : State) (group row : Nat) : (touchRow s group row).flash = s.flash := by rfl
@[simp] theorem sendRecord_flash (s : State) (dst : BitVec 24) (r : Saved) : (sendRecord s dst r).flash = s.flash := by simp [sendRecord]
@[simp] theorem saveToBuddy_flash (s : State) (r : Saved) : (saveToBuddy s r).flash = s.flash := by simp [saveToBuddy]
@[simp] theorem saveRecord_flash (s : State) (r : Saved) : (saveRecord s r).flash = s.flash := by simp [saveRecord]

@[simp] theorem contribRecord_flash (s : State) (k : CollKey) (step : Nat) : (contribRecord s k step).2.flash = s.flash := by
  grind [contribRecord, ownValues_flash, partialRowsOf_flash]

@[simp] theorem resultRecord_flash (s : State) (step g : Nat) : (resultRecord s step g).2.flash = s.flash := by
  unfold resultRecord
  dsimp only
  split
  · split
    · rw [recordFault_flash, readThrough_flash]
    · exact readThrough_flash _ _ _ _
  · split
    · refine foldl_snd_flash (fun a j => ?_) _ _
      dsimp only
      split
      · rw [recordFault_flash, readThrough_flash]
      · exact readThrough_flash _ _ _ _
    · rfl

@[simp] theorem saveResult_flash (s : State) (g : Nat) : (saveResult s g).flash = s.flash := by simp [saveResult]
@[simp] theorem releaseReadys_flash (s : State) (carrier : Option Nat) : (releaseReadys s carrier).flash = s.flash := by simp [releaseReadys]

@[simp] theorem issueReady_flash (s : State) (k : CollKey) (summary : Option Summary) : (issueReady s k summary).flash = s.flash := by
  simp [issueReady]

/-! ## Functions of Machine/Queues -/

@[simp] theorem readRecord_flash (s : State) (a len : Nat) : (readRecord s a len).2.flash = s.flash := by grind [readRecord, readThrough_flash]

@[simp] theorem readItems_flash (s : State) (e : Entry) : (readItems s e).2.flash = s.flash := by
  refine foldl_snd_flash (fun x i => ?_) _ _
  have hr := readRecord_flash x.2 (e.field 192 48 + 16 * i) 16
  split <;> rename_i eq <;> rw [eq] at hr
  · exact hr
  · exact (raise_flash _ _ _).trans hr
  · exact hr

@[simp] theorem groupCommand_flash (s : State) (g coll : Nat) : (groupCommand s g coll).2.flash = s.flash := by
  grind [groupCommand, readRecord_flash, recordFault_flash]

@[simp] theorem commandsReady_flash (s : State) (items : List (Nat × Nat)) : (commandsReady s items).2.flash = s.flash := by
  refine foldl_snd_flash (fun x y => ?_) (true, s) items
  have hr := readRecord_flash x.2 y.2 64
  split
  · rename_i e
    rw [e] at hr
    exact hr
  · rfl

@[simp] theorem openColl_flash (s : State) (k : CollKey) (c : CollCmd) (entry : Option (Nat × Nat)) : (openColl s k c entry).flash = s.flash := by rfl

@[simp] theorem issueContribution_flash (s : State) (g coll : Nat) (summary : Option Summary) :
    (issueContribution s g coll summary).flash = s.flash := by
  unfold issueContribution
  dsimp only
  split <;> simp

@[simp] theorem issueCarrier_flash (s : State) (g : Nat) (summary : Summary) : (issueCarrier s g summary).flash = s.flash := by
  unfold issueCarrier
  split <;> simp

@[simp] theorem finishGroups_flash (s : State) (items : List (Nat × Nat)) : (finishGroups s items).flash = s.flash := by simp [finishGroups]
@[simp] theorem onEntry_flash (s : State) (q seq : Nat) (f : Entry → Entry) : (onEntry s q seq f).flash = s.flash := by rfl

@[simp] theorem endEntry_flash (s : State) (q : Nat) (e : Entry) (outcome : Nat) (code : Code) : (endEntry s q e outcome code).flash = s.flash := by
  simp [endEntry]

@[simp] theorem replaceUnread_flash (s : State) : (replaceUnread s).flash = s.flash := by simp [replaceUnread]
@[simp] theorem failWaiting_flash (s : State) : (failWaiting s).flash = s.flash := by simp [failWaiting]
@[simp] theorem settleFault_flash (s : State) : (settleFault s).flash = s.flash := by simp [settleFault]
@[simp] theorem localFault_flash (s : State) (code : Code) (arg : Nat) : (localFault s code arg).flash = s.flash := by simp [localFault]
@[simp] theorem releaseEntry_flash (s : State) (q : Nat) (e : Entry) : (releaseEntry s q e).flash = s.flash := by simp [releaseEntry]

@[simp] theorem releaseQueue_flash (n q : Nat) (s : State) (upTo : Nat) : (releaseQueue n q s upTo).flash = s.flash := by
  induction n generalizing s with
  | zero => rfl
  | succ n ih =>
    unfold releaseQueue
    dsimp only
    split <;> simp [ih]

@[simp] theorem releaseAll_flash (s : State) (upTo : Nat) : (releaseAll s upTo).flash = s.flash := by simp [releaseAll]
@[simp] theorem releaseLate_flash (s : State) (q : Nat) : (releaseLate s q).flash = s.flash := by simp [releaseLate]

@[simp] theorem joinStep_flash (s : State) (q : Nat) (e : Entry) : (joinStep s q e).flash = s.flash := by
  unfold joinStep
  extract_lets step twice s1 s2 carrier closed s3 badItem code
  have h2 : s2.flash = s.flash := by simp only [s2, s1, foldl_flash (fun t x => onWork_flash t _ _), onEntry_flash]
  have h3 : s3.flash = s.flash := by
    simp only [s3]
    split
    · split <;> simpa [closed] using h2
    · exact h2
  clear_value s3 code
  split <;> simpa using h3

@[simp] theorem settleSteps_flash (n : Nat) (s : State) : (settleSteps n s).flash = s.flash := by
  induction n generalizing s with
  | zero => rfl
  | succ n ih =>
    unfold settleSteps
    split
    · rfl
    · split
      · rfl
      · simp [ih]

@[simp] theorem settleAll_flash (s : State) : (settleAll s).flash = s.flash := by simp [settleAll]
@[simp] theorem faultQueue_flash (s : State) (q : Nat) (code : Code) (seq : Nat) : (faultQueue s q code seq).flash = s.flash := by simp [faultQueue]
@[simp] theorem postCount_flash (s : State) (q p ordinal : Nat) : (postCount s q p ordinal).flash = s.flash := by simp [postCount]
@[simp] theorem consumeCount_flash (s : State) (q c : Nat) : (consumeCount s q c).flash = s.flash := by simp [consumeCount]
@[simp] theorem acceptEntry_flash (s : State) (q : Nat) (p : Pending) (v : Nat) : (acceptEntry s q p v).flash = s.flash := by simp [acceptEntry]

@[simp] theorem readEntry_mismatch_flash (q : Nat) (p : Pending) (t : State) : (readEntry.mismatch q p t).flash = t.flash := by
  simp [readEntry.mismatch]

@[simp] theorem readEntry_flash (s : State) (q : Nat) (p : Pending) : (readEntry s q p).flash = s.flash := by
  grind [readEntry, acceptEntry_flash, raise_flash, readEntry_mismatch_flash, readRecord_flash]

theorem enableQueue_flash (s : State) (q : Nat) {t : State} (h : enableQueue s q = .ok t) : t.flash = s.flash := by grind [enableQueue, onQueue_flash]
@[simp] theorem disableQueue_flash (s : State) (q : Nat) : (disableQueue s q).flash = s.flash := by simp [disableQueue]
@[simp] theorem faultEntry_flash (s : State) (q : Nat) (e : Entry) (code : Code) : (faultEntry s q e code).flash = s.flash := by simp [faultEntry]

@[simp] theorem dispatchTiles_flash (s : State) (q : Nat) (e : Entry) (v : Nat) : (dispatchTiles s q e v).flash = s.flash := by
  unfold dispatchTiles
  dsimp only
  rw [foldl_flash (fun t n => onTile_flash t n _), onEntry_flash]

@[simp] theorem fillLines_flash (n : Nat) (s : State) (a : Nat) (d : Word64) : (fillLines n s a d).flash = s.flash := by
  induction n generalizing s a with
  | zero => rfl
  | succ n ih => simp [fillLines, ih]

@[simp] theorem releaseTrapped_flash (s : State) (e : Entry) : (releaseTrapped s e).flash = s.flash := by
  unfold releaseTrapped
  exact foldl_flash (fun t n => onTile_flash t n _) s _

/-! ## Functions of Machine/Cracker -/

@[simp] theorem forgetRow_flash (s : State) (c a len : Nat) : (forgetRow s c a len).flash = s.flash := by simp [forgetRow]
@[simp] theorem haltChannel_flash (s : State) (c : Nat) (code : Code) : (haltChannel s c code).flash = s.flash := by simp [haltChannel]
@[simp] theorem finishCommand_flash (s : State) (c : Nat) : (finishCommand s c).flash = s.flash := by simp [finishCommand]

@[simp] theorem hazelRequests_flash (s : State) (c : Nat) (write : Bool) (sectors : List Nat) :
    (hazelRequests s c write sectors).flash = s.flash := by
  rfl

@[simp] theorem aheadSector_flash (c : Nat) (s : State) (sector : Nat) : (aheadSector c s sector).flash = s.flash := by simp [aheadSector]

@[simp] theorem rowsAhead_flash (c : Nat) (cmd : CrackerCommand) (r : TableRegion) (idx : List Nat) (s : State) :
    (rowsAhead c cmd r idx s).flash = s.flash := by
  simp [rowsAhead]

@[simp] theorem commandRan_flash (s : State) (c : Nat) (cmd : CrackerCommand) (requests : List (List Nat)) (remote : List RemoteRows) :
    (commandRan s c cmd requests remote).flash = s.flash := by
  simp [commandRan]

@[simp] theorem readSectors_flash (c a len : Nat) (s : State) : (readSectors c a len s).2.flash = s.flash := by simp [readSectors]
@[simp] theorem forgetNear_flash (c : Nat) (cmd : CrackerCommand) (s : State) : (forgetNear c cmd s).flash = s.flash := by simp [forgetNear]
@[simp] theorem readIndices_flash (c : Nat) (cmd : CrackerCommand) (s : State) : (readIndices c cmd s).2.flash = s.flash := by simp [readIndices]

@[simp] theorem writeNear_flash (c a : Nat) (l : List (Byte × Bool)) (s : State) : (writeNear c a l s).2.flash = s.flash := by
  grind [writeNear, accessSectors_flash, disturb_flash, lookupTags_flash, writeMarked_flash]

@[simp] theorem deliverRows_flash (c : Nat) (cmd : CrackerCommand) (rows : List (Nat × List (Byte × Bool))) (s : State) :
    (deliverRows c cmd rows s).2.flash = s.flash := by
  simp [deliverRows]

@[simp] theorem writeRow_flash (c a : Nat) (l : List (Byte × Bool)) (s : State) : (writeRow c a l s).2.flash = s.flash := by
  grind [writeRow, disturb_flash, lookupTags_flash, writeMarked_flash]

@[simp] theorem readRow_flash (c : Nat) (r : TableRegion) (row : Nat) (s : State) : (readRow c r row s).2.flash = s.flash := by simp [readRow]

@[simp] theorem askOwner_flash (s : State) (c regionNo : Nat) (r : TableRegion) (shard : Nat) (rows : List (Nat × Nat)) :
    (askOwner s c regionNo r shard rows).2.flash = s.flash := by
  unfold askOwner
  split <;> simp [onCracker_flash]

@[simp] theorem flatAhead_flash (c : Nat) (cmd : CrackerCommand) (idx : List Nat) (s : State) : (flatAhead c cmd idx s).flash = s.flash := by
  simp [flatAhead]

@[simp] theorem gradRows_flash (c : Nat) (cmd : CrackerCommand) (rowLen : Nat) (idx : List Nat) (s : State) :
    (gradRows c cmd rowLen idx s).2.flash = s.flash := by
  simp [gradRows]

@[simp] theorem accumulateRow_flash (s : State) (bn : Nat) (b : Binding) (rowLen m row : Nat) (values : List Nat) (poison : Bool) :
    (accumulateRow s bn b rowLen m row values poison).1.flash = s.flash := by
  grind [accumulateRow, disturb_flash, lookupTags_flash, onBinding_flash, readBytes_flash, writeMarked_flash]

@[simp] theorem sendInbound_flash (s : State) (c : Coll) (slot row : Nat) (deferred : Bool) (step : Nat) (values : List Nat) (poison : Bool) :
    (sendInbound s c slot row deferred step values poison).flash = s.flash := by
  simp [sendInbound]

@[simp] theorem placeInbound_flash (s : State) (bn offset : Nat) (l : List (Byte × Bool)) : (placeInbound s bn offset l).flash = s.flash := by
  grind [placeInbound, fabricWrite_flash, localFault_flash, onBinding_flash]

@[simp] theorem countInbound_flash (s : State) (bn : Nat) (p : Packet) : (countInbound s bn p).flash = s.flash := by rfl

@[simp] theorem sendDeferredRows_flash (s : State) (k : CollKey) (bn : Nat) (d : Deferred) : (sendDeferredRows s k bn d).flash = s.flash := by
  simp [sendDeferredRows]

@[simp] theorem exchangeRows_flash (s : State) (k : CollKey) (step : Nat) : (exchangeRows s k step).flash = s.flash := by
  unfold exchangeRows
  split
  · rfl
  · rename_i bn _
    extract_lets c own r
    split
    rename_i rows s0 e
    have h0 := partialRowsOf_flash s bn
    rw [e] at h0
    extract_lets s1 s2
    have h2 : s2.flash = s.flash := by
      simp only [s2]
      split
      · split_ifs <;> simpa [s1] using h0
      · simpa [s1] using h0
    clear_value s2
    split_ifs
    · refine (foldl_flash (fun t x => ?_) s2 rows).trans h2
      dsimp only
      rw [foldl_flash (fun t slot => sendInbound_flash t _ _ _ _ _ _ _)]
      split_ifs
      · exact poisonEscape_flash t
      · rfl
    · rwa [onFabric_flash, poisonEscape_flash]
    · rwa [onFabric_flash]
    · exact h2

@[simp] theorem inboundParts_flash (s : State) (bn : Nat) : (inboundParts s bn).2.flash = s.flash := by simp [inboundParts]
@[simp] theorem feedRow_flash (s : State) (bn row : Nat) : (feedRow s bn row).flash = s.flash := by rfl

@[simp] theorem servedBytes_flash (r : TableRegion) (l : List Nat) (s : State) : (servedBytes r l s).2.2.flash = s.flash := by
  induction l generalizing s with
  | nil => rfl
  | cons x l ih =>
    unfold servedBytes
    split <;> simp [ih]

@[simp] theorem serveRequest_flash (s : State) (p : Packet) (q : TableRequest) : (serveRequest s p q).flash = s.flash := by simp [serveRequest]
@[simp] theorem takeRequest_settle_flash (s : State) (p : Packet) : (takeRequest.settle s p).flash = s.flash := by simp [takeRequest.settle]

@[simp] theorem takeRequest_flash (s : State) (p : Packet) : (takeRequest s p).flash = s.flash := by
  unfold takeRequest
  dsimp only
  split <;> simp

@[simp] theorem serveHeld_flash (s : State) : (serveHeld s).flash = s.flash := by simp [serveHeld]

@[simp] theorem deliverRemote_flash (c : Nat) (x : RemoteRows) (offset : Nat) (l : List (Byte × Bool)) (s : State) :
    (deliverRemote c x offset l s).2.flash = s.flash := by
  unfold deliverRemote
  extract_lets first last
  have h := Got.each_flash (f := fun j t =>
      let lo := max offset (j * x.rowBytes)
      let hi := min (offset + l.length) ((j + 1) * x.rowBytes)
      let near := (x.rows.getD j (0, 0)).1
      writeNear c (near + (lo - j * x.rowBytes)) ((l.drop (lo - offset)).take (hi - lo)) t)
    (fun j t => writeNear_flash _ _ _ _)     ((List.range (last - first)).map (first + ·)) s
  split <;> rename_i e <;> rw [e] at h <;> exact h

@[simp] theorem clearCrackerCounters_flash (s : State) : (clearCrackerCounters s).flash = s.flash := by rfl

/-! ## Functions of Machine/Startup -/

@[simp] theorem unserviceable_flash (s : State) (arg : Nat) : (unserviceable s arg).flash = s.flash := by simp [unserviceable]
@[simp] theorem setBist_flash (s : State) (row n : Nat) : (setBist s row n).flash = s.flash := by rfl
@[simp] theorem mapTiles_flash (s : State) : (mapTiles s).flash = s.flash := by rfl

/-! ## Functions of Machine/StagedCheck -/

@[simp] theorem noteRefusal_flash (s : State) (f : Failure) (more : Nat) : (noteRefusal s f more).flash = s.flash := by simp [noteRefusal]

/-! ## Functions of Machine/Vector -/

@[simp] theorem readBankElem_flash (n block bank off : Nat) (s : State) : (readBankElem n block bank off s).2.flash = s.flash := by
  grind [readBankElem, readBankWord_flash]

@[simp] theorem readElem_flash (n block : Nat) (x : Tensor) (c : List Nat) (s : State) : (readElem n block x c s).2.flash = s.flash := by
  simp [readElem]

@[simp] theorem writeOuts_flash (n block : Nat) (o : Outs) (s : State) : (writeOuts n block o s).2.flash = s.flash := by
  simp [writeOuts, onTile_flash]

@[simp] theorem forgetTensor_flash (n : Nat) (x : Tensor) (s : State) : (forgetTensor n x s).flash = s.flash := by simp [forgetTensor]
@[simp] theorem readNum_flash (n wf : Nat) (x : Tensor) (c : List Nat) (s : State) : (readNum n wf x c s).2.flash = s.flash := by simp [readNum]

@[simp] theorem elementwiseResults_flash (n : Nat) (v : Vec) (x : Context) (s : State) : (elementwiseResults n v x s).2.flash = s.flash := by
  simp [elementwiseResults]

@[simp] theorem reductionResults_flash (n : Nat) (v : Vec) (s : State) : (reductionResults n v s).2.flash = s.flash := by simp [reductionResults]

@[simp] theorem addsrResults_flash (n : Nat) (v : Vec) (x : Context) (s : State) : (addsrResults n v x s).2.flash = s.flash :=
  Got.each_flash (fun c _ => Got.andThen_flash_of (readNum_flash n _ _ c _) fun _ _ =>
    Got.andThen_flash_of (readNum_flash n _ _ c _) fun _ _ => rfl) _ s

@[simp] theorem putPacked_flash (n : Nat) (dst : Tensor) (l : List (List Nat × Nat)) (poison : Bool) (o : Outs) (s : State) :
    (putPacked n dst l poison o s).2.flash = s.flash := by
  unfold putPacked
  split
  · rfl
  · refine Got.andThen_flash_of (Got.each_flash (fun b t => ?_) _ s) fun _ _ => rfl
    dsimp only
    split
    · rfl
    · exact Got.andThen_flash_of (readFor_flash _ _ _ _ _) fun _ _ => rfl

@[simp] theorem packBlock_flash (n : Nat) (v : Vec) (o : Outs) (c : List Nat) (s : State) : (packBlock n v o c s).2.flash = s.flash := by
  simp [packBlock]

@[simp] theorem packBlocks_flash (n : Nat) (v : Vec) (l : List (List Nat)) (o : Outs) (s : State) : (packBlocks n v l o s).2.flash = s.flash := by
  induction l generalizing o s with
  | nil => rfl
  | cons c l ih => simp [packBlocks, ih]

@[simp] theorem unpackResults_flash (n : Nat) (v : Vec) (s : State) : (unpackResults n v s).2.flash = s.flash :=
  Got.each_flash (fun _ _ => Got.andThen_flash_of (readElem_flash n 3 _ _ _) fun _ _ =>
    Got.andThen_flash_of (readElem_flash n 3 _ _ _) fun _ _ => rfl) _ s

@[simp] theorem updateOuts_flash (n : Nat) (v : Vec) (x : Context) (s : State) : (updateOuts n v x s).2.flash = s.flash :=
  Got.andThen_flash_of (readFor_flash _ _ _ _ _) fun _ t =>
    Got.andThen_flash_of
      (Got.each_flash (fun _ _ => Got.andThen_flash_of (readElem_flash n 3 _ _ _) fun _ _ =>
        Got.andThen_flash_of (Got.each_flash (fun _ _ => readElem_flash n 3 _ _ _) _ _) fun _ _ => rfl) _ t)
      fun _ _ => rfl

@[simp] theorem vectorOuts_flash (n : Nat) (v : Vec) (s : State) : (vectorOuts n v s).2.flash = s.flash := by simp [vectorOuts]
@[simp] theorem forgetDests_flash (n : Nat) (v : Vec) (s : State) : (forgetDests n v s).flash = s.flash := by simp [forgetDests]
@[simp] theorem countVector_flash (n : Nat) (v : Vec) (s : State) : (countVector n v s).flash = s.flash := by rfl

@[simp] theorem runVector_flash (n : Nat) (v : Vec) (s : State) : (runVector n v s).2.flash = s.flash := by
  have hr : (Got.andThen (vectorOuts n v s) fun o t => writeOuts n 3 o t).2.flash = s.flash :=
    Got.andThen_flash_of (vectorOuts_flash n v s) fun o t => writeOuts_flash n 3 o t
  unfold runVector
  split <;> rename_i e <;> rw [e] at hr
  · rw [forgetDests_flash, countVector_flash]
    exact hr
  · exact hr
  · dsimp only
    split
    · rw [forgetDests_flash, countVector_flash]
      exact hr
    · rw [countVector_flash]
      exact hr

/-! ## Functions of Machine/Training -/

@[simp] theorem readReduced_flash (s : State) (g : Group) (n : Nat) : (readReduced s g n).2.flash = s.flash := by simp [readReduced]
@[simp] theorem checkGroup_flash (s : State) (g : Group) : (checkGroup s g).2.2.2.flash = s.flash := by simp [checkGroup]
@[simp] theorem makeCheck_flash (s : State) (g : Group) : (makeCheck s g).flash = s.flash := by simp [makeCheck]
@[simp] theorem writeCoefficients_flash (s : State) : (writeCoefficients s).flash = s.flash := by simp [writeCoefficients]

@[simp] theorem readEach_flash (who : Initiator) (len : Nat) (l : List Nat) (s : State) : (readEach who len l s).2.flash = s.flash := by
  induction l generalizing s with
  | nil => rfl
  | cons a l ih => simp [readEach, ih]

@[simp] theorem readUpdate_flash (s : State) (g : Group) (gradAt n : Nat) (planes : List Nat) :
    (readUpdate s g gradAt n planes).2.flash = s.flash := by
  simp [readUpdate]

@[simp] theorem writeUpdated_flash (s : State) (who : Initiator) (l : List Updated) (planes : List Nat) :
    (writeUpdated s who l planes).flash = s.flash := by
  simp [writeUpdated]

@[simp] theorem denseReads_flash (s : State) (g : Group) : (denseReads s g).2.flash = s.flash := by simp [denseReads]

@[simp] theorem updateGroup_flash (s : State) (g : Group) : (updateGroup s g).1.flash = s.flash := by
  unfold updateGroup
  dsimp only
  split <;> simp

@[simp] theorem unhint_flash (s : State) (g : Nat) : (unhint s g).flash = s.flash := by rfl
@[simp] theorem dropEpochs_flash (s : State) (joined : List Nat) : (dropEpochs s joined).flash = s.flash := by simp [dropEpochs]

@[simp] theorem fixStagedSet_flash (s : State) : (fixStagedSet s).1.flash = s.flash := by
  unfold fixStagedSet
  dsimp only
  split <;> simp

@[simp] theorem discardStagedSet_flash (s : State) : (discardStagedSet s).flash = s.flash := by simp [discardStagedSet]

@[simp] theorem compareDigests_flash (s : State) (r : Summary) (included : Bool) : (compareDigests s r included).flash = s.flash := by
  simp [compareDigests]

@[simp] theorem decideSkip_flash (s : State) (r : Summary) (carrier : Nat) (included : Bool) : (decideSkip s r carrier included).flash = s.flash := by
  grind [decideSkip, compareDigests_flash, denseReads_flash, makeCheck_flash, onTrain_flash, onWork_flash, unhint_flash, updateGroup_flash]

@[simp] theorem tryDecide_flash (s : State) : (tryDecide s).flash = s.flash := by
  unfold tryDecide
  split <;> simp

@[simp] theorem gradientBytes_flash (s : State) : (gradientBytes s).2.flash = s.flash := by simp [gradientBytes]
@[simp] theorem compareTwins_flash (s : State) : (compareTwins s).flash = s.flash := by simp [compareTwins]
@[simp] theorem sendTwinDigest_flash (s : State) (summary : Summary) : (sendTwinDigest s summary).flash = s.flash := by simp [sendTwinDigest]

@[simp] theorem setStageState_flash (s : State) (g : Group) (i state row : Nat) : (setStageState s g i state row).flash = s.flash := by
  simp [setStageState]

@[simp] theorem writePlanes_flash (s : State) (g : Group) (i row : Nat) (planes : List Nat) : (writePlanes s g i row planes).flash = s.flash := by
  simp [writePlanes]

@[simp] theorem rowReads_flash (s : State) (g : Group) (rank row : Nat) : (rowReads s g rank row).2.flash = s.flash := by simp [rowReads]

@[simp] theorem writeBack14_flash (s : State) (g : Group) (slot row : Nat) (planes : List Nat) :
    (writeBack14 s g slot row planes).flash = s.flash := by
  simp [writeBack14]

@[simp] theorem resumeGroup_flash (s : State) (g : Group) : (resumeGroup s g).flash = s.flash := by simp [resumeGroup]
@[simp] theorem abortTile_flash (s : State) (n : Nat) (code : Code) : (abortTile s n code).flash = s.flash := by simp [abortTile]

@[simp] theorem abortStep_settleAccepted_flash (n : Nat) (t : State) : (abortStep.settleAccepted n t).flash = t.flash := by
  induction n generalizing t with
  | zero => rfl
  | succ n ih =>
    unfold abortStep.settleAccepted
    split
    · rfl
    · split <;> simp [ih]

@[simp] theorem abortStep_settleUnknown_flash (t : State) : (abortStep.settleUnknown t).flash = t.flash := by simp [abortStep.settleUnknown]

theorem abortStep_flash (s : State) (step : Nat) {t : State} (h : abortStep s step = .ok t) : t.flash = s.flash := by
  unfold abortStep at h
  split at h
  · cases h
  · cases h
    rw [settleFault_flash, onTrain_flash, abortStep_settleUnknown_flash, recordFault_flash]
    refine foldl_flash (fun t n => ?_) s _
    split
    · split_ifs
      · exact abortTile_flash _ _ _
      · rfl
    · rfl

@[simp] theorem clearSilent_flash (s : State) (g : Nat) : (clearSilent s g).flash = s.flash := by rfl

/-! ## Functions of Machine/Boundary -/

@[simp] theorem updateSilent_flash (s : State) : (updateSilent s).flash = s.flash := by simp [updateSilent]
@[simp] theorem writeSlotEntry_flash (s : State) (g : Group) : (writeSlotEntry s g).flash = s.flash := by simp [writeSlotEntry]
@[simp] theorem flipSlots_flash (s : State) : (flipSlots s).flash = s.flash := by simp [flipSlots]
@[simp] theorem freeStages_flash (s : State) : (freeStages s).flash = s.flash := by simp [freeStages]
@[simp] theorem welcomeGroups_flash (s : State) (old : Tab Byte) : (welcomeGroups s old).flash = s.flash := by simp [welcomeGroups]
@[simp] theorem startPartitions_flash (s : State) (old : List (Nat × Pinned)) : (startPartitions s old).flash = s.flash := by simp [startPartitions]
@[simp] theorem limitAllHints_flash (s : State) (old : Tab Byte) : (limitAllHints s old).flash = s.flash := by simp [limitAllHints]

@[simp] theorem applyStaged_flash (s : State) : (applyStaged s).flash = s.flash := by
  unfold applyStaged
  split <;> simp

@[simp] theorem applyEpochs_flash (s : State) (l : List EpochRecord) : (applyEpochs s l).flash = s.flash := by
  unfold applyEpochs
  split <;> simp

@[simp] theorem dropRemoved_flash (s : State) (old : List CommGroup) (carrier : Nat) : (dropRemoved s old carrier).flash = s.flash := by rfl
@[simp] theorem forgetTile_flash (s : State) (n : Nat) : (forgetTile s n).flash = s.flash := by rfl
@[simp] theorem emptySlice_flash (s : State) (i : Nat) : (emptySlice s i).flash = s.flash := by simp [emptySlice]

@[simp] theorem writeLog_flash (s : State) (step : Nat) (x : Nat × Nat × Nat × Nat × Nat) : (writeLog s step x).flash = s.flash := by
  unfold writeLog
  dsimp only
  rw [onFabric_flash, putThrough_flash]

@[simp] theorem countLate_flash (s : State) : (countLate s).flash = s.flash := by simp [countLate]
@[simp] theorem committedReads_flash (s : State) (g : Group) : (committedReads s g).2.flash = s.flash := by simp [committedReads]
@[simp] theorem planesOf_flash (s : State) (g : Group) : (planesOf s g).2.flash = s.flash := by simp [planesOf]

@[simp] theorem planesRecord_flash (s : State) (kind step : Nat) (g : Group) : (planesRecord s kind step g).2.flash = s.flash := by
  simp [planesRecord]

@[simp] theorem deltaRecord_flash (s : State) (step : Nat) (g : Group) : (deltaRecord s step g).2.flash = s.flash := by
  unfold deltaRecord
  split
  · exact planesRecord_flash _ _ _ _
  · dsimp only
    rw [foldl_snd_snd_flash]
    intro a row
    exact readEach_flash _ _ _ _

@[simp] theorem saveDelta_flash (s : State) (step : Nat) : (saveDelta s step).flash = s.flash := by simp [saveDelta, onResil_flash]
@[simp] theorem saveImage_flash (s : State) : (saveImage s).flash = s.flash := by simp [saveImage]

@[simp] theorem saveStep_flash (s : State) (step : Nat) (log : List Byte) : (saveStep s step log).flash = s.flash := by
  unfold saveStep
  dsimp only
  rw [saveImage_flash, saveDelta_flash, foldl_flash, saveRecord_flash]
  intro t g
  have hp := planesRecord_flash t 6 step g
  split <;> rename_i e <;> rw [e] at hp
  · exact (saveRecord_flash _ _).trans hp
  · exact hp

@[simp] theorem clearStep_flash (s : State) : (clearStep s).flash = s.flash := by
  simp [clearStep, onCracker_flash, onTrain_flash, onStack_flash, onFabric_flash, onResil_flash, onFront_flash]

@[simp] theorem commitOutcome_flash (s : State) (r : CommitRecord) : (commitOutcome s r).flash = s.flash := by simp [commitOutcome]
@[simp] theorem carryDeferred_flash (s : State) (step : Nat) : (carryDeferred s step).flash = s.flash := by rfl

@[simp] theorem takeTwinNow_flash (s : State) (kind step : Nat) (body : List Byte) : (takeTwinNow s kind step body).flash = s.flash := by
  simp [takeTwinNow]

@[simp] theorem takeEarlyTwin_flash (s : State) : (takeEarlyTwin s).flash = s.flash := by simp [takeEarlyTwin]

/-! ## Functions of Machine/Epochs -/

theorem acceptEpoch_flash (s : State) (l : List Byte) (applyAt : Nat) {t : State} (h : acceptEpoch s l applyAt = .ok t) : t.flash = s.flash := by
  grind [acceptEpoch, onFabric_flash]

/-! ## Functions of Machine/FrontEnd -/

@[simp] theorem portError_flash (s : State) (port : Nat) : (portError s port).flash = s.flash := by simp [portError]

@[simp] theorem resumePort_flash (s : State) (port : Nat) : (resumePort s port).flash = s.flash := by
  unfold resumePort
  dsimp only
  rw [foldl_flash emit_flash, onFront_flash]

@[simp] theorem retrainPort_flash (s : State) (port : Nat) : (retrainPort s port).flash = s.flash := by simp [retrainPort]
@[simp] theorem resetFePort_flash (s : State) (port : Nat) : (resetFePort s port).flash = s.flash := by simp [resetFePort]

@[simp] theorem sendNak_flash (s : State) (conn : Nat) (operational : Bool) (code : Code) : (sendNak s conn operational code).flash = s.flash := by
  simp [sendNak]

@[simp] theorem writeDoorbell_flash (s : State) (conn addr : Nat) (l : List Byte) : (writeDoorbell s conn addr l).flash = s.flash := by
  simp only [writeDoorbell]
  split
  · rw [onConn_flash]
  · split
    · rfl
    · rw [onFront_flash]

@[simp] theorem noteCe_flash (s : State) (conn : Nat) (ce : Bool) : (noteCe s conn ce).flash = s.flash := by simp [noteCe]
@[simp] theorem mergeRefused_flash (s : State) (conn addr : Nat) : (mergeRefused s conn addr).flash = s.flash := by simp [mergeRefused]

@[simp] theorem placeWords_flash (conn a : Nat) (l : List (Byte × Bool)) (n : Nat) (s : State) (w : Nat) :
    (placeWords conn a l n s w).1.flash = s.flash := by
  induction n generalizing s w with
  | zero => rfl
  | succ n ih => simp [placeWords, ih]

@[simp] theorem placeUnseen_flash (s : State) (conn : Nat) : (placeUnseen s conn).1.flash = s.flash := by
  grind [placeUnseen, accessSlices_flash, disturb_flash, lookupTags_flash, onConn_flash, placeWords_flash]

@[simp] theorem placeAll_flash (n : Nat) (s : State) (conn : Nat) : (placeAll n s conn).1.flash = s.flash := by
  induction n generalizing s with
  | zero => rfl
  | succ n ih => simp [placeAll, ih]

@[simp] theorem takeDoorbell_flash (s : State) (conn : Nat) : (takeDoorbell s conn).flash = s.flash := by
  unfold takeDoorbell
  split <;> simp

@[simp] theorem takeDoorbells_flash (n : Nat) (s : State) (conn : Nat) : (takeDoorbells n s conn).flash = s.flash := by
  induction n generalizing s with
  | zero => rfl
  | succ n ih => simp [takeDoorbells, ih]

@[simp] theorem serveRead_flash (s : State) (conn addr len : Nat) : (serveRead s conn addr len).1.flash = s.flash := by
  grind [serveRead, connError_flash, onConn_flash, onFront_flash, readThrough_flash, sendNak_flash, sendOn_flash]

theorem enableConn_flash (s : State) (conn : Nat) {t : State} (h : enableConn s conn = .ok t) : t.flash = s.flash := by
  grind [enableConn, onConn_flash, restartExports_flash]

@[simp] theorem resetConn_flash (s : State) (conn : Nat) : (resetConn s conn).flash = s.flash := by simp [resetConn]

theorem connControl_flash (s : State) (v : Nat) {t : State} (h : connControl s v = .ok t) : t.flash = s.flash := by
  grind [connControl, enableConn_flash, resetConn_flash]

theorem queueControl_flash (s : State) (v : Nat) {t : State} (h : queueControl s v = .ok t) : t.flash = s.flash := by
  grind [queueControl, disableQueue_flash, enableQueue_flash]

@[simp] theorem exportData_flash (s : State) (x : Export) : (exportData s x).2.1.flash = s.flash := by
  unfold exportData
  split <;> simp

@[simp] theorem exportSend_flash (s : State) (x : Export) : (exportSend s x).1.flash = s.flash := by
  grind [exportSend, egressSend_flash, exportData_flash, sendOn_flash]

@[simp] theorem clearFeCounters_flash (s : State) : (clearFeCounters s).flash = s.flash := by rfl

@[simp] theorem tellTile_flash (s : State) (n : Nat) (code : Code) : (tellTile s n code).flash = s.flash := by
  unfold tellTile
  split <;> simp

@[simp] theorem tellInitiator_flash (s : State) (who : Initiator) (detail addr : Nat) : (tellInitiator s who detail addr).flash = s.flash := by
  unfold tellInitiator
  split <;> simp

@[simp] theorem serveAccess_flash (s : State) (who : Initiator) (addr length : Nat) (write : Option (List Byte)) :
    (serveAccess s who addr length write).flash = s.flash := by
  unfold serveAccess
  split <;> simp

@[simp] theorem serveHeldAccesses_flash (s : State) (line : Nat) : (serveHeldAccesses s line).flash = s.flash := by simp [serveHeldAccesses]

@[simp] theorem placeFirst_flash (s : State) (conn n : Nat) : (placeFirst s conn n).flash = s.flash := by
  unfold placeFirst
  split <;> simp

/-! ## Functions of Machine/Recovery -/

@[simp] theorem loseMemory_flash (s : State) : (loseMemory s).flash = s.flash := by rfl
@[simp] theorem endWork_flash (s : State) : (endWork s).flash = s.flash := by rfl
@[simp] theorem returnEntries_flash (s : State) : (returnEntries s).flash = s.flash := by rfl
@[simp] theorem clearFrontEnd_flash (s : State) : (clearFrontEnd s).flash = s.flash := by rfl
@[simp] theorem loseDeferred_flash (s old : State) (r : RecoveryRecord) : (loseDeferred s old r).flash = s.flash := by rfl
@[simp] theorem resendRecords_flash (s : State) : (resendRecords s).flash = s.flash := by simp [resendRecords]

@[simp] theorem reportCommitted_flash (s : State) : (reportCommitted s).flash = s.flash := by
  unfold reportCommitted
  split <;> simp

/-! ## Functions of Machine/Filling -/

@[simp] theorem moveSlot_flash (s : State) (x : LedgerItems) (g : Group) : (moveSlot s x g).flash = s.flash := by simp [moveSlot]
@[simp] theorem takeLedger_flash (s : State) (x : LedgerItems) : (takeLedger s x).flash = s.flash := by simp [takeLedger]

@[simp] theorem sendCommitted_flash (s : State) (node : BitVec 24) : (sendCommitted s node).flash = s.flash := by
  unfold sendCommitted
  dsimp only
  rw [foldl_flash, sendRecord_flash]
  intro t g
  have hp := planesRecord_flash t 6 s.train.committed g
  split <;> rename_i e <;> rw [e] at hp
  · exact (sendRecord_flash _ _ _).trans hp
  · exact hp

@[simp] theorem serveBehind_flash (s : State) (c : Nat) : (serveBehind s c).flash = s.flash := by
  unfold serveBehind
  split <;> simp

@[simp] theorem serveFills_flash (s : State) (c : Nat) : (serveFills s c).flash = s.flash := by
  unfold serveFills
  split <;> simp

@[simp] theorem fillEnded_flash (s : State) : (fillEnded s).flash = s.flash := by simp [fillEnded]
@[simp] theorem runAgain_flash (s : State) : (runAgain s).flash = s.flash := by rfl

@[simp] theorem checkSources_flash (s : State) : (checkSources s).flash = s.flash := by
  unfold checkSources
  split <;> simp

@[simp] theorem sourceFailed_flash (s : State) (what arg : Nat) (source : BitVec 24) (sources : List (BitVec 24)) :
    (sourceFailed s what arg source sources).flash = s.flash := by
  simp [sourceFailed]

@[simp] theorem shardMismatch_flash (s : State) (group : Nat) (source : BitVec 24) : (shardMismatch s group source).flash = s.flash := by
  simp [shardMismatch]

@[simp] theorem placePlanes_flash (s : State) (g : Group) (l : List (Byte × Bool)) : (placePlanes s g l).flash = s.flash := by simp [placePlanes]

@[simp] theorem acceptShard_flash (s : State) (group : Nat) (source : BitVec 24) (step : Nat) :
    (acceptShard s group source step).flash = s.flash := by
  simp [acceptShard]

@[simp] theorem placeRows_flash (g : Group) (n : Nat) (s : State) (l : List (Byte × Bool)) : (placeRows g n s l).flash = s.flash := by
  induction n generalizing s l with
  | zero => rfl
  | succ n ih => simp [placeRows, ih]

@[simp] theorem applyRecord_flash (s : State) (r : Saved) : (applyRecord s r).flash = s.flash := by simp [applyRecord]
@[simp] theorem submitRecord_flash (s : State) (seq : Nat) : (submitRecord s seq).flash = s.flash := by simp [submitRecord]

@[simp] theorem replayElems_flash (x : Context) (coefs : Coefs) (stride base : Nat) (s : State) (l : List Nat) :
    (replayElems x coefs stride base s l).flash = s.flash := by
  induction l generalizing base s with
  | nil => rfl
  | cons v l ih => simp [replayElems, ih]

@[simp] theorem replayGroup_flash (s : State) (g : Group) (step : Nat) (ledger : LedgerItems) : (replayGroup s g step ledger).flash = s.flash := by
  simp [replayGroup]

@[simp] theorem replayEnded_flash (s : State) (ledger : LedgerItems) : (replayEnded s ledger).flash = s.flash := by simp [replayEnded]
@[simp] theorem askClients_flash (s : State) : (askClients s).flash = s.flash := by simp [askClients]

theorem resumeModule_flash (s : State) (v : Nat) {t : State} (h : resumeModule s v = .ok t) : t.flash = s.flash := by
  grind [resumeModule, askClients_flash, runAgain_flash]

/-! ## Functions of Machine/Mirror -/

@[simp] theorem restoreImage_flash (s : State) (l : List Byte) : (restoreImage s l).flash = s.flash := by rfl
@[simp] theorem ackRecord_flash (s : State) (node : BitVec 24) (header : List Byte) : (ackRecord s node header).flash = s.flash := by simp [ackRecord]

@[simp] theorem takeFill_flash (s : State) (r : Saved) : (takeFill s r).flash = s.flash := by
  unfold takeFill
  split <;> simp

@[simp] theorem takeRecord_flash (s : State) (node : BitVec 24) (l : List (Byte × Bool)) : (takeRecord s node l).flash = s.flash := by
  unfold takeRecord
  dsimp only
  split_ifs
  · rw [sourceFailed_flash]
  · rw [raise_flash]
  · rw [ackRecord_flash, onResil_flash]
  · rw [ackRecord_flash, takeFill_flash]
  · rfl
  · rw [ackRecord_flash, onResil_flash, placeIn_flash]

@[simp] theorem takeTwin_flash (s : State) (kind step : Nat) (body : List Byte) : (takeTwin s kind step body).flash = s.flash := by simp [takeTwin]
@[simp] theorem startTransfer_flash (s : State) : (startTransfer s).flash = s.flash := by simp [startTransfer, onResil_flash]
@[simp] theorem inputRecords_flash (s : State) : (inputRecords s).2.flash = s.flash := by simp [inputRecords]

@[simp] theorem copyToTwin_flash (s : State) : (copyToTwin s).flash = s.flash := by
  unfold copyToTwin
  extract_lets node c s1 s2 s3
  have h3 : s3.flash = s.flash := by
    simp only [s3]
    rw [foldl_flash, sendRecord_flash, sendRecord_flash]
    intro t g
    have hp := planesRecord_flash t 6 c g
    split <;> rename_i e <;> rw [e] at hp
    · exact (sendRecord_flash _ _ _).trans hp
    · exact hp
  clear_value s3
  dsimp only
  rw [foldl_flash (fun t r => sendRecord_flash t node r), inputRecords_flash, h3]

@[simp] theorem takeTwinImage_flash (s : State) (payload : List Byte) : (takeTwinImage s payload).flash = s.flash := by rfl

@[simp] theorem joinTwin_flash (s : State) (r : Saved) : (joinTwin s r).flash = s.flash := by
  unfold joinTwin
  split <;> simp

@[simp] theorem releaseLine_flash (s : State) (line : Nat) : (releaseLine s line).flash = s.flash := by rfl
@[simp] theorem lineFreed_flash (s : State) (line : Nat) : (lineFreed s line).flash = s.flash := by simp [lineFreed]
@[simp] theorem refuseHeld_flash (s : State) (line : Nat) : (refuseHeld s line).flash = s.flash := by simp [refuseHeld]

@[simp] theorem lineAnswer_flash (s : State) (node : BitVec 24) (a step : Nat) : (lineAnswer s node a step).2.2.flash = s.flash := by
  grind [lineAnswer, readThrough_flash]

/-! ## Functions of Machine/Ports -/

@[simp] theorem linkFault_flash (s : State) (port : Nat) (code : Code) : (linkFault s port code).flash = s.flash := by simp [linkFault]
@[simp] theorem sendNotice_flash (s : State) (ends : BitVec 24 × BitVec 24) : (sendNotice s ends).flash = s.flash := by simp [sendNotice]
@[simp] theorem loseTwinHop_flash (s : State) (port : Nat) : (loseTwinHop s port).flash = s.flash := by simp [loseTwinHop]

@[simp] theorem takeAnotherWay_flash (l : List OutFlit) (s : State) (n : Nat) : (takeAnotherWay l s n).flash = s.flash := by
  unfold takeAnotherWay
  dsimp only
  split <;> simp

@[simp] theorem dropRest_flash (s : State) (n : Nat) : (dropRest s n).flash = s.flash := by rfl
@[simp] theorem abortPassing_flash (s : State) (x : Passing) : (abortPassing s x).flash = s.flash := by simp [abortPassing]
@[simp] theorem loseOlder_flash (s : State) (node : BitVec 24) : (loseOlder s node).flash = s.flash := by simp [loseOlder]
@[simp] theorem failHop_flash (s : State) (port next : Nat) : (failHop s port next).flash = s.flash := by simp [failHop]
@[simp] theorem leaveUp_flash (s : State) (port next : Nat) : (leaveUp s port next).flash = s.flash := by simp [leaveUp]
@[simp] theorem applyPortMode_flash (s : State) (port : Nat) : (applyPortMode s port).flash = s.flash := by simp [applyPortMode]
@[simp] theorem raisePort_flash (s : State) (port state : Nat) : (raisePort s port state).flash = s.flash := by simp [raisePort]

@[simp] theorem finishTraining_flash (s : State) (port : Nat) (good : NatSet) (version : Nat) :
    (finishTraining s port good version).flash = s.flash := by
  simp [finishTraining]

@[simp] theorem takeHeader_flash (s : State) (port : Nat) (h : LinkHeader) : (takeHeader s port h).flash = s.flash := by
  unfold takeHeader
  dsimp only
  split
  · rw [foldl_flash (fun t f => emit_flash t _), onFabric_flash, onPort_flash]
  · rfl

@[simp] theorem arrivePacket_flash (s : State) (port vc : Nat) (bytes : List (Byte × Bool)) : (arrivePacket s port vc bytes).flash = s.flash := by
  simp [arrivePacket]

@[simp] theorem startPassing_flash (s : State) (port : Nat) (h : LinkHeader) (l : List (Byte × Bool)) (p : Packet) (out outVc : Nat) (detour : Bool) :
    (startPassing s port h l p out outVc detour).flash = s.flash := by
  simp [startPassing]

@[simp] theorem takePayload_flash (s : State) (port : Nat) (h : LinkHeader) (l : List Byte) : (takePayload s port h l).flash = s.flash := by
  grind [takePayload, arrivePacket_flash, onPort_flash, queueFlits_flash, returnCredits_flash, startPassing_flash]

@[simp] theorem refuseFlit_flash (s : State) (port : Nat) : (refuseFlit s port).flash = s.flash := by simp [refuseFlit]
@[simp] theorem countFec_flash (s : State) (port : Nat) (fec : List Nat) : (countFec s port fec).flash = s.flash := by rfl
@[simp] theorem clearFabricCounters_flash (s : State) : (clearFabricCounters s).flash = s.flash := by rfl

/-! ## Functions of Machine/PowerCtl -/

@[simp] theorem applyRamp_flash (s : State) : (applyRamp s).flash = s.flash := by simp [applyRamp]
@[simp] theorem tryRamp_flash (s : State) : (tryRamp s).flash = s.flash := by simp [tryRamp]
@[simp] theorem endDroop_flash (s : State) (rail mv : Nat) : (endDroop s rail mv).flash = s.flash := by rfl
@[simp] theorem controlSample_flash (s : State) : (controlSample s).flash = s.flash := by simp [controlSample]
@[simp] theorem readSensors_flash (s : State) (x : PowerReading) : (readSensors s x).flash = s.flash := by simp [readSensors]
@[simp] theorem degradeInterface_flash (s : State) (f : Nat) : (degradeInterface s f).flash = s.flash := by simp [degradeInterface]
@[simp] theorem cutInterface_flash (s : State) (f : Nat) : (cutInterface s f).flash = s.flash := by simp [cutInterface]

@[simp] theorem failTsv_flash (s : State) (f : Nat) (control : Bool) (tests : List Bool) : (failTsv s f control tests).flash = s.flash := by
  simp [failTsv]

@[simp] theorem countNamings_flash (s : State) (f : Nat) (failed : List TransferAttempt) (tests : List Bool) :
    (countNamings s f failed tests).flash = s.flash := by
  simp [countNamings]

@[simp] theorem failedTransfer_flash (s : State) (f used : Nat) (last : TransferAttempt) : (failedTransfer s f used last).flash = s.flash := by
  simp [failedTransfer]

@[simp] theorem decideTile_flash (s : State) (p : Nat) : (decideTile s p).flash = s.flash := by simp [decideTile]
@[simp] theorem clearPace_flash (s : State) : (clearPace s).flash = s.flash := by rfl
@[simp] theorem clearEnergy_flash (s : State) : (clearEnergy s).flash = s.flash := by rfl
@[simp] theorem clearThrottle_flash (s : State) : (clearThrottle s).flash = s.flash := by rfl
@[simp] theorem clearTemps_flash (s : State) : (clearTemps s).flash = s.flash := by rfl

/-! ## Functions of Machine/Security -/

theorem enterTest_flash (s : State) (v : Nat) {t : State} (h : enterTest s v = .ok t) : t.flash = s.flash := by grind [enterTest]

theorem openHello_flash (s : State) (l : List Byte) {t : State} {b} {c} (h : openHello s l = .ok (t, b, c)) : t.flash = s.flash := by
  grind [openHello, onDict_flash]

@[simp] theorem onSession_flash (s : State) (number : BitVec 64) (f : Session → Session) : (onSession s number f).flash = s.flash := by rfl
@[simp] theorem dropSession_flash (s : State) (number : BitVec 64) : (dropSession s number).flash = s.flash := by rfl
@[simp] theorem failProve_flash (s : State) (x : Session) : (failProve s x).flash = s.flash := by simp [failProve]

@[simp] theorem proveSession_flash (s : State) (x : Session) (l : List Byte) : (proveSession s x l).1.flash = s.flash := by
  grind [proveSession, failProve_flash, onSession_flash]

/-! ## Functions of Machine/Server -/

theorem acted_flash {key : Nat} {x : Except Code State} {t : State} (h : acted key x = .ok t) : x = .ok t := by
  unfold acted at h
  split at h
  · cases h; rfl
  · cases h

@[simp] theorem clearProtCounters_flash (s : State) : (clearProtCounters s).flash = s.flash := by rfl
@[simp] theorem ackEvents_flash (s : State) (v : Nat) : (ackEvents s v).flash = s.flash := by simp [ackEvents]
@[simp] theorem takeSnapshot_flash (s : State) : (takeSnapshot s).flash = s.flash := by rfl

theorem portResetWrite_flash (s : State) (v : Nat) {t : State} (h : portResetWrite s v = .ok t) : t.flash = s.flash := by
  grind [portResetWrite, resetFePort_flash]

@[simp] theorem rwAfter_flash (s : State) (key : Nat) (entries : List Nat) : (rwAfter s key entries).flash = s.flash := by
  unfold rwAfter
  split <;> simp

@[simp] theorem refusedWith_flash (s : State) (op : Nat) (r : Request) (c : Code) : (refusedWith s op r c).state.flash = s.flash := by rfl
@[simp] theorem removeBatch_flash (s : State) (session : BitVec 64) (number : Nat) : (removeBatch s session number).flash = s.flash := by rfl

@[simp] theorem holdPart_flash (s : State) (session : BitVec 64) (number applyAt : Nat) (p : Part) :
    (holdPart s session number applyAt p).flash = s.flash := by
  unfold holdPart
  split <;> simp

@[simp] theorem batchPart_flash (s : State) (x : Session) (op : Nat) (r : Request) (revert : Bool) :
    (batchPart s x op r revert).state.flash = s.flash := by
  grind [batchPart, holdPart_flash, refusedWith_flash]

@[simp] theorem abandonBatch_flash (s : State) (x : Session) (r : Request) : (abandonBatch s x r).state.flash = s.flash := by
  unfold abandonBatch
  split <;> simp

@[simp] theorem readRequest_flash (s : State) (r : Request) : (readRequest s r).state.flash = s.flash := by grind [readRequest, refusedWith_flash]

@[simp] theorem describeRequest_flash (s : State) (r : Request) : (describeRequest s r).state.flash = s.flash := by
  unfold describeRequest
  split <;> simp

@[simp] theorem enumerateRequest_flash (s : State) (r : Request) : (enumerateRequest s r).state.flash = s.flash := by
  unfold enumerateRequest
  split <;> simp

@[simp] theorem sessionRequest_flash (s : State) (r : Request) : (sessionRequest s r).state.flash = s.flash := by
  grind [sessionRequest, dropSession_flash, openHello_flash, proveSession_flash, refusedWith_flash]

@[simp] theorem performKept_touch_flash (s : State) (x : Session) : (performKept.touch s x).flash = s.flash := by simp [performKept.touch]
@[simp] theorem relayRequest_flash (s : State) (op : Nat) (r : Request) : (relayRequest s op r).flash = s.flash := by simp [relayRequest]

/-! ## Functions of Machine/Defaults -/

@[simp] theorem refuseImage_flash (s : State) (f : Refused) : (refuseImage s f).flash = s.flash := by simp [refuseImage]

@[simp] theorem takeDefaults_flash (s : State) (t : Tab Byte) (sources : Tab Nat) (running : Nat) :
    (takeDefaults s t sources running).flash = s.flash := by
  rfl

@[simp] theorem becomeReady_flash (s : State) : (becomeReady s).flash = s.flash := by simp [becomeReady, onResil_flash, onBoot_flash]

/-! ## Functions of Machine/Matrix -/

@[simp] theorem readStored_flash (n : Nat) (x : Operand) (i k : Nat) (s : State) : (readStored n x i k s).2.flash = s.flash := by
  refine Got.andThen_flash_of (readFor_flash _ _ _ _ _) fun b t => ?_
  dsimp only
  split
  · exact Got.andThen_flash_of (readFor_flash _ _ _ _ _) fun _ _ => rfl
  · rfl

@[simp] theorem readLine_flash (n profile : Nat) (x : Operand) (i : Nat)  (s : State) : (readLine n profile x i s).2.flash = s.flash :=
  Got.andThen_flash_of (Got.each_flash (fun k t => readStored_flash n x i k t) _ s) fun _ t =>
    Got.andThen_flash_of (Got.each_flash (fun _ u => Got.andThen_flash_of (readFor_flash _ _ _ _ u) fun _ _ => rfl) _ t) fun _ _ => rfl

@[simp] theorem startValue_flash (n : Nat) (m : Mat) (off : Nat) (s : State) : (startValue n m off s).2.flash = s.flash := by
  grind [startValue, readBankWord_flash]

@[simp] theorem matmulOuts_flash (n : Nat) (m : Mat) (x : Context) (s : State) : (matmulOuts n m x s).2.flash = s.flash :=
  Got.andThen_flash_of (Got.each_flash (fun _ t => readLine_flash n _ m.a _ t) _ s) fun _ t =>
    Got.andThen_flash_of (Got.each_flash (fun _ u => readLine_flash n _ m.b _ u) _ t) fun _ u =>
      Got.andThen_flash_of (Got.each_flash (fun _ v => Got.andThen_flash_of (startValue_flash n m _ v) fun _ _ => rfl) _ u) fun _ _ => rfl

@[simp] theorem countMatmul_flash (n : Nat) (m : Mat) (s : State) : (countMatmul n m s).flash = s.flash := by rfl
@[simp] theorem forgetRegion_flash (n : Nat) (m : Mat) (s : State) : (forgetRegion n m s).flash = s.flash := by rfl

@[simp] theorem runMatmul_flash (n : Nat) (m : Mat) (s : State) : (runMatmul n m s).2.flash = s.flash := by
  grind [runMatmul, countMatmul_flash, forgetRegion_flash, matmulOuts_flash, writeBankElems_flash]

/-! ## Functions of Machine/Requests -/

@[simp] theorem returnReply_flash (s : State) (y : Reply) : (returnReply s y).flash = s.flash := by
  unfold returnReply
  split <;> simp

/-! ## Functions of Machine/Scrub -/

@[simp] theorem scrubNote_flash (s : State) (a store kind : Nat) : (scrubNote s a store kind).flash = s.flash := by rfl
@[simp] theorem scrubRow_flash (s : State) (a store : Nat) : (scrubRow s a store).flash = s.flash := by simp [scrubRow]

@[simp] theorem scrubMemory_flash (s0 : State) (a store : Nat) : (scrubMemory s0 a store).flash = s0.flash := by
  grind [scrubMemory, holdLine_flash, lookupTags_flash, onProt_flash, scrubNote_flash, scrubRow_flash]

@[simp] theorem scrubHusk_flash (s : State) (copy : Nat) : (scrubHusk s copy).flash = s.flash := by
  unfold scrubHusk
  dsimp only
  split <;> simp

@[simp] theorem scrubWord_flash (s : State) (x : ScrubWord) (store : Nat) : (scrubWord s x store).flash = s.flash := by
  unfold scrubWord
  split <;> simp

@[simp] theorem endScrubPass_flash (s : State) (store : Nat) : (endScrubPass s store).flash = s.flash := by rfl

/-! ## Functions of Machine/Streams -/

@[simp] theorem streamTensor_flash (n : Nat) (t : Tile) (pointer : Nat) (s : State) : (streamTensor n t pointer s).2.flash = s.flash :=
  Got.andThen_flash_of (fetch64_flash n _ s) fun v u => by split <;> rfl

@[simp] theorem moveElems_flash (n es : Nat) (l : List (Option Nat × Nat)) (b : Bundle) (s : State) :
    (moveElems n es l b s).2.flash = s.flash := by
  induction l generalizing b s with
  | nil => rfl
  | cons e l ih =>
    obtain ⟨_ | a, d⟩ := e
    · exact ih _ s
    · have hr := readFor_flash (.pip n) 4 a es s
      unfold moveElems
      split <;> rename_i e <;> rw [e] at hr
      · exact (ih _ _).trans hr
      · exact hr
      · exact hr

@[simp] theorem moveRows_flash (n : Nat) (x : Stream) (l : List (List Nat)) (b : Bundle) (s : State) :
    (moveRows n x l b s).2.flash = s.flash := by
  induction l generalizing b s with
  | nil => rfl
  | cons c l ih => grind [moveRows, readFor_flash, moveElems_flash]

@[simp] theorem moveStream_flash (n : Nat) (x : Stream) (s : State) : (moveStream n x s).2.flash = s.flash := by
  unfold moveStream
  split <;> simp

@[simp] theorem aheadLine_flash (n line : Nat) (s : State) : (aheadLine n line s).flash = s.flash := by simp [aheadLine]
@[simp] theorem runAhead_flash (n : Nat) (x : Stream) (s : State) : (runAhead n x s).flash = s.flash := by simp [runAhead]
@[simp] theorem forgetMoved_flash (n : Nat) (b : Bundle) (s : State) : (forgetMoved n b s).flash = s.flash := by rfl
@[simp] theorem countStream_flash (n bytes : Nat) (s : State) : (countStream n bytes s).flash = s.flash := by rfl

@[simp] theorem runStream_flash (n ch : Nat) (x : Stream) (s : State) : (runStream n ch x s).2.flash = s.flash := by
  have hm : (moveStream n x (runAhead n x s)).2.flash = s.flash := by rw [moveStream_flash, runAhead_flash]
  unfold runStream
  split
  · rfl
  · split <;> rename_i e <;> rw [e] at hm
    · exact hm
    · rw [forgetMoved_flash]
      exact hm
    · next b t =>
      have hw := (writeFor_flash (.pip n) 4 b t).trans hm
      split <;> rename_i e <;> rw [e] at hw
      · rw [countStream_flash]
        exact hw
      · rw [forgetMoved_flash]
        exact hw
      · exact hw

@[simp] theorem haltStream_flash (n ch : Nat) (c : Code) (s : State) : (haltStream n ch c s).2.flash = s.flash := by
  unfold haltStream
  split <;> simp

end Sys2Proof.Machine
end

section
/-! What flash holds is not taken back (R344, R346, R349, R358): the order of flash contents, and the functions that add to them: starts and
resets, retirements, images, built-in tests, boundaries -/

namespace Sys2Proof.Machine

open Sys2Proof

/-- Flash `g` holds on to what flash `f` holds: floor, signing counter and count of resets have not fallen, no retirement is undone, and
the unit data are the same (R344, R346, R349, R358). -/
def flashLe (f g : Flash) : Prop :=
  f.floor ≤ g.floor ∧ (∀ r ∈ f.retirements, r ∈ g.retirements) ∧ max f.sigA.2 f.sigB.2 ≤ max g.sigA.2 g.sigB.2 ∧ f.resets ≤ g.resets ∧
    g.mgmtMac = f.mgmtMac ∧ g.activeCount = f.activeCount

@[simp] theorem flashLe_refl (f : Flash) : flashLe f f := ⟨le_rfl, fun _ h => h, le_rfl, le_rfl, rfl, rfl⟩

theorem flashLe_trans {f g h : Flash} (h₁ : flashLe f g) (h₂ : flashLe g h) : flashLe f h := by
  obtain ⟨a₁, b₁, c₁, d₁, e₁, i₁⟩ := h₁
  obtain ⟨a₂, b₂, c₂, d₂, e₂, i₂⟩ := h₂
  exact ⟨a₁.trans a₂, fun r hr => b₂ r (b₁ r hr), c₁.trans c₂, d₁.trans d₂, e₂.trans e₁, i₂.trans i₁⟩

/-- Whatever state the command leaves, its flash holds on to what that of `s` holds. -/
def remembers (s : State) (o : Host.Outcome State Fault Refusal) : Prop := ∀ t, o = .next t → flashLe s.flash t.flash

@[simp] theorem remembers_next {s t : State} : remembers s (.next t) ↔ flashLe s.flash t.flash := by
  refine ⟨fun h => h t rfl, fun h u hu => ?_⟩
  cases hu
  exact h

@[simp] theorem remembers_done {s t : State} : remembers s (done s t) ↔ flashLe s.flash t.flash := by
  rw [done, remembers_next, noteChanges_flash]

@[simp] theorem remembers_restarted {s t : State} : remembers s (restarted s t) ↔ flashLe s.flash t.flash := remembers_next

@[simp] theorem remembers_ite {s : State} {c : Prop} [Decidable c] {a b : Host.Outcome State Fault Refusal} :
    remembers s (if c then a else b) ↔ (c → remembers s a) ∧ (¬ c → remembers s b) := by
  split <;> simp [*]

theorem flashLe_of_eq {f g : Flash} (h : g = f) : flashLe f g := h ▸ flashLe_refl _

/-- A command that only appends to what flash holds appends in every step of a loop. -/
theorem foldl_flashLe {α : Type} {f : State → α → State} (hf : ∀ t x, flashLe t.flash (f t x).flash) (s : State) (l : List α) :
    flashLe s.flash (l.foldl f s).flash := by
  induction l generalizing s with
  | nil => exact flashLe_refl _
  | cons x l ih => exact flashLe_trans (hf s x) (ih _)

/-! ## Starts, stops and resets -/

theorem startState_flashLe (s : State) (mv : Nat) : flashLe s.flash (startState s mv).flash := by
  simp [startState, flashLe]

theorem stoppedState_flash (s : State) (v36 present low : Bool) (mv : Nat) : (stoppedState s v36 present low mv).flash = s.flash := by
  rfl

theorem startOrStay_flashLe (s : State) (v36 present low : Bool) (mv : Nat) : flashLe s.flash (startOrStay s v36 present low mv).flash := by
  unfold startOrStay
  split
  · dsimp only
    split
    · rw [raise_flash, onPower_flash]
      exact startState_flashLe s mv
    · exact startState_flashLe s mv
  · exact flashLe_of_eq (stoppedState_flash s _ _ _ mv)

theorem stackResetWith_flashLe (s : State) (cause : Nat) (code : Code) : flashLe s.flash (stackResetWith s cause code).flash := by
  unfold stackResetWith
  dsimp only
  rw [raise_flash, onResil_flash, onPower_flash]
  refine flashLe_trans ?_ (startState_flashLe _ _)
  split
  · exact flashLe_refl _
  · simp [flashLe]

theorem resetStack_remembers (s : State) (cause : Nat) (code : Code) : remembers s (resetStack s cause code) := by
  simp [resetStack, stackResetWith_flashLe]

/-! ## Retirements (R346) -/

theorem mem_foldl_append_new {l : List Retirement} {a : List Retirement} {r : Retirement} (h : r ∈ a) :
    r ∈ l.foldl (fun a r => if a.contains r then a else a ++ [r]) a := by
  induction l generalizing a with
  | nil => exact h
  | cons x l ih =>
    refine ih ?_
    dsimp only
    split
    · exact h
    · exact List.mem_append_left _ h

theorem logRetirements_flashLe (s : State) (l : List Retirement) : flashLe s.flash (logRetirements s l).flash :=
  ⟨le_rfl, fun _ h => mem_foldl_append_new h, le_rfl, le_rfl, rfl, rfl⟩

theorem retireTile_flashLe (s : State) (p : Nat) : flashLe s.flash (retireTile s p).flash := by
  unfold retireTile
  extract_lets k s1
  have h1 : flashLe s.flash s1.flash := logRetirements_flashLe (s.onStack _) _
  clear_value s1
  split
  · exact flashLe_refl _
  · split
    · exact h1
    · split
      · rw [forgetTile_flash, onStack_flash]
        exact h1
      · simpa using h1

theorem retireSliceNow_flashLe (s : State) (i : Nat) : flashLe s.flash (retireSliceNow s i).flash := by
  unfold retireSliceNow
  split
  · exact flashLe_refl _
  · have hempty := flashLe_of_eq (emptySlice_flash s i)
    extract_lets s1
    change flashLe s.flash s1.flash at hempty
    clear_value s1
    dsimp only
    split
    · rw [stopModule_flash, raise_flash]
      exact flashLe_trans hempty (logRetirements_flashLe _ _)
    · split
      · rw [stopModule_flash, raise_flash]
        exact flashLe_trans hempty (logRetirements_flashLe _ _)
      · rw [foldl_flash fun t e => by rw [displaceLines_flash, limitHints_flash]]
        exact flashLe_trans hempty (logRetirements_flashLe _ _)

theorem logLosses_flashLe (s : State) : flashLe s.flash (logLosses s).flash := logRetirements_flashLe s _

theorem applyRetirements_flashLe (s : State) (tiles slices : NatSet) : flashLe s.flash (applyRetirements s tiles slices).flash := by
  unfold applyRetirements
  split
  · exact flashLe_refl _
  · exact flashLe_trans (foldl_flashLe retireTile_flashLe s _) (flashLe_trans (foldl_flashLe retireSliceNow_flashLe _ _) (logLosses_flashLe _))

/-! ## Images (R347 to R350) -/

theorem setCopyState_flashLe (s : State) (copy st : Nat) : flashLe s.flash (setCopyState s copy st).flash := by
  simp [setCopyState, flashLe]

theorem skipCopy_flashLe (s : State) (copy : Nat) : flashLe s.flash (skipCopy s copy).flash := by
  unfold skipCopy
  split
  · exact flashLe_refl _
  · rw [raise_flash]
    exact setCopyState_flashLe s copy 2

theorem chooseCopy_flashLe (l : List Nat) (s : State) : flashLe s.flash (chooseCopy l s).2.flash := by
  induction l generalizing s with
  | nil => exact flashLe_refl _
  | cons c l ih =>
    unfold chooseCopy
    split
    · split
      · refine flashLe_trans ?_ (ih _)
        rw [← raise_flash s 0x07130E05 c]
        exact skipCopy_flashLe _ c
      · exact setCopyState_flashLe s c 1
    · exact flashLe_trans (skipCopy_flashLe s c) (ih _)

theorem execRomVerify_remembers (s : State) : remembers s (execRomVerify s) := by
  unfold execRomVerify
  split
  · simp
  · have h := chooseCopy_flashLe (if s.flash.bootSelect = 0 then [0, 1] else [1, 0]) s
    dsimp only
    split <;> rename_i e <;> rw [e] at h <;> simpa using h

theorem execHazelBoot_remembers (s : State) : remembers s (execHazelBoot s) := by
  unfold execHazelBoot
  split
  · simp
  · have h := chooseCopy_flashLe (if s.flash.userSelect = 0 then [2, 3] else [3, 2]) s
    dsimp only
    rw [remembers_done, onBoot_flash]
    split
    · rw [raise_flash, onBoot_flash]
      exact h
    · exact h

/-! ## Built-in test (R354) -/

theorem bistSlice_flashLe (s : State) (i : Nat) : flashLe s.flash (bistSlice s i).1.flash := by
  unfold bistSlice
  dsimp only
  split
  · exact logRetirements_flashLe _ _
  · rw [raise_flash]
    exact logRetirements_flashLe _ _

theorem bistSlices_flashLe (l : List Nat) (s : State) : flashLe s.flash (bistSlices l s).1.flash := by
  induction l generalizing s with
  | nil => exact flashLe_refl _
  | cons i l ih => exact flashLe_trans (bistSlice_flashLe s i) (ih _)

theorem bistTile_flashLe (s : State) (p : Nat) (code : Code) : flashLe s.flash (bistTile s p code).flash := by
  unfold bistTile
  split
  · exact flashLe_refl _
  · rw [raise_flash]
    exact logRetirements_flashLe _ _

theorem bistInterface_flashLe (s : State) (f n : Nat) : flashLe s.flash (bistInterface s f n).1.flash := by
  unfold bistInterface
  extract_lets left s1 s2 s3
  have h2 : flashLe s.flash s2.flash := by
    simp only [s2, raise_flash]
    exact logRetirements_flashLe (s1.onStack _) _
  have h3 : flashLe s.flash s3.flash := by
    simp only [s3]
    split
    · exact flashLe_trans h2 (logRetirements_flashLe _ _)
    · exact h2
  split
  · exact flashLe_refl _
  · exact flashLe_trans h3 (bistSlices_flashLe _ _)

theorem bistInterfaces_flashLe (l : List (Nat × Nat)) (s : State) : flashLe s.flash (bistInterfaces l s).1.flash := by
  induction l generalizing s with
  | nil => exact flashLe_refl _
  | cons e l ih => exact flashLe_trans (bistInterface_flashLe s e.1 e.2) (ih _)

theorem bistMarch_flashLe (l : List Nat) (s : State) : flashLe s.flash (bistMarch l s).1.flash := by
  induction l generalizing s with
  | nil => exact flashLe_refl _
  | cons i l ih =>
    unfold bistMarch
    split
    · exact ih s
    · refine flashLe_trans (bistSlice_flashLe s i) ?_
      dsimp only
      rw [← raise_flash (bistSlice s i).1 0x08060E14 i]
      exact ih _

theorem bistTests_flashLe (s : State) (found : BistFinding) : flashLe s.flash (bistTests s found).1.flash := by
  unfold bistTests
  dsimp only
  refine flashLe_trans ?_ (bistMarch_flashLe _ _)
  rw [setBist_flash]
  refine flashLe_trans ?_ (foldl_flashLe (fun t p => bistTile_flashLe t p _) _ _)
  rw [setBist_flash]
  refine flashLe_trans ?_ (foldl_flashLe (fun t p => bistTile_flashLe t p _) _ _)
  rw [setBist_flash]
  refine flashLe_trans ?_ (foldl_flashLe (fun t p => flashLe_trans (logRetirements_flashLe (t.onStack _) _) (bistTile_flashLe _ p _)) _ _)
  rw [setBist_flash]
  exact bistInterfaces_flashLe _ (setBist s 1 _)

theorem execBuiltInTest_remembers (found : BistFinding) (s : State) : remembers s (execBuiltInTest found s) := by
  unfold execBuiltInTest
  split
  · simp
  · have h (t : State) (ht : t.flash = s.flash) : flashLe s.flash (bistTests t found).1.flash := ht ▸ bistTests_flashLe t found
    dsimp only
    split
    · rw [remembers_done, unserviceable_flash, mapTiles_flash, setBist_flash]
      exact flashLe_refl _
    · split
      · rw [remembers_done, onBoot_flash, mapTiles_flash]
        exact h _ rfl
      · rw [remembers_done, unserviceable_flash, mapTiles_flash]
        exact h _ rfl

theorem bistChannel_flashLe (s : State) (c : Nat) : flashLe s.flash (bistChannel s c).1.flash := by
  unfold bistChannel
  split
  · exact flashLe_refl _
  · split
    · exact flashLe_of_eq (raise_flash s _ _)
    · rw [raise_flash]
      exact logRetirements_flashLe (s.onProt _) _

theorem bistChannels_flashLe (l : List Nat) (s : State) : flashLe s.flash (bistChannels l s).1.flash := by
  induction l generalizing s with
  | nil => exact flashLe_refl _
  | cons c l ih => exact flashLe_trans (bistChannel_flashLe s c) (ih _)

theorem bistHbm_flashLe (s : State) (found : HbmFinding) : flashLe s.flash (bistHbm s found).1.flash := by
  unfold bistHbm
  dsimp only
  rw [foldl_flash fun t r => onProt_flash t _, setBist_flash]
  exact bistChannels_flashLe _ (setBist s 6 _)

theorem execHbmTraining_remembers (found : HbmFinding) (s : State) : remembers s (execHbmTraining found s) := by
  unfold execHbmTraining
  split
  · simp
  · have h := bistHbm_flashLe s found
    dsimp only
    split
    · rw [remembers_done, onBoot_flash, foldl_flash fun t e => onDict_flash t _]
      exact h
    · rw [remembers_done, unserviceable_flash, foldl_flash fun t e => onDict_flash t _]
      exact h

/-! ## Power -/

theorem execConverterFail_remembers (converter : Nat) (s : State) : remembers s (execConverterFail converter s) := by
  unfold execConverterFail
  split
  · simp
  · dsimp only
    split
    · simp
    · simp
    · rw [remembers_restarted, stoppedState_flash]
      exact flashLe_refl _

theorem execThermalTrip_remembers (s : State) : remembers s (execThermalTrip s) := by
  unfold execThermalTrip
  split
  · simp
  · dsimp only
    split
    · rw [remembers_restarted]
      refine flashLe_trans ?_ (stackResetWith_flashLe _ 3 0)
      simp [flashLe]
    · simp

/-! ## Boundaries of steps and of recoveries -/

theorem runBoundary_flashLe (s : State) (periods : Nat) : flashLe s.flash (runBoundary s periods).flash := by
  unfold runBoundary
  dsimp only
  rw [takeEarlyTwin_flash, serveHeld_flash, settleAll_flash, onResil_flash, saveStep_flash, releaseAll_flash, clearStep_flash, onTrain_flash]
  refine flashLe_trans ?_ (applyRetirements_flashLe _ _ _)
  rw [dropRemoved_flash, applyEpochs_flash, applyStaged_flash, carryDeferred_flash, foldl_flash fun t x => writeLog_flash t _ x,
    countLate_flash, commitOutcome_flash]
  exact flashLe_refl _

theorem recoveryBoundary_flashLe (s : State) (r : RecoveryRecord) : flashLe s.flash (recoveryBoundary s r).flash := by
  unfold recoveryBoundary
  extract_lets s0 failed escaped kept s1 s2 s3 s4 s5 s6 s7 s8
  have h3 : s3.flash = s.flash := by
    simp only [s3, s2, s1, loseDeferred_flash, onResil_flash, onFabric_flash, onTrain_flash, clearStep_flash, endWork_flash,
      freeStages_flash]
    exact foldl_flash (fun t e => raise_flash t _ _) s _
  have h5 : flashLe s.flash s5.flash := by
    simp only [s5, s4, onProt_flash]
    exact h3 ▸ flashLe_trans (applyRetirements_flashLe s3 _ _) (logRetirements_flashLe _ _)
  clear_value s5
  have h6 : s6.flash = s5.flash := by
    simp only [s6]
    split <;> simp
  simp only [settleAll_flash, reportCommitted_flash, resendRecords_flash, s8, exportDue_flash, onResil_flash, s7, onTrain_flash, h6]
  exact h5

theorem execStepBoundary_remembers (durationPeriods : Nat) (s : State) : remembers s (execStepBoundary durationPeriods s) := by
  have h := runBoundary_flashLe s durationPeriods
  unfold execStepBoundary
  split
  · simp
  · dsimp only
    split
    · exact remembers_done.2 h
    · split
      · exact remembers_done.2 (flashLe_trans h (recoveryBoundary_flashLe _ _))
      · rw [remembers_done, raise_flash, onResil_flash]
        exact h

theorem writeRecovery_flashLe (s : State) (l : List Byte) {t : State} (h : writeRecovery s l = .ok t) : flashLe s.flash t.flash := by
  unfold writeRecovery at h
  split at h
  · cases h
  · cases h
    split
    · exact flashLe_refl _
    · exact recoveryBoundary_flashLe s _

end Sys2Proof.Machine
end

section
/-! What flash holds is not taken back by a request: images, reports, writes, batches, sessions and relayed requests (R325 to R331, R351,
R358) -/

namespace Sys2Proof.Machine

open Sys2Proof

/-! ## Images and reports (R349, R351, R358) -/

theorem setCopy_flashLe (s : State) (c : Nat) (x : FlashCopy) : flashLe s.flash (setCopy s c x).flash := by
  simp [setCopy, flashLe]

theorem writeUploadTarget_flashLe (s : State) (v : Nat) : flashLe s.flash (writeUploadTarget s v).flash := by
  unfold writeUploadTarget
  dsimp only
  split
  · exact setCopy_flashLe (s.onBoot _) _ _
  · exact flashLe_refl _

theorem uploadBytes_flashLe (s : State) (off : Nat) (l : List Byte) {t : State} (h : uploadBytes s off l = .ok t) :
    flashLe s.flash t.flash := by
  unfold uploadBytes at h
  split at h
  · cases h
  · split at h
    · cases h
    · split at h
      · cases h
      · cases h
        exact setCopy_flashLe s _ _

theorem verifyUpload_flashLe (s : State) {t : State} (h : verifyUpload s = .ok t) : flashLe s.flash t.flash := by
  unfold verifyUpload at h
  split at h
  · cases h
  · split at h
    · cases h
      exact setCopyState_flashLe s _ 1
    · cases h
      rw [raise_flash]
      exact setCopyState_flashLe s _ 2

theorem commitFloor_flashLe (s : State) : flashLe s.flash (commitFloor s).flash := by
  unfold commitFloor
  split
  · exact flashLe_refl _
  · simp [flashLe]

theorem reserveIndices_flashLe (f : Flash) : flashLe f (reserveIndices f) := by
  unfold reserveIndices
  dsimp only
  split <;> refine ⟨le_rfl, fun _ h => h, ?_, le_rfl, rfl, rfl⟩ <;> dsimp only <;> omega

theorem requestReport_flashLe (s : State) (nonce : List Byte) {t : State} (h : requestReport s nonce = .ok t) : flashLe s.flash t.flash := by
  unfold requestReport at h
  split at h
  · cases h
  · extract_lets s1 at h
    have h1 : flashLe s.flash s1.flash := by
      simp only [s1]
      split
      · exact reserveIndices_flashLe s.flash
      · exact flashLe_refl _
    clear_value s1
    split at h
    · cases h
      rwa [raise_flash]
    · cases h
      exact h1

theorem rerunTests_flashLe (s : State) (found : Findings) : flashLe s.flash (rerunTests s found).flash := by
  have h (t u : State) (l : List Nat) (hu : u.flash = (bistHbm (bistTests t found.1).1 found.2).1.flash) (ht : t.flash = s.flash) :
      flashLe s.flash (l.foldl retireTile u).flash := by
    refine flashLe_trans ?_ (foldl_flashLe retireTile_flashLe u l)
    rw [hu, ← ht]
    exact flashLe_trans (bistTests_flashLe t found.1) (bistHbm_flashLe _ _)
  unfold rerunTests
  dsimp only
  split
  · exact h _ _ _ (onStack_flash _ _) rfl
  · rw [stopModule_flash]
    exact h _ _ _ (onStack_flash _ _) rfl

theorem requestMargin_flashLe (s : State) (found : Findings) (l : List Byte) {t : State} (h : requestMargin s found l = .ok t) :
    flashLe s.flash t.flash := by
  unfold requestMargin at h
  split at h
  · cases h
    exact rerunTests_flashLe s found
  · split at h
    · cases h
    · cases h
      exact flashLe_refl _

/-! ## Writes (R325) -/

theorem boolAction_flashLe (s : State) (key : Nat) {t : State} (h : boolAction s key = .ok t) : flashLe s.flash t.flash := by
  unfold boolAction at h
  split at h
  case h_1 => cases h; exact commitFloor_flashLe s
  case h_2 => exact verifyUpload_flashLe s h
  all_goals
    cases h
    simp

theorem woAction_flashLe (found : Findings) (s : State) (o : Obj) (off : Nat) (data : List Byte) (applyAt : Nat) {t : State}
    (h : woAction found s o off data applyAt = .ok t) : flashLe s.flash t.flash := by
  unfold woAction at h
  dsimp only at h
  have h := acted_flash h
  split at h
  · split at h
    · exact boolAction_flashLe s _ h
    · cases h
      exact flashLe_refl _
  · split at h
    · cases h; simp
    · exact uploadBytes_flashLe s off data h
    · exact flashLe_of_eq (abortStep_flash s _ h)
    · cases h; simp
    · exact flashLe_of_eq (acceptEpoch_flash s _ _ h)
    · exact flashLe_of_eq (portResetWrite_flash s _ h)
    · exact flashLe_of_eq (connControl_flash s _ h)
    · exact flashLe_of_eq (queueControl_flash s _ h)
    · exact writeRecovery_flashLe s data h
    · exact flashLe_of_eq (resumeModule_flash s _ h)
    · cases h; simp
    · exact requestReport_flashLe s data h
    · exact requestMargin_flashLe s found data h
    · cases h; exact flashLe_refl _

theorem typedWrite_flashLe (s : State) (key off : Nat) (data : List Byte) {t : State} (h : typedWrite s key off data = .ok t) :
    flashLe s.flash t.flash := by
  unfold typedWrite at h
  dsimp only at h
  split at h
  · cases h; simp [flashLe]
  · cases h; simp [flashLe]
  · cases h; exact writeUploadTarget_flashLe s _
  · split at h
    · cases h; simp [flashLe]
    · cases h
  · split at h
    · cases h; exact flashLe_refl _
    · exact flashLe_of_eq (enterTest_flash s _ h)

theorem rwWrite_flashLe (s : State) (o : Obj) (off : Nat) (data : List Byte) (source : Nat) {t : State}
    (h : rwWrite s o off data source = .ok t) : flashLe s.flash t.flash := by
  unfold rwWrite at h
  dsimp only at h
  split at h
  · split at h
    · next u hu =>
      cases h
      rw [onDict_flash]
      exact typedWrite_flashLe s _ _ _ (acted_flash hu)
    · cases h
  · split at h
    · cases h
    · cases h
      rw [rwAfter_flash, onDict_flash, onDict_flash]
      exact flashLe_refl _

theorem writePart_flashLe (found : Findings) (n applyAt : Nat) (s : State) (x : PartWrite) {t : State}
    (h : writePart found n applyAt s x = .ok t) : flashLe s.flash t.flash := by
  unfold writePart at h
  split at h
  · exact rwWrite_flashLe s _ _ _ _ h
  · cases h; simp
  · exact woAction_flashLe found s _ _ _ _ h

theorem writeParts_flashLe (found : Findings) (n applyAt : Nat) (s : State) (l : List PartWrite) {t : State}
    (h : writeParts found n applyAt s l = .ok t) : flashLe s.flash t.flash := by
  induction l generalizing s with
  | nil =>
    cases h
    exact flashLe_refl _
  | cons x l ih =>
    unfold writeParts at h
    split at h
    · next u hu => exact flashLe_trans (writePart_flashLe found n applyAt s x hu) (ih u h)
    · cases h

theorem acceptWrites_flashLe (found : Findings) (s : State) (applyAt : Nat) (l : List PartWrite) {a : State × Nat × Nat}
    (h : acceptWrites found s applyAt l = .ok a) : flashLe s.flash a.1.flash := by
  unfold acceptWrites at h
  dsimp only at h
  split at h
  · cases h
  · split at h
    · cases h
    · next t ht =>
      cases h
      exact writeParts_flashLe found _ _ (s.onDict _) l ht

/-! ## Requests -/

theorem sealBatch_flashLe (found : Findings) (s : State) (x : Session) (r : Request) : flashLe s.flash (sealBatch found s x r).state.flash := by
  unfold sealBatch
  split
  · simp
  · extract_lets s1
    have h1 : s1.flash = s.flash := removeBatch_flash s _ _
    clear_value s1
    split
    · simp [h1]
    · split
      · simp [h1]
      · split
        · simp [h1]
        · split
          · simp [h1]
          · next ha => exact h1 ▸ acceptWrites_flashLe found s1 _ _ ha

theorem writeRequest_flashLe (found : Findings) (s : State) (x : Session) (op : Nat) (r : Request) :
    flashLe s.flash (writeRequest found s x op r).state.flash := by
  unfold writeRequest
  dsimp only
  split
  · simp
  · split
    · simp
    · split
      · exact flashLe_refl _
      · next ha => exact acceptWrites_flashLe found s _ _ ha

theorem perform_flashLe (found : Findings) (s : State) (op : Nat) (r : Request) : flashLe s.flash (perform found s op r).state.flash := by
  unfold perform
  split
  · simp
  · split
    case h_5 => exact sealBatch_flashLe found s _ r
    case h_7 => exact writeRequest_flashLe found s _ _ r
    all_goals simp

theorem performKept_flashLe (found : Findings) (s : State) (op : Nat) (r : Request) :
    flashLe s.flash (performKept found s op r).state.flash := by
  unfold performKept
  split
  · exact perform_flashLe found s op r
  · split
    · simp
    · split
      · simp
      · dsimp only
        rw [onSession_flash, ← performKept_touch_flash s]
        exact perform_flashLe found _ op r

theorem answerOwn_flashLe (found : Findings) (s : State) (op : Nat) (r : Request) : flashLe s.flash (answerOwn found s op r).state.flash := by
  unfold answerOwn
  split
  · simp
  · exact performKept_flashLe found s op r

theorem afterReply_flashLe (s : State) (reset : Option Nat) : flashLe s.flash (afterReply s reset).flash := by
  unfold afterReply
  split
  · exact stackResetWith_flashLe s _ 0
  · exact flashLe_refl _

theorem finishRequest_remembers {s t : State} (h : flashLe s.flash t.flash) (reset : Option Nat) : remembers s (finishRequest s t reset) := by
  unfold finishRequest
  split
  · exact remembers_restarted.2 (flashLe_trans h (afterReply_flashLe t reset))
  · exact remembers_done.2 h

/-- Every request at the management port. -/
theorem serve_remembers (found : Findings) (op : Nat) (r : Request) (s : State) : remembers s (serve found op r s) := by
  unfold serve
  split
  · simp
  · split
    · split <;> simp
    · refine finishRequest_remembers ?_ _
      rw [emit_flash]
      exact answerOwn_flashLe found s op r

theorem serveWrite_remembers (key : Nat) (found : Findings) (r : Request) (s : State) : remembers s (serveWrite key found r s) := by
  unfold serveWrite
  split
  · exact serve_remembers found 2 r s
  · simp

theorem answerRelayed_flashLe (s : State) (p : Packet) : flashLe s.flash (answerRelayed s p).1.flash := by
  unfold answerRelayed
  dsimp only
  split
  · exact flashLe_refl _
  · rw [sendPacket_flash]
    exact answerOwn_flashLe _ s _ _

theorem execRelayedRequest_remembers (p : Packet) (s : State) : remembers s (execRelayedRequest p s) := by
  unfold execRelayedRequest
  split
  · simp
  · split
    · simp
    · next t ht => exact finishRequest_remembers (takePacket_flash _ _ _ ht ▸ answerRelayed_flashLe t p) _

/-! ## Defaults of start-up (R336) -/

theorem chooseDefaults_flashLe (l : List Nat) (s : State) : flashLe s.flash (chooseDefaults l s).flash := by
  induction l generalizing s with
  | nil => simp [chooseDefaults]
  | cons c l ih =>
    have hc := chooseCopy_flashLe [c] s
    unfold chooseDefaults
    split <;> rename_i e <;> rw [e] at hc
    · exact flashLe_trans hc (ih _)
    · next t =>
      have hrefuse (f : Refused) : flashLe s.flash (chooseDefaults l (refuseImage t f)).flash :=
        flashLe_trans hc (refuseImage_flash t f ▸ ih _)
      split
      · exact hrefuse _
      · split
        · rw [takeDefaults_flash]
          exact hc
        · exact hrefuse _

theorem execDefaultsApply_remembers (s : State) : remembers s (execDefaultsApply s) := by
  have h := chooseDefaults_flashLe (defaultOrder s) s
  unfold execDefaultsApply
  split
  · simp
  · dsimp only
    split
    · rw [remembers_done, unserviceable_flash]
      exact h
    · rw [remembers_done, becomeReady_flash]
      exact h

end Sys2Proof.Machine
end

section
/-! Commands that leave flash as it is, but for those of the tiles and the Cracker -/

namespace Sys2Proof.Machine

open Sys2Proof

theorem withPacket_remembers {f : State → State} (hf : ∀ t, (f t).flash = t.flash) (s : State) (ptype : Nat) (p : Packet) :
    remembers s (withPacket s ptype p f) := by
  unfold withPacket
  split
  · simp
  · split
    · next t ht => simp [hf, takePacket_flash _ _ _ ht]
    · simp

theorem ownPart_remembers {f : State → CollKey → Nat → State} (hf : ∀ t k n, (f t k n).flash = t.flash) (s : State) (k : CollKey) (kind : Nat) :
    remembers s (ownPart s k kind f) := by
  simp [ownPart, hf, onColl_flash]

theorem execRailsUp_remembers (s : State) : remembers s (execRailsUp s) := by
  simp [execRailsUp]

theorem execServiceFill_remembers (s : State) : remembers s (execServiceFill s) := by
  simp [execServiceFill]

theorem execMgmtLinkLoss_remembers (s : State) : remembers s (execMgmtLinkLoss s) := by
  simp [execMgmtLinkLoss]

theorem execRailBelowFloor_remembers (layer mv : Nat) (s : State) : remembers s (execRailBelowFloor layer mv s) := by
  simp [execRailBelowFloor]

theorem execRailAboveFloor_remembers (layer mv : Nat) (s : State) : remembers s (execRailAboveFloor layer mv s) := by
  simp [execRailAboveFloor]

theorem execPaceWindow_remembers (rings : List Nat) (s : State) : remembers s (execPaceWindow rings s) := by
  simp [execPaceWindow]

theorem execPowerSample_remembers (x : PowerReading) (s : State) : remembers s (execPowerSample x s) := by
  simp [execPowerSample]

theorem execRampStep_remembers (s : State) : remembers s (execRampStep s) := by
  rw [execRampStep, remembers_done, tryRamp_flash]
  exact flashLe_refl _

theorem execDroopBegin_remembers (rail mv : Nat) (s : State) : remembers s (execDroopBegin rail mv s) := by
  simp [execDroopBegin]

theorem execDroopEnd_remembers (rail mv : Nat) (s : State) : remembers s (execDroopEnd rail mv s) := by
  simp [execDroopEnd]

theorem execGateRestartStep_remembers (row : Nat) (s : State) : remembers s (execGateRestartStep row s) := by
  simp [execGateRestartStep]

theorem execThermalLimitStep_remembers (s : State) : remembers s (execThermalLimitStep s) := by
  simp [execThermalLimitStep]

theorem execVerticalTransfer_remembers (column interface : Nat) (attempts : List TransferAttempt) (spareTests : List Bool) (s : State) :
    remembers s (execVerticalTransfer column interface attempts spareTests s) := by
  unfold execVerticalTransfer
  dsimp only
  split
  · simp
  · split
    · simp
    · split <;> simp

theorem execPowerClusterFail_remembers (tile : Nat) (s : State) : remembers s (execPowerClusterFail tile s) := by
  simp [execPowerClusterFail]

theorem execTileFloorTimeout_remembers (tile : Nat) (s : State) : remembers s (execTileFloorTimeout tile s) := by
  simp [execTileFloorTimeout]

theorem execHomeSliceAccess_remembers (who : Initiator) (addr length : Nat) (write : Option (List Byte)) (s : State) :
    remembers s (execHomeSliceAccess who addr length write s) := by
  unfold execHomeSliceAccess
  split
  · simp
  · split
    · simp
    · split
      · simp
      · split
        · simp
        · simp
        · split <;> simp

theorem execSliceFillReturn_remembers (line : Nat) (onDieFail : Bool) (s : State) : remembers s (execSliceFillReturn line onDieFail s) := by
  unfold execSliceFillReturn
  split
  · simp
  · split
    · simp
    · extract_lets s1 wanted failed s2 g s3
      have h1 : s1.flash = s.flash := by simp only [s1, hbmAccess_flash, hbmServed_flash, onCache_flash]
      have h2 : s2.flash = s.flash := by
        simp only [s2]
        split_ifs <;> simp [h1]
      have h3 : s3.flash = s.flash := by
        simp only [s3]
        split <;> simp [h2]
      clear_value s3
      rw [remembers_done, admitWaiting_flash]
      split_ifs <;> simp [h3]

theorem execLineRepair_remembers (line : Nat) (s : State) : remembers s (execLineRepair line s) := by
  unfold execLineRepair
  split
  · split
    · simp
    · split
      · simp
      · split <;> simp
  · simp
  · simp

theorem execHbmRefresh_remembers (stack busNs : Nat) (s : State) : remembers s (execHbmRefresh stack busNs s) := by
  simp [execHbmRefresh]

theorem execPatrolScrub_remembers (store : Nat) (s : State) : remembers s (execPatrolScrub store s) := by
  unfold execPatrolScrub
  split
  · simp
  · dsimp only
    split <;> simp

theorem execHbmChannelFail_remembers (stack channel : Nat) (s : State) : remembers s (execHbmChannelFail stack channel s) := by
  simp [execHbmChannelFail]

theorem execStallSample_remembers (s : State) : remembers s (execStallSample s) := by
  simp [execStallSample]

theorem execTileProgramStart_remembers (tile : Nat) (s : State) : remembers s (execTileProgramStart tile s) := by
  unfold execTileProgramStart
  dsimp only
  split
  · simp
  · split
    · simp
    · split <;> simp

theorem execDescriptorComplete_remembers (tile number : Nat) (s : State) : remembers s (execDescriptorComplete tile number s) := by
  unfold execDescriptorComplete
  dsimp only
  split
  · simp
  · split
    · simp
    · split
      · split_ifs <;> simp
      · split_ifs <;> simp

theorem execTrap_remembers (tile : Nat) (s : State) : remembers s (execTrap tile s) := by
  unfold execTrap
  dsimp only
  split
  · simp
  · split
    · simp
    · split <;> simp

theorem execBatchRelease_remembers (channel : Nat) (s : State) : remembers s (execBatchRelease channel s) := by
  unfold execBatchRelease
  split <;> simp

theorem execSectorDone_remembers (channel sector : Nat) (s : State) : remembers s (execSectorDone channel sector s) := by
  simp [execSectorDone]

theorem execMergePass_remembers (binding : Nat) (s : State) : remembers s (execMergePass binding s) := by
  simp [execMergePass]

theorem execSweepFeed_remembers (binding : Nat) (s : State) : remembers s (execSweepFeed binding s) := by
  unfold execSweepFeed
  dsimp only
  split
  · simp
  · split <;> simp

theorem execStagedRowReady_remembers (binding row : Nat) (s : State) : remembers s (execStagedRowReady binding row s) := by
  simp [execStagedRowReady]

theorem execDenseCheckUpdate_remembers (group : Nat) (s : State) : remembers s (execDenseCheckUpdate group s) := by
  simp [execDenseCheckUpdate]

theorem execStagingCut_remembers (s : State) : remembers s (execStagingCut s) := by
  unfold execStagingCut
  split <;> simp

theorem execSweepRow_remembers (group row : Nat) (s : State) : remembers s (execSweepRow group row s) := by
  unfold execSweepRow
  split
  · simp
  · extract_lets g rank s0 r s1 s2 l s3 held written sent
    have h1 : s1.flash = s.flash := (rowReads_flash s0 g rank row).trans (writeCoefficients_flash s)
    have h2 : s2.flash = s.flash := (onBinding_flash s1 _ _).trans h1
    have h3 : s3.flash = s.flash := (putThrough_flash s2 _ _ _).trans h2
    have hheld : held.flash = s.flash := by rw [raise_flash, setStageState_flash, h3]
    have hsent : sent.flash = s.flash := by rw [writeBack14_flash, setStageState_flash, writeUpdated_flash, h3]
    clear_value s1 s2 held sent l
    split
    · simp
    · split
      · exact remembers_done.2 (flashLe_of_eq h1)
      · split
        · exact remembers_done.2 (flashLe_of_eq ((recordFault_flash s2 _ _).trans h2))
        · split
          · exact remembers_done.2 (flashLe_of_eq ((onTrain_flash held _).trans hheld))
          · exact remembers_done.2 (flashLe_of_eq ((touchRow_flash _ group row).trans ((onTrain_flash sent _).trans hsent)))

theorem execSweepWriteAck_remembers (group row : Nat) (s : State) : remembers s (execSweepWriteAck group row s) := by
  unfold execSweepWriteAck
  split <;> simp

theorem execSweepResume_remembers (s : State) : remembers s (execSweepResume s) := by
  simp [execSweepResume]

theorem execLaneFail_remembers (port lane : Nat) (s : State) : remembers s (execLaneFail port lane s) := by
  simp [execLaneFail]

theorem execPortTrainingDone_remembers (port : Nat) (goodLanes : NatSet) (version : Nat) (s : State) : remembers s (execPortTrainingDone port goodLanes version s) := by
  simp [execPortTrainingDone]

theorem execTrainingRetry_remembers (port : Nat) (goodLanes : NatSet) (version : Nat) (s : State) : remembers s (execTrainingRetry port goodLanes version s) := by
  simp [execTrainingRetry]

theorem execFlitReceive_remembers (port : Nat) (flit : ReceivedFlit) (s : State) : remembers s (execFlitReceive port flit s) := by
  simp [execFlitReceive]

theorem execHopDeadline_remembers (port : Nat) (s : State) : remembers s (execHopDeadline port s) := by
  simp [execHopDeadline]

theorem execProbe_remembers (port : Nat) (s : State) : remembers s (execProbe port s) := by
  simp [execProbe]

theorem execData_remembers (p : Packet) (s : State) : remembers s (execData p s) := by
  unfold execData
  split
  · simp
  · refine withPacket_remembers (fun t => ?_) s 1 p
    dsimp only
    split_ifs <;> simp

theorem execReady_remembers (p : Packet) (s : State) : remembers s (execReady p s) := by
  refine withPacket_remembers (fun t => ?_) s 2 p
  split_ifs <;> simp

theorem execGo_remembers (p : Packet) (s : State) : remembers s (execGo p s) := by
  refine withPacket_remembers (fun t => ?_) s 3 p
  split <;> simp

theorem execResult_remembers (p : Packet) (s : State) : remembers s (execResult p s) := by
  refine withPacket_remembers (fun t => ?_) s 4 p
  dsimp only
  split
  · rfl
  · rw [tryDecide_flash, onTrain_flash]

theorem execAck_remembers (p : Packet) (s : State) : remembers s (execAck p s) :=
  withPacket_remembers (fun t => by dsimp only; rw [drainSend_flash, setTx_flash]) s 5 p

theorem execPathNotice_remembers (p : Packet) (s : State) : remembers s (execPathNotice p s) :=
  withPacket_remembers (fun t => foldl_flash resendStream_flash t _) s 6 p

theorem execInbound_remembers (p : Packet) (s : State) : remembers s (execInbound p s) := by
  unfold execInbound
  split
  · simp
  · refine withPacket_remembers (fun t => ?_) s 7 p
    split
    · rfl
    · split <;> simp

theorem execTableReq_remembers (p : Packet) (s : State) : remembers s (execTableReq p s) := by
  unfold execTableReq
  split
  · simp
  · exact withPacket_remembers (fun t => takeRequest_flash t p) s 8 p

theorem execTableRsp_remembers (p : Packet) (s : State) : remembers s (execTableRsp p s) := by
  refine withPacket_remembers (fun t => ?_) s 9 p
  dsimp only
  split
  · rfl
  · split
    · rfl
    · next c _ _ _ x _ =>
      split
      · split <;> simp
      · have hd := deliverRemote_flash c x p.elemOffset ((p.payload.drop 64).zipIdx.map (fun y => (y.1, p.poison.contains (8 + y.2 / 8)))) t
        split <;> rename_i e <;> rw [e] at hd <;> dsimp only at hd
        · rw [haltChannel_flash, hd]
        · split
          · rw [finishCommand_flash, onChannel_flash, hd]
          · exact hd

theorem execMirror_remembers (p : Packet) (s : State) : remembers s (execMirror p s) := by
  refine withPacket_remembers (fun t => ?_) s 0xA p
  extract_lets kind before l others
  clear_value l others
  split_ifs
  · rw [takeTwin_flash]
  · rw [takeRecord_flash, onResil_flash]
  · rw [onResil_flash]

theorem execMirrorAck_remembers (p : Packet) (s : State) : remembers s (execMirrorAck p s) :=
  withPacket_remembers (fun t => by rw [releaseReadys_flash, onResil_flash]) s 0xB p

theorem execRelayedReply_remembers (p : Packet) (s : State) : remembers s (execRelayedReply p s) := by
  refine withPacket_remembers (fun t => ?_) s 0xC p
  split
  · rfl
  · exact returnReply_flash _ _

theorem execCommittedStepReport_remembers (p : Packet) (s : State) : remembers s (execCommittedStepReport p s) := by
  refine withPacket_remembers (fun t => ?_) s 0xC p
  dsimp only
  split_ifs
  · rfl
  · rw [foldl_flash (fun u n => sendPacket_flash u _), onResil_flash]
  · rw [onResil_flash]

theorem execRestorePoint_remembers (p : Packet) (s : State) : remembers s (execRestorePoint p s) := by
  refine withPacket_remembers (fun t => ?_) s 0xC p
  dsimp only
  split_ifs <;> simp

theorem execLineRequest_remembers (p : Packet) (s : State) : remembers s (execLineRequest p s) := by
  refine withPacket_remembers (fun t => ?_) s 0xC p
  dsimp only
  split
  · rfl
  · rw [sendPacket_flash, lineAnswer_flash]

theorem execLineReply_remembers (p : Packet) (s : State) : remembers s (execLineReply p s) := by
  refine withPacket_remembers (fun t => ?_) s 0xC p
  dsimp only
  split_ifs <;> simp

theorem execFullTransferRequest_remembers (p : Packet) (s : State) : remembers s (execFullTransferRequest p s) := by
  refine withPacket_remembers (fun t => ?_) s 0xC p
  dsimp only
  split
  · exact startTransfer_flash t
  · rfl

theorem execHoldNotice_remembers (p : Packet) (s : State) : remembers s (execHoldNotice p s) := by
  refine withPacket_remembers (fun t => ?_) s 0xC p
  dsimp only
  split <;> simp

theorem execAckTimer_remembers (k : StreamKey) (s : State) : remembers s (execAckTimer k s) := by
  simp [execAckTimer]

theorem execResendTimeout_remembers (k : StreamKey) (s : State) : remembers s (execResendTimeout k s) := by
  simp [execResendTimeout]

theorem execReductionDeadline_remembers (k : CollKey) (s : State) : remembers s (execReductionDeadline k s) := by
  simp [execReductionDeadline]

theorem execCollectiveComplete_remembers (k : CollKey) (s : State) : remembers s (execCollectiveComplete k s) := by
  unfold execCollectiveComplete
  extract_lets c carrier s1 s2
  have h2 : s2.flash = s.flash := by
    simp only [s2]
    split_ifs
    · simp [s1]
    · simp [s1]
    · split <;> simp [s1]
  clear_value s2
  split <;> simp [h2]

theorem execResultSend_remembers (s : State) : remembers s (execResultSend s) := by
  unfold execResultSend
  split
  · split
    extract_lets included chainDone
    clear_value chainDone
    split
    · simp
    · split
      · dsimp only
        rw [remembers_done, onResil_flash, foldl_flash (fun t x => sendPacket_flash t _)]
        exact flashLe_refl _
      · simp
  · simp

theorem execNeighborRequest_remembers (port : Nat) (ipv6 : Bool) (addr : BitVec 128) (s : State) : remembers s (execNeighborRequest port ipv6 addr s) := by
  simp [execNeighborRequest]

theorem execRdmaWrite_remembers (origin : RdmaOrigin) (rkey : BitVec 32) (addr : BitVec 64) (bytes : List Byte) (s : State) : remembers s (execRdmaWrite origin rkey addr bytes s) := by
  unfold execRdmaWrite
  split
  · simp
  · split <;> simp

theorem execRdmaRead_remembers (origin : RdmaOrigin) (rkey : BitVec 32) (addr : BitVec 64) (length : Nat) (s : State) : remembers s (execRdmaRead origin rkey addr length s) := by
  unfold execRdmaRead
  split
  · simp
  · split <;> simp

theorem execFlushReadRelease_remembers (conn : Nat) (s : State) : remembers s (execFlushReadRelease conn s) := by
  unfold execFlushReadRelease
  dsimp only
  split <;> simp

theorem execCnpReceive_remembers (conn : Nat) (s : State) : remembers s (execCnpReceive conn s) := by
  simp [execCnpReceive]

theorem execEgressRateRise_remembers (conn : Nat) (s : State) : remembers s (execEgressRateRise conn s) := by
  simp [execEgressRateRise]

theorem execTransportRetryTimeout_remembers (conn : Nat) (s : State) : remembers s (execTransportRetryTimeout conn s) := by
  unfold execTransportRetryTimeout
  split <;> simp

theorem execPostCount_remembers (conn : Nat) (s : State) : remembers s (execPostCount conn s) := by
  unfold execPostCount
  split <;> simp

theorem execCqConsumed_remembers (conn : Nat) (s : State) : remembers s (execCqConsumed conn s) := by
  unfold execCqConsumed
  split <;> simp

theorem execEntryRead_remembers (queue : Nat) (s : State) : remembers s (execEntryRead queue s) := by
  unfold execEntryRead
  split <;> simp

theorem execEntryReread_remembers (queue : Nat) (s : State) : remembers s (execEntryReread queue s) := by
  unfold execEntryReread
  split <;> simp

theorem execDispatch_remembers (q seq : Nat) (s : State) : remembers s (execDispatch q seq s) := by
  unfold execDispatch
  split
  · simp
  · next e _ =>
    split
    · simp
    · split
      · have hr := readRecord_flash s (e.field 256 48) 128
        split <;> rename_i eq <;> rw [eq] at hr <;> dsimp only at hr
        · simp [hr]
        · simp [hr]
        · split <;> simp [hr]
      · simp
      · have hr := readRecord_flash s (e.field 256 48) 64
        split <;> rename_i eq <;> rw [eq] at hr <;> dsimp only at hr
        · simp [hr]
        · simp [hr]
        · dsimp only
          split <;> simp [hr]
      · simp

theorem execFillCommand_remembers (q seq : Nat) (s : State) : remembers s (execFillCommand q seq s) := by
  unfold execFillCommand
  split
  · simp
  · next e _ =>
    split
    · simp
    · have hr := readRecord_flash s (e.field 256 48) 32
      split <;> rename_i eq <;> rw [eq] at hr <;> dsimp only at hr
      · simp [hr]
      · simp [hr]
      · split
        · simp [hr]
        · split <;> simp [hr]

theorem execExportEntry_remembers (queue seq : Nat) (s : State) : remembers s (execExportEntry queue seq s) := by
  unfold execExportEntry
  split <;> simp

theorem execExportAck_remembers (conn : Nat) (s : State) : remembers s (execExportAck conn s) := by
  unfold execExportAck
  split <;> simp

theorem execNopEntry_remembers (queue seq : Nat) (s : State) : remembers s (execNopEntry queue seq s) := by
  unfold execNopEntry
  split <;> simp

theorem execEntryComplete_remembers (queue seq : Nat) (s : State) : remembers s (execEntryComplete queue seq s) := by
  unfold execEntryComplete
  split <;> simp

theorem execBuddyTimeout_remembers (s : State) : remembers s (execBuddyTimeout s) := by
  simp [execBuddyTimeout]

theorem execMemberTimeout_remembers (node : BitVec 24) (s : State) : remembers s (execMemberTimeout node s) := by
  simp [execMemberTimeout]

theorem execShardVerify_remembers (group : Nat) (source : BitVec 24) (step : Nat) (digest : BitVec 256) (bytes : List Byte) (s : State) : remembers s (execShardVerify group source step digest bytes s) := by
  simp [execShardVerify]

theorem execReplay_remembers (s : State) : remembers s (execReplay s) := by
  unfold execReplay
  dsimp only
  split
  · simp
  · split <;> simp

theorem execTwinTimeout_remembers (s : State) : remembers s (execTwinTimeout s) := by
  simp [execTwinTimeout]

theorem execTwinLateLimit_remembers (s : State) : remembers s (execTwinLateLimit s) := by
  simp [execTwinLateLimit]

theorem execTwinRejoin_remembers (s : State) : remembers s (execTwinRejoin s) := by
  unfold execTwinRejoin
  split_ifs
  · simp
  · simp
  · split <;> simp
  · simp
  · simp

theorem execSessionExpire_remembers (session : BitVec 64) (s : State) : remembers s (execSessionExpire session s) := by
  simp [execSessionExpire]

theorem execHelloLockoutEnd_remembers (s : State) : remembers s (execHelloLockoutEnd s) := by
  simp [execHelloLockoutEnd]

theorem execRelayTimeout_remembers (requestId : BitVec 32) (s : State) : remembers s (execRelayTimeout requestId s) := by
  unfold execRelayTimeout
  split <;> simp

theorem execBatchExpire_remembers (session : BitVec 64) (batch : Nat) (s : State) : remembers s (execBatchExpire session batch s) := by
  simp [execBatchExpire]

theorem execAttestReady_remembers (s : State) : remembers s (execAttestReady s) := by
  simp [execAttestReady]

theorem execMarginSweepEnd_remembers (failed : List (Nat × Nat)) (lost : NatSet) (s : State) : remembers s (execMarginSweepEnd failed lost s) := by
  simp [execMarginSweepEnd]

theorem execFeLinkDown_remembers (port : Nat) (s : State) : remembers s (execFeLinkDown port s) := by
  simp [execFeLinkDown]

theorem execFeLinkUp_remembers (port : Nat) (s : State) : remembers s (execFeLinkUp port s) := by
  simp [execFeLinkUp]

theorem execPriorityFlowControlFrame_remembers (port priority : Nat) (quanta : Nat) (s : State) : remembers s (execPriorityFlowControlFrame port priority quanta s) := by
  simp [execPriorityFlowControlFrame]

theorem execWriteBackComplete_remembers (line : Nat) (s : State) : remembers s (execWriteBackComplete line s) := by
  unfold execWriteBackComplete
  split <;> simp

theorem execTileSupplyBelowFloor_remembers (tile mv : Nat) (s : State) : remembers s (execTileSupplyBelowFloor tile mv s) := by
  simp [execTileSupplyBelowFloor]

theorem execTileSupplyRestored_remembers (tile mv : Nat) (s : State) : remembers s (execTileSupplyRestored tile mv s) := by
  simp [execTileSupplyRestored]

end Sys2Proof.Machine
end

section
/-! Descriptors and commands of the Cracker leave flash as it is (R84 to R96, R174 to R181), and no command takes back what flash holds -/

namespace Sys2Proof.Machine

open Sys2Proof

/-- Work that leaves the flash `F`, and whose value is good. -/
def Got.leaves {α : Type} (F : Flash) (good : α → Prop) (r : Got α × State) : Prop := r.2.flash = F ∧ ∀ a, r.1 = .ok a → good a

theorem Got.leaves_ok {α : Type} {F : Flash} {good : α → Prop} {a : α} {t : State} (ha : good a) (ht : t.flash = F) :
    Got.leaves F good (.ok a, t) := ⟨ht, fun b hb => by cases hb; exact ha⟩

theorem Got.leaves_fault {α : Type} {F : Flash} {good : α → Prop} {c : Code} {t : State} (ht : t.flash = F) :
    Got.leaves F good (.fault c, t) := ⟨ht, fun _ hb => nomatch hb⟩

theorem Got.leaves_wait {α : Type} {F : Flash} {good : α → Prop} {t : State} (ht : t.flash = F) : Got.leaves F good (.wait, t) :=
  ⟨ht, fun _ hb => nomatch hb⟩

theorem Got.leaves_andThen {α β : Type} {F : Flash} {good : β → Prop} {r : Got α × State} {f : α → State → Got β × State}
    (hr : r.2.flash = F) (hf : ∀ a t, t.flash = F → Got.leaves F good (f a t)) : Got.leaves F good (Got.andThen r f) := by
  obtain ⟨a | c | _, t⟩ := r
  · exact hf a t hr
  · exact Got.leaves_fault hr
  · exact Got.leaves_wait hr

/-- A descriptor whose effect leaves flash as it is. -/
def Issue.sparesFlash (x : Issue) : Prop := ∀ t, (x.run t).2.flash = t.flash

theorem issueChecked_flash (s : State) (n d : Nat) {x : Issue} (hx : x.sparesFlash) : (issueChecked s n d x).flash = s.flash := by
  have h := hx s
  unfold issueChecked
  extract_lets t
  iterate 4
    split
    · rfl
  split <;> rename_i e <;> rw [e] at h <;> dsimp only at h <;> simp [h]

theorem tileOnly_sparesFlash (n : Nat) (f : Tile → Tile) : (tileOnly n f).sparesFlash := fun t => onTile_flash t n f

theorem runDescriptor_flash {n : Nat} {kind : Nat → Bool} {prep : Nat → State → Got Issue × State}
    (hprep : ∀ d t, Got.leaves t.flash Issue.sparesFlash (prep d t)) (s : State) : (runDescriptor n kind prep s).flash = s.flash := by
  unfold runDescriptor
  extract_lets t
  split
  · rfl
  · have hf := fetch64_flash n t.pc s
    split <;> rename_i e <;> rw [e] at hf <;> dsimp only at hf
    · rw [trapHere_flash, hf]
    · rw [holdFor_flash, hf]
    · next d s1 =>
      obtain ⟨hp, hgood⟩ := hprep d s1
      dsimp only
      split
      · rw [trapHere_flash, hf]
      · split
        · rfl
        · split
          · rw [trapHere_flash, hf]
          · split
            · rw [trapHere_flash, hf]
            · split <;> rename_i e <;> rw [e] at hp hgood <;> dsimp only at hp
              · rw [trapHere_flash, hp, hf]
              · rw [holdFor_flash, hp, hf]
              · rw [issueChecked_flash _ _ _ (hgood _ rfl), hp, hf]

/-- A row that runs a descriptor whose effect leaves flash as it is. -/
theorem remembers_descriptor {n : Nat} {kind : Nat → Bool} {prep : Nat → State → Got Issue × State}
    (hprep : ∀ d t, Got.leaves t.flash Issue.sparesFlash (prep d t)) (s : State) : remembers s (done s (runDescriptor n kind prep s)) := by
  rw [remembers_done, runDescriptor_flash hprep]
  exact flashLe_refl _

theorem execNop_remembers (tile : Nat) (s : State) : remembers s (execNop tile s) := by
  refine remembers_descriptor (fun d t => ?_) s
  split
  · exact Got.leaves_fault rfl
  · exact Got.leaves_ok (tileOnly_sparesFlash _ _) rfl

theorem execLoop_remembers (tile : Nat) (s : State) : remembers s (execLoop tile s) := by
  refine remembers_descriptor (fun d t => ?_) s
  extract_lets u len count last outside
  split
  · exact Got.leaves_fault rfl
  · split
    · exact Got.leaves_fault rfl
    · split
      · exact Got.leaves_fault rfl
      · exact Got.leaves_ok (fun t => onTile_flash t tile _) rfl

theorem execSetb_remembers (tile : Nat) (s : State) : remembers s (execSetb tile s) := by
  refine remembers_descriptor (fun d t => ?_) s
  split
  · exact Got.leaves_fault rfl
  · exact Got.leaves_ok (tileOnly_sparesFlash _ _) rfl

theorem execLoadb_remembers (tile : Nat) (s : State) : remembers s (execLoadb tile s) := by
  refine remembers_descriptor (fun d t => ?_) s
  dsimp only
  split_ifs
  · exact Got.leaves_fault rfl
  · exact Got.leaves_fault rfl
  · refine Got.leaves_ok (fun t => Got.andThen_flash_of (readFor_flash _ _ _ _ t) fun b u => ?_) rfl
    split <;> rfl

theorem execEndProgram_remembers (tile : Nat) (s : State) : remembers s (execEndProgram tile s) := by
  have hrun := runDescriptor_flash (n := tile) (kind := opIs 0x3F) (prep := fun d s1 =>
      if bitsAt d 64 448 ≠ 0 then (.fault (malformed 0x02), s1)
      else if (tileOf s1 tile).issued = [] then (.ok (tileOnly tile (fun t => { t with program := t.program })), s1)
      else (.wait, s1)) (fun d t => by
    split_ifs
    · exact Got.leaves_fault rfl
    · exact Got.leaves_ok (tileOnly_sparesFlash _ _) rfl
    · exact Got.leaves_wait rfl) s
  rw [execEndProgram, remembers_done]
  split
  · rw [endTileProgram_flash, hrun]
    exact flashLe_refl _
  · rw [hrun]
    exact flashLe_refl _

theorem execMatmul_remembers (tile : Nat) (s : State) : remembers s (execMatmul tile s) := by
  refine remembers_descriptor (fun d t => ?_) s
  unfold prepMatmul
  dsimp only
  split
  · exact Got.leaves_fault rfl
  · split
    · exact Got.leaves_fault rfl
    · exact Got.leaves_ok (runMatmul_flash tile _) rfl

theorem vectorRow_remembers (vop tile : Nat) (s : State) : remembers s (vectorRow vop tile s) := by
  refine remembers_descriptor (fun d t => ?_) s
  unfold prepVector
  extract_lets v u
  split
  · exact Got.leaves_fault rfl
  · refine Got.leaves_andThen (fetchTensor_flash tile u _ false t) fun dst s1 h1 => ?_
    refine Got.leaves_andThen ((fetchTensor_flash tile u _ false s1).trans h1) fun src0 s2 h2 => ?_
    refine Got.leaves_andThen ((fetchTensor_flash tile u _ _ s2).trans h2) fun src1 s3 h3 => ?_
    refine Got.leaves_andThen ((fetchTensor_flash tile u _ false s3).trans h3) fun src2 s4 h4 => ?_
    refine Got.leaves_andThen ((fetchTensor_flash tile u _ true s4).trans h4) fun aux s5 h5 => ?_
    dsimp only
    split
    · exact Got.leaves_fault h5
    · split
      · exact Got.leaves_fault h5
      · exact Got.leaves_ok (runVector_flash tile _) h5

theorem streamRow_remembers (kind tile : Nat) (s : State) : remembers s (streamRow kind tile s) := by
  refine remembers_descriptor (fun d t => ?_) s
  have hhalt : ∀ (ch : Nat) (c : Code) (u : State), u.flash = t.flash →
      Got.leaves t.flash Issue.sparesFlash (.ok ⟨2, ch, [], [], [], [], [], [], haltStream tile ch c⟩, u) :=
    fun ch c u hu => Got.leaves_ok (haltStream_flash tile ch c) hu
  unfold prepStream
  extract_lets u ch halt
  split
  · exact Got.leaves_fault rfl
  · have hf := fetch64_flash tile (baseOffset u (bitsAt d 64 4) (bitsAt d 68 48)) t
    split <;> rename_i e <;> rw [e] at hf <;> dsimp only at hf
    · exact Got.leaves_fault hf
    · exact Got.leaves_wait hf
    · extract_lets k
      split
      · exact hhalt _ _ _ hf
      · refine Got.leaves_andThen ((streamTensor_flash tile u _ _).trans hf) fun far s2 h2 => ?_
        refine Got.leaves_andThen (F := t.flash) ?_ fun near s3 h3 => ?_
        · split
          · exact (streamTensor_flash tile u _ _).trans h2
          · exact h2
        · refine Got.leaves_andThen (F := t.flash) ?_ fun index s4 h4 => ?_
          · split
            · exact (streamTensor_flash tile u _ _).trans h3
            · exact h3
          · split
            · extract_lets x
              clear_value x
              split
              · exact hhalt _ _ _ h4
              · split
                · exact Got.leaves_ok (runStream_flash tile ch _) h4
                · exact Got.leaves_fault h4
            · exact hhalt _ _ _ h4

/-- A command of the Cracker that leaves flash as it is, in the state it ends in and in the one it gives (R174). -/
def sparesFlash (f : CrackerCommand → State → Got State × State) : Prop :=
  ∀ cmd t, Got.leaves t.flash (fun u => u.flash = t.flash) (f cmd t)

theorem runCommand_flash {f : CrackerCommand → State → Got State × State} (hf : sparesFlash f) (c kind : Nat) (s : State) :
    (runCommand c kind f s).flash = s.flash := by
  unfold runCommand
  extract_lets x
  split
  · rfl
  · next h _ _ =>
    split
    · rfl
    · split
      · exact haltChannel_flash _ _ _
      · have hr := readSectors_flash c h.addr 64 s
        split <;> rename_i e <;> rw [e] at hr <;> dsimp only at hr
        · exact hr
        · rw [haltChannel_flash, hr]
        · next b s1 =>
          split
          · rw [haltChannel_flash, hr]
          · extract_lets cmd
            obtain ⟨hs, hgood⟩ := hf cmd s1
            split
            · rfl
            · split
              · rw [haltChannel_flash, hr]
              · split <;> rename_i e <;> rw [e] at hs hgood <;> dsimp only at hs
                · exact hs.trans hr
                · rw [haltChannel_flash, forgetNear_flash, hs, hr]
                · exact (hgood _ rfl).trans hr

theorem commandRan_leaves {F : Flash} {s : State} (hs : s.flash = F) (c : Nat) (cmd : CrackerCommand) (requests : List (List Nat))
    (remote : List RemoteRows) : Got.leaves F (fun u => u.flash = F) (.ok (commandRan s c cmd requests remote), s) :=
  Got.leaves_ok ((commandRan_flash s c cmd requests remote).trans hs) hs

theorem flatBody_sparesFlash (c : Nat) : sparesFlash (flatBody c) := fun cmd t => by
  refine Got.leaves_andThen (readIndices_flash c cmd t) fun idx s0 h0 => ?_
  extract_lets s1
  have h1 : s1.flash = t.flash := (flatAhead_flash c cmd idx s0).trans h0
  clear_value s1
  split
  · exact Got.leaves_fault h1
  · split
    · exact Got.leaves_fault h1
    · refine Got.leaves_andThen (F := t.flash) ?_ fun rows s2 h2 => ?_
      · rw [Got.each_flash fun x u => ?_, h1]
        split
        · rfl
        · exact Got.andThen_flash_of (readFor_flash _ _ _ _ u) fun _ _ => rfl
      · exact Got.leaves_andThen ((deliverRows_flash c cmd rows s2).trans h2) fun _ s3 h3 => commandRan_leaves h3 c cmd _ _

theorem gatherBody_sparesFlash (c : Nat) : sparesFlash (gatherBody c) := fun cmd t => by
  unfold gatherBody
  extract_lets r
  refine Got.leaves_andThen (readIndices_flash c cmd t) fun idx s0 h0 => ?_
  extract_lets known s1
  have h1 : s1.flash = t.flash := (rowsAhead_flash c cmd r idx s0).trans h0
  clear_value s1
  split
  · exact Got.leaves_fault h1
  · split
    · exact Got.leaves_fault h1
    · refine Got.leaves_andThen (F := t.flash) ?_ fun rows s2 h2 => ?_
      · rw [Got.each_flash fun x u => ?_, h1]
        split
        · rfl
        · exact Got.andThen_flash_of (readRow_flash c r _ u) fun _ _ => rfl
      · refine Got.leaves_andThen ((deliverRows_flash c cmd rows s2).trans h2) fun _ s3 h3 => ?_
        dsimp only
        refine commandRan_leaves ?_ c cmd _ _
        rw [foldl_snd_flash fun x k => ?_, h3]
        dsimp only
        split
        · rfl
        · exact askOwner_flash _ _ _ _ _ _

theorem scatterBody_sparesFlash (c : Nat) : sparesFlash (scatterBody c) := fun cmd t => by
  unfold scatterBody
  extract_lets r
  refine Got.leaves_andThen (readIndices_flash c cmd t) fun idx s0 h0 => ?_
  extract_lets s1 good
  have h1 : s1.flash = t.flash := (rowsAhead_flash c cmd r idx s0).trans h0
  clear_value s1
  refine Got.leaves_andThen (F := t.flash) ?_ fun rows s2 h2 => ?_
  · rw [Got.each_flash fun x u => ?_, h1]
    split
    · rfl
    · exact Got.andThen_flash_of (readSectors_flash c _ _ u) fun _ _ => rfl
  · refine Got.leaves_andThen (F := t.flash) ?_ fun _ s3 h3 => ?_
    · rw [Got.each_flash fun x u => ?_, h2]
      split
      · rfl
      · exact writeRow_flash c _ _ u
    · split
      · exact Got.leaves_fault h3
      · exact commandRan_leaves h3 c cmd _ _

theorem gradBody_sparesFlash (c : Nat) : sparesFlash (gradBody c) := fun cmd t => by
  unfold gradBody
  extract_lets r b rowLen w order
  split
  · exact Got.leaves_fault rfl
  · refine Got.leaves_andThen (readIndices_flash c cmd t) fun idx s0 h0 => ?_
    extract_lets s1
    have h1 : s1.flash = t.flash := (rowsAhead_flash c cmd r idx s0).trans h0
    clear_value s1
    split
    · exact Got.leaves_fault h1
    · refine Got.leaves_andThen ((gradRows_flash c cmd rowLen idx s1).trans h1) fun rows s2 h2 => ?_
      extract_lets s3 distinct
      have h3 : s3.flash = t.flash := (onBinding_flash s2 _ _).trans h2
      clear_value s3
      split
      rename_i s4 full bad e
      have h4 : s4.flash = t.flash := by
        have h := foldl_fst_flash (f := fun (a : State × Bool × Bool) row =>
          let (values, poison) := mergedRow rowLen row rows
          let (t, f, e) := accumulateRow a.1 r.binding b rowLen cmd.microbatch row values poison
          (t, a.2.1 || f, a.2.2 || e)) (fun a row => accumulateRow_flash a.1 _ _ _ _ _ _ _) (s3, false, false) distinct
        rw [e] at h
        exact h.trans h3
      extract_lets s5 dir requests
      have h5 : s5.flash = t.flash := by
        simp only [s5]
        split
        · rw [localFault_flash, h4]
        · exact h4
      clear_value s5
      split
      · exact Got.leaves_fault h5
      · exact commandRan_leaves h5 c cmd _ _

/-- The row of a command of the Cracker. -/
theorem remembers_command {f : CrackerCommand → State → Got State × State} (hf : sparesFlash f) (c kind : Nat) (s : State) :
    remembers s (done s (runCommand c kind f s)) := by
  rw [remembers_done, runCommand_flash hf]
  exact flashLe_refl _

/-- No command takes back what flash holds. -/
theorem exec_remembers (c : Instr) (s : State) : remembers s (exec c s) := by
  cases c
  case stackReset | watchdogExpiry =>
    exact resetStack_remembers s _ _
  case stackResetWrite | paceClear | energyClear | throttleClear | tempClear | tileCountersClear | crackerCountersClear |
      abortStep | silentClear | portMode | epochWrite | fabricCountersClear | feMode | fePortReset | connEnable | connReset |
      queueEnable | queueDisable | feCountersClear | buddy | snapshotBase | recoveryWrite | restoreSubmit | resume | eventAck |
      snapshotTake | memCountersClear | protCountersClear | floorCommit | uploadTarget | uploadData | uploadVerify |
      attestRequest | testStateEnter | testStateExit | marginSweep | bistRerun =>
    exact serveWrite_remembers _ _ _ s
  case copy | fill | add | sub | mul | fma | div | sqrt | rsqrt | exp | log | tanh | logistic | sin | cos | max | min | abs |
      cmpgt | select | axpb | addsr | rsum | rmax | rsumsq | rmaxabs | mxpack | mxunpack | update =>
    exact vectorRow_remembers _ _ s
  case load | store | streamGather | streamScatter | streamFill =>
    exact streamRow_remembers _ _ s
  case read | write | revert | abandon | describe | enumerate | hello | prove | close =>
    exact serve_remembers _ _ _ s
  case powerOn => exact remembers_restarted.2 (startOrStay_flashLe s _ _ _ _)
  case inputStop => simp [exec, execInputStop, stoppedState_flash]
  case shutdownAssert => simp [exec, execShutdownAssert, stoppedState_flash]
  case shutdownRelease => simp [exec, execShutdownRelease, startOrStay_flashLe]
  case moduleInsert => simp [exec, execModuleInsert, startOrStay_flashLe]
  case moduleRemove => simp [exec, execModuleRemove, stoppedState_flash]
  case railBelowRetention => simp [exec, execRailBelowRetention, resetStack_remembers]
  case crackerGather => exact remembers_command (gatherBody_sparesFlash _) _ _ s
  case crackerScatter => exact remembers_command (scatterBody_sparesFlash _) _ _ s
  case grad => exact remembers_command (gradBody_sparesFlash _) _ _ s
  case flatGather => exact remembers_command (flatBody_sparesFlash _) _ _ s
  case allReduce => exact ownPart_remembers startReduction_flash s _ 1
  case reduceScatter => exact ownPart_remembers startReduction_flash s _ 2
  case allGather => exact ownPart_remembers startGather_flash s _ 3
  case allToAll => exact ownPart_remembers startAllToAll_flash s _ 4
  case broadcast => exact ownPart_remembers startBroadcast_flash s _ 5
  case exchange => exact ownPart_remembers exchangeRows_flash s _ 6
  case converterFail => exact execConverterFail_remembers _ s
  case romVerify => exact execRomVerify_remembers s
  case hazelBoot => exact execHazelBoot_remembers s
  case railsUp => exact execRailsUp_remembers s
  case builtInTest => exact execBuiltInTest_remembers _ s
  case serviceFill => exact execServiceFill_remembers s
  case hbmTraining => exact execHbmTraining_remembers _ s
  case defaultsApply => exact execDefaultsApply_remembers s
  case mgmtLinkLoss => exact execMgmtLinkLoss_remembers s
  case railBelowFloor => exact execRailBelowFloor_remembers _ _ s
  case railAboveFloor => exact execRailAboveFloor_remembers _ _ s
  case paceWindow => exact execPaceWindow_remembers _ s
  case powerSample => exact execPowerSample_remembers _ s
  case rampStep => exact execRampStep_remembers s
  case droopBegin => exact execDroopBegin_remembers _ _ s
  case droopEnd => exact execDroopEnd_remembers _ _ s
  case gateRestartStep => exact execGateRestartStep_remembers _ s
  case thermalLimitStep => exact execThermalLimitStep_remembers s
  case thermalTrip => exact execThermalTrip_remembers s
  case verticalTransfer => exact execVerticalTransfer_remembers _ _ _ _ s
  case powerClusterFail => exact execPowerClusterFail_remembers _ s
  case tileFloorTimeout => exact execTileFloorTimeout_remembers _ s
  case homeSliceAccess => exact execHomeSliceAccess_remembers _ _ _ _ s
  case sliceFillReturn => exact execSliceFillReturn_remembers _ _ s
  case lineRepair => exact execLineRepair_remembers _ s
  case hbmRefresh => exact execHbmRefresh_remembers _ _ s
  case patrolScrub => exact execPatrolScrub_remembers _ s
  case hbmChannelFail => exact execHbmChannelFail_remembers _ _ s
  case stallSample => exact execStallSample_remembers s
  case tileProgramStart => exact execTileProgramStart_remembers _ s
  case nop => exact execNop_remembers _ s
  case loop => exact execLoop_remembers _ s
  case setb => exact execSetb_remembers _ s
  case loadb => exact execLoadb_remembers _ s
  case matmul => exact execMatmul_remembers _ s
  case endProgram => exact execEndProgram_remembers _ s
  case descriptorComplete => exact execDescriptorComplete_remembers _ _ s
  case trap => exact execTrap_remembers _ s
  case batchRelease => exact execBatchRelease_remembers _ s
  case sectorDone => exact execSectorDone_remembers _ _ s
  case mergePass => exact execMergePass_remembers _ s
  case sweepFeed => exact execSweepFeed_remembers _ s
  case stagedRowReady => exact execStagedRowReady_remembers _ _ s
  case denseCheckUpdate => exact execDenseCheckUpdate_remembers _ s
  case stagingCut => exact execStagingCut_remembers s
  case sweepRow => exact execSweepRow_remembers _ _ s
  case sweepWriteAck => exact execSweepWriteAck_remembers _ _ s
  case sweepResume => exact execSweepResume_remembers s
  case stepBoundary => exact execStepBoundary_remembers _ s
  case laneFail => exact execLaneFail_remembers _ _ s
  case portTrainingDone => exact execPortTrainingDone_remembers _ _ _ s
  case trainingRetry => exact execTrainingRetry_remembers _ _ _ s
  case flitReceive => exact execFlitReceive_remembers _ _ s
  case hopDeadline => exact execHopDeadline_remembers _ s
  case probe => exact execProbe_remembers _ s
  case data => exact execData_remembers _ s
  case ready => exact execReady_remembers _ s
  case go => exact execGo_remembers _ s
  case result => exact execResult_remembers _ s
  case ack => exact execAck_remembers _ s
  case pathNotice => exact execPathNotice_remembers _ s
  case inbound => exact execInbound_remembers _ s
  case tableReq => exact execTableReq_remembers _ s
  case tableRsp => exact execTableRsp_remembers _ s
  case mirror => exact execMirror_remembers _ s
  case mirrorAck => exact execMirrorAck_remembers _ s
  case relayedRequest => exact execRelayedRequest_remembers _ s
  case relayedReply => exact execRelayedReply_remembers _ s
  case committedStepReport => exact execCommittedStepReport_remembers _ s
  case restorePoint => exact execRestorePoint_remembers _ s
  case lineRequest => exact execLineRequest_remembers _ s
  case lineReply => exact execLineReply_remembers _ s
  case fullTransferRequest => exact execFullTransferRequest_remembers _ s
  case holdNotice => exact execHoldNotice_remembers _ s
  case ackTimer => exact execAckTimer_remembers _ s
  case resendTimeout => exact execResendTimeout_remembers _ s
  case reductionDeadline => exact execReductionDeadline_remembers _ s
  case collectiveComplete => exact execCollectiveComplete_remembers _ s
  case resultSend => exact execResultSend_remembers s
  case neighborRequest => exact execNeighborRequest_remembers _ _ _ s
  case rdmaWrite => exact execRdmaWrite_remembers _ _ _ _ s
  case rdmaRead => exact execRdmaRead_remembers _ _ _ _ s
  case flushReadRelease => exact execFlushReadRelease_remembers _ s
  case cnpReceive => exact execCnpReceive_remembers _ s
  case egressRateRise => exact execEgressRateRise_remembers _ s
  case transportRetryTimeout => exact execTransportRetryTimeout_remembers _ s
  case postCount => exact execPostCount_remembers _ s
  case cqConsumed => exact execCqConsumed_remembers _ s
  case entryRead => exact execEntryRead_remembers _ s
  case entryReread => exact execEntryReread_remembers _ s
  case dispatch => exact execDispatch_remembers _ _ s
  case fillCommand => exact execFillCommand_remembers _ _ s
  case exportEntry => exact execExportEntry_remembers _ _ s
  case exportAck => exact execExportAck_remembers _ s
  case nopEntry => exact execNopEntry_remembers _ _ s
  case entryComplete => exact execEntryComplete_remembers _ _ s
  case buddyTimeout => exact execBuddyTimeout_remembers s
  case memberTimeout => exact execMemberTimeout_remembers _ s
  case shardVerify => exact execShardVerify_remembers _ _ _ _ _ s
  case replay => exact execReplay_remembers s
  case twinTimeout => exact execTwinTimeout_remembers s
  case twinLateLimit => exact execTwinLateLimit_remembers s
  case twinRejoin => exact execTwinRejoin_remembers s
  case sessionExpire => exact execSessionExpire_remembers _ s
  case helloLockoutEnd => exact execHelloLockoutEnd_remembers s
  case relayTimeout => exact execRelayTimeout_remembers _ s
  case batchExpire => exact execBatchExpire_remembers _ _ s
  case attestReady => exact execAttestReady_remembers s
  case marginSweepEnd => exact execMarginSweepEnd_remembers _ _ s
  case feLinkDown => exact execFeLinkDown_remembers _ s
  case feLinkUp => exact execFeLinkUp_remembers _ s
  case priorityFlowControlFrame => exact execPriorityFlowControlFrame_remembers _ _ _ s
  case writeBackComplete => exact execWriteBackComplete_remembers _ s
  case tileSupplyBelowFloor => exact execTileSupplyBelowFloor_remembers _ _ s
  case tileSupplyRestored => exact execTileSupplyRestored_remembers _ _ s
  -- SEAL, whose constructor bears a word of Lean that names no case
  next r => exact serve_remembers Findings.nothing 4 r s

end Sys2Proof.Machine

namespace Sys2Proof.Proofs

open Sys2Proof Sys2Proof.Machine

/-- Settles O56: every command leaves a flash that holds on to what it held, and a step runs one command or none. -/
theorem flashNeverForgets : Obligations.FlashNeverForgets := by
  intro s t h
  have hkept : flashLe s.flash t.flash := by
    unfold step at h
    split at h
    · exact remembers_next.2 (flashLe_refl s.flash) t h
    · next c rest _ => exact exec_remembers c { s with pending := rest } t h
  obtain ⟨hfloor, hretired, hsigned, hresets, hmac, hcount⟩ := hkept
  exact ⟨hfloor, hretired, hsigned, hresets, hmac, hcount⟩

end Sys2Proof.Proofs
end

section
/-! The step: the command at the front of the queue, or none (log entry 9). -/

namespace Sys2Proof.Machine

open Sys2Proof

theorem step_of_cons {s : State} {c : Instr} {rest : List Instr} (h : s.pending = c :: rest) :
    step s = exec c { s with pending := rest } := by rw [step, h]

theorem step_of_nil {s : State} (h : s.pending = []) : step s = .next s := by rw [step, h]

end Sys2Proof.Machine

namespace Sys2Proof.Proofs

open Sys2Proof Sys2Proof.Machine

/-- Settles O51: the step is a case split on the queue. -/
theorem stepRunsTheFrontCommand : Obligations.StepRunsTheFrontCommand :=
  ⟨fun _ s => step_of_cons (s := { s with pending := _ :: s.pending }) rfl, fun _ _ _ => step_of_cons, fun _ => step_of_nil⟩

end Sys2Proof.Proofs
end

section
/-! Starts and stops of the module and its stack (R307, R308, R342 to R344, R367, R369). -/

namespace Sys2Proof.Machine

open Sys2Proof

theorem inputRuns_eq_true {mv : Nat} : inputRuns mv = true ↔ 28000 ≤ mv ∧ mv ≤ 44000 := decide_eq_true_iff

theorem inputRuns_eq_false {mv : Nat} (h : mv < 28000 ∨ 44000 < mv) : inputRuns mv = false := by
  rw [← Bool.not_eq_true, inputRuns_eq_true]
  omega

/-! ## Stops -/

theorem startState_atStart (s : State) (mv : Nat) : atStart s (startState s mv) :=
  ⟨rfl, rfl, rfl, rfl, rfl, rfl, rfl, rfl, rfl, rfl, rfl, rfl, rfl, rfl, rfl, rfl, rfl⟩

/-- A command that stops the converters keeps flash alone, and the pins as it gives them. -/
theorem stoppedState_restarted (s : State) (v36 present low : Bool) (mv : Nat) :
    ∃ t, restarted s (stoppedState s v36 present low mv) = .next t ∧ convertersStopped s t ∧ t.power.shutdownLow = low ∧
      t.power.modPresent = present :=
  ⟨_, rfl, ⟨startState_atStart s mv, rfl, rfl, rfl⟩, rfl, rfl⟩

theorem execInputStop_of_out_of_range {mv : Nat} (h : mv < 28000 ∨ 44000 < mv) (s : State) :
    execInputStop mv s = restarted s (stoppedState s false s.power.modPresent s.power.shutdownLow mv) :=
  if_neg (by rw [inputRuns_eq_false h]; exact Bool.false_ne_true)

theorem execModuleRemove_of_present {s : State} (h : s.power.modPresent = true) :
    execModuleRemove s = restarted s (stoppedState s s.power.v36 false s.power.shutdownLow s.power.inputMv) := if_pos h

/-! ## Failures of converters -/

theorem length_setAddSorted {l : NatSet} {n : Nat} (h : n ∉ l) : (setAddSorted l n).length = l.length + 1 := by
  induction l with
  | nil => rfl
  | cons m l ih =>
    obtain ⟨hm, hl⟩ := not_or.1 (mt List.mem_cons.2 h)
    rw [setAddSorted, if_neg hm]
    split
    · rfl
    · rw [List.length_cons, ih hl, List.length_cons]

section
variable {s : State} {c : Nat} (hnew : s.power.converterFailed.contains c = false)
include hnew

theorem length_converterFailed_add : (setAddSorted s.power.converterFailed c).length = s.power.converterFailed.length + 1 :=
  length_setAddSorted (by simpa using hnew)

variable (hc : c < 4)
include hc

theorem converter_fails : ¬ (s.power.converterFailed.contains c = true ∨ 4 ≤ c) := by
  rintro (h | h)
  · exact Bool.false_ne_true (hnew.symm.trans h)
  · omega

theorem execConverterFail_first (hnone : s.power.converterFailed.length = 0) :
    execConverterFail c s =
      done s (raise (s.onPower (fun p => { p with converterFailed := setAddSorted p.converterFailed c })) 0x06110C01 0) := by
  rw [execConverterFail, if_neg (converter_fails hnew hc)]
  simp only [onPower_power, length_converterFailed_add hnew, hnone, Nat.zero_add]

theorem execConverterFail_second (hone : s.power.converterFailed.length = 1) :
    execConverterFail c s =
      done s (raise (s.onPower (fun p => { p with converterFailed := setAddSorted p.converterFailed c })) 0x06110C02 0) := by
  rw [execConverterFail, if_neg (converter_fails hnew hc)]
  simp only [onPower_power, length_converterFailed_add hnew, hone, Nat.reduceAdd]

theorem execConverterFail_third (htwo : 2 ≤ s.power.converterFailed.length) :
    execConverterFail c s = restarted s (stoppedState s s.power.v36 s.power.modPresent s.power.shutdownLow s.power.inputMv) := by
  rw [execConverterFail, if_neg (converter_fails hnew hc)]
  dsimp only
  split <;> rename_i h
  · rw [onPower_power, length_converterFailed_add hnew] at h
    omega
  · rw [onPower_power, length_converterFailed_add hnew] at h
    omega
  · rfl

end

end Sys2Proof.Machine

namespace Sys2Proof.Proofs

open Sys2Proof Sys2Proof.Machine

/-- Settles O2: each stop leaves the stopped state, and a converter's failure goes by the number of those before it. -/
theorem convertersStopKeepingFlash : Obligations.ConvertersStopKeepingFlash := by
  refine ⟨⟨fun s mv h => ?stop, fun s => ?shutdown, fun s h => ?remove, fun s c hc hnew htwo => ?third⟩, fun s c hc hnew =>
    ⟨fun hnone => execConverterFail_first hnew hc (by rw [hnone]; rfl), execConverterFail_second hnew hc⟩⟩
  case stop =>
    obtain ⟨t, ht, hstopped, -, -⟩ := stoppedState_restarted s false s.power.modPresent s.power.shutdownLow mv
    exact ⟨t, (execInputStop_of_out_of_range h s).trans ht, hstopped⟩
  case shutdown =>
    obtain ⟨t, ht, hstopped, hlow, -⟩ := stoppedState_restarted s s.power.v36 s.power.modPresent true s.power.inputMv
    exact ⟨t, ht, hstopped, hlow⟩
  case remove =>
    obtain ⟨t, ht, hstopped, -, hpresent⟩ := stoppedState_restarted s s.power.v36 false s.power.shutdownLow s.power.inputMv
    exact ⟨t, (execModuleRemove_of_present h).trans ht, hstopped, hpresent⟩
  case third =>
    obtain ⟨t, ht, hstopped, -, -⟩ := stoppedState_restarted s s.power.v36 s.power.modPresent s.power.shutdownLow s.power.inputMv
    exact ⟨t, (execConverterFail_third hnew hc htwo).trans ht, hstopped⟩

end Sys2Proof.Proofs
end

section
/-! Starts of the module from phase 0, and stack resets (R289, R342 to R344). -/

namespace Sys2Proof.Machine

open Sys2Proof

/-- Until phase 8 an event waits with those of the start-up (Table 14.7). -/
theorem raise_of_starting {s : State} (h : s.boot.phase < 8) (code : Code) (arg : Nat) :
    raise s code arg = s.onBoot (fun b => { b with held := b.held ++ [(code, arg)] }) := if_pos h

theorem startState_boot (s : State) (mv : Nat) : (startState s mv).boot = { Boot.phase0 with lastReset := recordOf s } := by
  rw [startState, recordOf]
  cases s.flash.reset <;> rfl

/-- The start of a module, whose event of a low input waits for phase 8 (R307, R342). -/
theorem startState_started (s : State) (mv : Nat) :
    startedFrom s { Power.atPowerOn with inputMv := mv } (recordOf s) s.flash [] (startState s mv) :=
  ⟨startState_atStart s mv, rfl, startState_boot s mv, rfl⟩

section
variable {s : State} {mv : Nat} (hlow : 28000 ≤ mv) (hhigh : mv ≤ 44000)
include hlow hhigh

theorem startOrStay_of_runs : startOrStay s true true false mv =
    if mv < 32000 then raise ((startState s mv).onPower (fun p => { p with lowInput := true })) 0x06110C03 0 else startState s mv :=
  if_pos (by rw [inputRuns_eq_true.2 ⟨hlow, hhigh⟩]; rfl)

theorem startOrStay_started : startedFrom s (powerAt mv) (recordOf s) s.flash (if mv < 32000 then [(0x06110C03, 0)] else [])
    (startOrStay s true true false mv) := by
  obtain ⟨hat, hflash, hboot, hpower⟩ := startState_started s mv
  rw [startOrStay_of_runs hlow hhigh]
  by_cases h : mv < 32000
  · have hphase : ((startState s mv).onPower (fun p => { p with lowInput := true })).boot.phase < 8 := by
      rw [onPower_boot, hboot]
      exact (by decide : 0 < 8)
    rw [if_pos h, if_pos h, raise_of_starting hphase]
    refine ⟨hat, hflash, ?_, ?_⟩
    · rw [onBoot_boot, onPower_boot, hboot]
      rfl
    · rw [onBoot_power, onPower_power, hpower, powerAt, decide_eq_true h]
  · rw [if_neg h, if_neg h]
    exact ⟨hat, hflash, hboot, by rw [hpower, powerAt, decide_eq_false h]; rfl⟩

end

theorem execPowerOn_of_pins {s : State} (mv : Nat) (hpresent : s.power.modPresent = true) (hrelease : s.power.shutdownLow = false) :
    execPowerOn mv s = restarted s (startOrStay s true true false mv) := by rw [execPowerOn, hpresent, hrelease]

theorem execShutdownRelease_of_pins {s : State} (hv36 : s.power.v36 = true) (hpresent : s.power.modPresent = true)
    (hasserted : s.power.shutdownLow = true) :
    execShutdownRelease s = restarted s (startOrStay s true true false s.power.inputMv) := by
  rw [execShutdownRelease, if_pos hasserted, hv36, hpresent]

theorem execModuleInsert_of_pins {s : State} (hv36 : s.power.v36 = true) (habsent : s.power.modPresent = false)
    (hrelease : s.power.shutdownLow = false) :
    execModuleInsert s = restarted s (startOrStay s true true false s.power.inputMv) := by
  rw [execModuleInsert, habsent, if_neg Bool.false_ne_true, hv36, hrelease]

/-! ## Stack resets -/

/-- The record that a stack reset leaves. -/
def resetRecord (s : State) (cause : Nat) (code : Code) : ResetRecord :=
  ⟨cause, if cause = 6 then code else 0, s.train.committed, s.flash.resets + 1⟩

theorem stackResetWith_started {cause : Nat} (hcause : cause ≠ 0) (s : State) (code : Code) :
    startedFrom s (powerKept s) (resetRecord s cause code) { s.flash with resets := s.flash.resets + 1 } [(0x08000B07, 0)]
      (stackResetWith s cause code) ∧ (stackResetWith s cause code).resil.memoryLost = true := by
  rw [stackResetWith, if_neg hcause]
  dsimp only
  rw [raise_of_starting (show 0 < 8 by decide)]
  exact ⟨⟨⟨rfl, rfl, rfl, rfl, rfl, rfl, rfl, rfl, rfl, rfl, rfl, rfl, rfl, rfl, rfl, rfl, rfl⟩, rfl, rfl, rfl⟩, rfl⟩

theorem resetStack_started {s : State} (hon : s.power.convertersOn = true) {cause : Nat} (hcause : cause ≠ 0) (code : Code) :
    ∃ t, resetStack s cause code = .next t ∧
      startedFrom s (powerKept s) (resetRecord s cause code) { s.flash with resets := s.flash.resets + 1 } [(0x08000B07, 0)] t ∧
      t.resil.memoryLost = true :=
  ⟨_, if_pos hon, stackResetWith_started hcause s code⟩

theorem execRailBelowRetention_of_below {mv : Nat} (h : mv < 450) (layer : Nat) (s : State) :
    execRailBelowRetention layer mv s = resetStack s 2 0 := if_neg (Nat.not_le.2 h)

/-- The flash with the record of a trip by sensor `i` (R322). -/
def withTrip (s : State) (i : Nat) : State :=
  s.onFlash (fun f => { f with
    trip := some ⟨tripCause s i, i, nat32 (s.power.temps.getD i 0), f.trips + 1, s.train.committed⟩
    trips := f.trips + 1 })

theorem execThermalTrip_of_sensor {s : State} {i : Nat} (hon : s.power.convertersOn = true) (hi : tripSensor s = some i) :
    execThermalTrip s = restarted s (stackResetWith (withTrip s i) 3 0) := by
  rw [execThermalTrip, hi]
  exact if_pos hon

end Sys2Proof.Machine

namespace Sys2Proof.Proofs

open Sys2Proof Sys2Proof.Machine

/-- Settles O1: the starts go through one start of the module and the resets through one reset of the stack. -/
theorem moduleStartsAndRestarts : Obligations.ModuleStartsAndRestarts := by
  refine ⟨⟨fun s mv hlow hhigh hpresent hrelease => ?powerOn, fun s hlow hhigh hv36 hpresent hasserted => ?release,
    fun s hlow hhigh hv36 habsent hrelease => ?insert⟩, fun s cause code hon hcause _ => ?reset, fun s _ hon => ?watchdog,
    fun s layer mv hon hmv => ?retention, fun s i hon hi => ?trip⟩
  case powerOn =>
    exact ⟨_, execPowerOn_of_pins mv hpresent hrelease, startOrStay_started hlow hhigh⟩
  case release =>
    exact ⟨_, execShutdownRelease_of_pins hv36 hpresent hasserted, startOrStay_started hlow hhigh⟩
  case insert =>
    exact ⟨_, execModuleInsert_of_pins hv36 habsent hrelease, startOrStay_started hlow hhigh⟩
  case reset => exact resetStack_started hon (Nat.one_le_iff_ne_zero.1 hcause) code
  case watchdog => exact resetStack_started hon (by decide) 0
  case retention =>
    obtain ⟨t, ht, hstarted⟩ := resetStack_started hon (show 2 ≠ 0 by decide) 0
    exact ⟨t, (execRailBelowRetention_of_below hmv layer s).trans ht, hstarted⟩
  case trip =>
    exact ⟨_, execThermalTrip_of_sensor hon hi, stackResetWith_started (by decide) (withTrip s i) 0⟩

end Sys2Proof.Proofs
end

section
/-! The power sample and the thermal step (R310 to R312, R317 to R321): the parts of the state that each leaves altered. -/

namespace Sys2Proof.Machine

open Sys2Proof

/-! ## The power sample -/

/-- Raising events one after another changes start-up and the dictionary server alone. -/
theorem foldl_raise_frame {α : Type} {f : State → α → State} (hf : ∀ t x, ∃ b d, f t x = { t with boot := b, dict := d }) (s : State)
    (l : List α) : ∃ b d, l.foldl f s = { s with boot := b, dict := d } := by
  induction l generalizing s with
  | nil => exact ⟨s.boot, s.dict, rfl⟩
  | cons x l ih =>
    obtain ⟨b, d, h⟩ := hf s x
    rw [List.foldl_cons, h]
    exact ih _

/-- The power system with the readings of a sample, `hot` its hot stacks and `low` whether its input is low. -/
def sampled (p : Power) (x : PowerReading) (hot : List Nat) (low : Bool) : Power :=
  { p with
    inputMv := x.inputMv
    samples := (x.inputW :: p.samples).take 125
    railMv := x.railMv
    railMa := x.railMa
    temps := x.temps
    tempMax := List.zipWith max p.tempMax x.temps
    hbmHot := hot
    lowInput := low }

theorem readSensors_frame (s : State) (x : PowerReading) :
    ∃ b d c hot low, readSensors s x = { s with boot := b, dict := d, cache := c, power := sampled s.power x hot low } := by
  unfold readSensors
  extract_lets s1 hot s2 p2 c2 s3
  obtain ⟨b, d, h2⟩ : ∃ b d, s2 = { s1 with boot := b, dict := d } := by
    refine foldl_raise_frame (fun t k => ?_) s1 hot
    split
    · exact ⟨t.boot, t.dict, rfl⟩
    · exact raise_frame t _ k
  have h3 : s3 = { s with boot := b, dict := d, cache := s3.cache, power := sampled s.power x hot s.power.lowInput } := by
    simp only [s3, p2, h2]
    rfl
  generalize s3.cache = c at h3
  rw [h3]
  split
  · split
    · exact ⟨b, d, c, hot, s.power.lowInput, rfl⟩
    · obtain ⟨b', d', h⟩ := raise_frame { s with boot := b, dict := d, cache := c, power := sampled s.power x hot true } 0x06110C03 0
      exact ⟨b', d', c, hot, true, h⟩
  · exact ⟨b, d, c, hot, false, rfl⟩

/-- The control of a sample sets target, gate and limit. -/
theorem controlSample_frame (s : State) :
    ∃ target gate limit, controlSample s = s.onPower (fun p => { p with target := target, powerGate := gate, powerLimitMv := limit }) := by
  unfold controlSample
  dsimp only
  split
  · exact ⟨_, _, _, rfl⟩
  · split
    · exact ⟨_, s.power.powerGate, _, rfl⟩
    · exact ⟨_, s.power.powerGate, s.power.powerLimitMv, rfl⟩

theorem bucketActive_of_empty {levelUj : Nat} (h : levelUj = 0) (was : Bool) (capacityMj : Nat) :
    bucketActive was levelUj capacityMj = false := if_pos h

theorem bucketActive_of_full {levelUj capacityMj : Nat} (hpos : 0 < capacityMj) (h : 750 * capacityMj ≤ levelUj) (was : Bool) :
    bucketActive was levelUj capacityMj = true := by
  rw [bucketActive, if_neg (by omega), decide_eq_true h, Bool.or_true]

theorem fillBucket_add (level w r : Nat) : fillBucket level w r + 8 * r = max (level + 8 * w) (8 * r) := Nat.sub_add_eq_max _ _

/-- The power system with the buckets after a sample that is read into `s1` (R312). -/
def bucketsFilled (s1 : State) (x : PowerReading) (p : Power) : Power :=
  { p with
    shortUj := fillBucket p.shortUj x.inputW (shortRate s1)
    longUj := fillBucket p.longUj x.inputW (longRate s1)
    shortActive := bucketActive p.shortActive (fillBucket p.shortUj x.inputW (shortRate s1)) 400
    longActive := bucketActive p.longActive (fillBucket p.longUj x.inputW (longRate s1)) (longCapacity s1) }

/-- The sensors read and the buckets filled. -/
def sampleFilled (s : State) (x : PowerReading) : State := (readSensors s x).onPower (bucketsFilled (readSensors s x) x)

/-- The counters of a sample whose control is done: throttle reason and time, and energies (R317 to R319). -/
def sampleCounted (t : State) (x : PowerReading) : State :=
  (t.onPower (fun p => { p with
    throttleReason := throttleReasonOf t
    throttleTime := if throttleReasonOf t = 0 then p.throttleTime else tabCount p.throttleTime (throttleReasonOf t) 8
    queueEnergy := queueEnergyAfter t x
    energy := energyAfter p.energy x
    tileLoad := [] })).onCracker (fun c => { c with queueLoad := [] })

theorem execPowerSample_eq (s : State) (x : PowerReading) :
    execPowerSample x s = done s (sampleCounted (controlSample (sampleFilled s x)) x) := rfl

/-- The power system `p` with the control of a sample, its throttle reason, and its energies. -/
def controlled (p : Power) (x : PowerReading) (target gate limit reason : Nat) (queues : Tab Nat) : Power :=
  { p with
    target := target
    powerGate := gate
    powerLimitMv := limit
    throttleReason := reason
    throttleTime := if reason = 0 then p.throttleTime else tabCount p.throttleTime reason 8
    queueEnergy := queues
    energy := energyAfter p.energy x
    tileLoad := [] }

theorem execPowerSample_frame (s : State) (x : PowerReading) :
    ∃ b d c hot low target gate limit reason queues, execPowerSample x s = done s { s with
      boot := b
      dict := d
      cache := c
      cracker := { s.cracker with queueLoad := [] }
      power := controlled (bucketsFilled (readSensors s x) x (sampled s.power x hot low)) x target gate limit reason queues } := by
  obtain ⟨b, d, c, hot, low, hread⟩ := readSensors_frame s x
  obtain ⟨target, gate, limit, hcontrol⟩ := controlSample_frame (sampleFilled s x)
  refine ⟨b, d, c, hot, low, target, gate, limit, throttleReasonOf (controlSample (sampleFilled s x)),
    queueEnergyAfter (controlSample (sampleFilled s x)) x, (execPowerSample_eq s x).trans (congrArg (done s) ?_)⟩
  unfold sampleCounted
  generalize throttleReasonOf (controlSample (sampleFilled s x)) = reason
  generalize queueEnergyAfter (controlSample (sampleFilled s x)) x = queues
  rw [hcontrol, sampleFilled]
  generalize bucketsFilled (readSensors s x) x = fill
  rw [hread]
  rfl

/-! ## The thermal step -/

/-- The thermal limit after a step (R321). -/
def steppedLimit (s : State) : Nat :=
  if 10 * (cfg s 0x200403 : Int) < hottestDie s then max 620 (s.power.thermalLimitMv - 5)
  else if hottestDie s + 20 ≤ 10 * (cfg s 0x200403 : Int) then min 850 (s.power.thermalLimitMv + 5)
  else s.power.thermalLimitMv

theorem steppedLimit_of_above {s : State} (h : 10 * (cfg s 0x200403 : Int) < hottestDie s) :
    steppedLimit s = max 620 (s.power.thermalLimitMv - 5) := if_pos h

theorem steppedLimit_of_below {s : State} (h : hottestDie s + 20 ≤ 10 * (cfg s 0x200403 : Int)) :
    steppedLimit s = min 850 (s.power.thermalLimitMv + 5) := by
  rw [steppedLimit, if_neg (by omega), if_pos h]

/-- The gates of all rows after a step. -/
def steppedGates (s : State) : Tab Nat := (List.range 16).foldl (fun g y => tabSet 16 g y (stepThermalGate s y)) s.power.thermalGates

/-- A step sets limit, gates and the mark of a raised junction event; besides it raises that event. -/
theorem execThermalLimitStep_frame (s : State) :
    ∃ b d j, execThermalLimitStep s = done s { s with
      boot := b
      dict := d
      power := { s.power with thermalLimitMv := steppedLimit s, thermalGates := steppedGates s, junctionRaised := j } } := by
  unfold execThermalLimitStep
  dsimp only
  split
  · obtain ⟨b, d, h⟩ := raise_frame (s.onPower (fun p =>
      { p with thermalLimitMv := steppedLimit s, thermalGates := steppedGates s, junctionRaised := true })) 0x06120C05 0
    exact ⟨b, d, true, congrArg (done s) h⟩
  · split
    · exact ⟨s.boot, s.dict, _, rfl⟩
    · exact ⟨s.boot, s.dict, s.power.junctionRaised, rfl⟩

end Sys2Proof.Machine

namespace Sys2Proof.Proofs

open Sys2Proof Sys2Proof.Machine

/-- Settles O5: a sample is read, filled into the buckets and controlled, and a thermal step sets limit and gates. -/
theorem powerAndHeatAreBounded : Obligations.PowerAndHeatAreBounded := by
  refine ⟨fun s x _ _ _ _ => ?sample, fun s => ?thermal⟩
  case sample =>
    obtain ⟨b, d, c, hot, low, target, gate, limit, reason, queues, h⟩ := execPowerSample_frame s x
    refine ⟨_, h, rfl, rfl, rfl, rfl, rfl, rfl, fillBucket_add _ _ _, fillBucket_add _ _ _, fun hempty => ?_, fun hempty => ?_,
      fun hfull => ?_, rfl, rfl, rfl, rfl, rfl, rfl, rfl, rfl, rfl, rfl⟩
    · exact bucketActive_of_empty hempty _ _
    · exact bucketActive_of_empty hempty _ _
    · exact bucketActive_of_full (capacityMj := 400) (by decide) hfull _
  case thermal =>
    obtain ⟨b, d, j, h⟩ := execThermalLimitStep_frame s
    exact ⟨_, h, steppedLimit_of_above, steppedLimit_of_below, rfl, rfl, rfl, rfl, rfl, rfl, rfl, rfl⟩

end Sys2Proof.Proofs
end

section
/-! Images and the phases of start-up (R346 to R355, R358): the choice of a copy alters flash, the events held and the log alone, and
what makes a copy valid stays. -/

namespace Sys2Proof.Machine

open Sys2Proof

/-! ## Events of start-up -/

/-- Logging an event leaves the values of the dictionary. -/
theorem logEvent_frame (s : State) (code : Code) (arg : Nat) :
    ∃ d, logEvent s code arg = { s with dict := d } ∧ d.values = s.dict.values := by
  unfold logEvent
  dsimp only
  split
  · split <;> exact ⟨_, rfl, rfl⟩
  · exact ⟨_, rfl, rfl⟩

/-- Raising an event changes the log, or what start-up holds of it. -/
theorem raise_held (s : State) (code : Code) (arg : Nat) :
    ∃ h d, raise s code arg = { s with boot := { s.boot with held := h }, dict := d } ∧ d.values = s.dict.values := by
  unfold raise
  split
  · exact ⟨_, s.dict, rfl, rfl⟩
  · obtain ⟨d, h, hvalues⟩ := logEvent_frame s code arg
    exact ⟨s.boot.held, d, h, hvalues⟩

/-! ## Image copies -/

/-- `t` differs from `s` in the states of image copies, in the events held and in the log alone. -/
def imagesOnly (s t : State) : Prop :=
  ∃ h d l, t = { s with boot := { s.boot with held := h }, dict := d, flash := { s.flash with copies := l } } ∧
    d.values = s.dict.values ∧ ∀ c, (l.getD c ⟨0, []⟩).bytes = (s.flash.copies.getD c ⟨0, []⟩).bytes

theorem imagesOnly_refl (s : State) : imagesOnly s s := ⟨_, _, _, rfl, rfl, fun _ => rfl⟩

theorem imagesOnly_trans {s t u : State} (h₁ : imagesOnly s t) (h₂ : imagesOnly t u) : imagesOnly s u := by
  obtain ⟨_, _, _, rfl, hv₁, hb₁⟩ := h₁
  obtain ⟨h, d, l, rfl, hv₂, hb₂⟩ := h₂
  exact ⟨h, d, l, rfl, hv₂.trans hv₁, fun c => (hb₂ c).trans (hb₁ c)⟩

theorem imagesOnly_raise (s : State) (code : Code) (arg : Nat) : imagesOnly s (raise s code arg) := by
  obtain ⟨h, d, hr, hvalues⟩ := raise_held s code arg
  exact ⟨h, d, s.flash.copies, hr, hvalues, fun _ => rfl⟩

theorem imagesOnly_setCopyState (s : State) (copy st : Nat) : imagesOnly s (setCopyState s copy st) := by
  refine ⟨s.boot.held, s.dict, _, rfl, rfl, fun c => ?_⟩
  rw [getD_listSet]
  split
  · next h => rw [h.1]
  · rfl

theorem imagesOnly_skipCopy (s : State) (copy : Nat) : imagesOnly s (skipCopy s copy) := by
  unfold skipCopy
  split
  · exact imagesOnly_refl s
  · exact imagesOnly_trans (imagesOnly_setCopyState s copy 2) (imagesOnly_raise _ _ _)

theorem imagesOnly_chooseCopy (l : List Nat) (s : State) : imagesOnly s (chooseCopy l s).2 := by
  induction l generalizing s with
  | nil => exact imagesOnly_refl s
  | cons c l ih =>
    unfold chooseCopy
    split
    · split
      · exact imagesOnly_trans (imagesOnly_trans (imagesOnly_raise s _ c) (imagesOnly_skipCopy _ c)) (ih _)
      · exact imagesOnly_setCopyState s c 1
    · exact imagesOnly_trans (imagesOnly_skipCopy s c) (ih _)

/-! ## Which copy is chosen -/

theorem copyBytes_of_imagesOnly {s t : State} (h : imagesOnly s t) (copy off len : Nat) : copyBytes t copy off len = copyBytes s copy off len := by
  obtain ⟨_, _, _, rfl, -, hbytes⟩ := h
  simp only [copyBytes, hbytes]

theorem imageHeader_of_imagesOnly {s t : State} (h : imagesOnly s t) (copy : Nat) : imageHeader t copy = imageHeader s copy :=
  congrArg natOfBytes (copyBytes_of_imagesOnly h copy 0 256)

theorem imageSigned_of_imagesOnly {s t : State} (h : imagesOnly s t) (copy : Nat) : imageSigned t copy = imageSigned s copy := by
  have hkey : imageKey t copy = imageKey s copy := by
    obtain ⟨_, _, _, rfl, -, -⟩ := h
    rfl
  have hok : headerOk t copy = headerOk s copy := by rw [headerOk, headerOk, imageHeader_of_imagesOnly h]
  have hlength : payloadLength t copy = payloadLength s copy := by rw [payloadLength, payloadLength, imageHeader_of_imagesOnly h]
  unfold imageSigned payloadOf
  rw [hok, hkey, hlength, copyBytes_of_imagesOnly h, copyBytes_of_imagesOnly h, copyBytes_of_imagesOnly h, copyBytes_of_imagesOnly h]

theorem imageAllowed_of_imagesOnly {s t : State} (h : imagesOnly s t) (copy : Nat) : imageAllowed t copy = imageAllowed s copy := by
  have hheader := imageHeader_of_imagesOnly h copy
  unfold imageAllowed
  rw [hheader]
  obtain ⟨_, _, _, rfl, -, -⟩ := h
  rfl

/-- What makes a copy valid is its bytes, the keys and the floor (R348). -/
theorem imageValid_of_imagesOnly {s t : State} (h : imagesOnly s t) (copy : Nat) : imageValid t copy = imageValid s copy := by
  rw [imageValid, imageValid, imageSigned_of_imagesOnly h, imageAllowed_of_imagesOnly h]

theorem imageSections_of_imagesOnly {s t : State} (h : imagesOnly s t) (copy : Nat) : imageSections t copy = imageSections s copy := by
  simp only [imageSections, payloadOf, payloadLength, imageHeader, copyBytes_of_imagesOnly h copy]

theorem chooseCopy_of_valid {s : State} {c : Nat} (hvalid : imageValid s c = true) (hformed : 2 ≤ c → imageSections s c ≠ none) (l : List Nat) :
    (chooseCopy (c :: l) s).1 = some c := by
  rw [chooseCopy, if_pos hvalid, if_neg (fun h => hformed h.1 h.2)]

theorem chooseCopy_of_invalid {s : State} {c : Nat} (h : imageValid s c = false) (l : List Nat) :
    chooseCopy (c :: l) s = chooseCopy l (skipCopy s c) := by
  rw [chooseCopy, h, if_neg Bool.false_ne_true]

theorem chooseCopy_none {s : State} {l : List Nat} (h : ∀ c ∈ l, imageValid s c = false) : (chooseCopy l s).1 = none := by
  induction l generalizing s with
  | nil => rfl
  | cons c l ih =>
    rw [chooseCopy_of_invalid (h c (List.mem_cons_self ..))]
    exact ih fun d hd => (imageValid_of_imagesOnly (imagesOnly_skipCopy s c) d).trans (h d (List.mem_cons_of_mem _ hd))

/-! ## ROM_VERIFY -/

/-- The state after the firmware copies were checked: the first valid one runs, or the module stays in recovery (R348, R349). -/
def firmwareChosen (x : Option Nat × State) : State :=
  match x.1 with
  | some c => x.2.onBoot (fun b => { b with phase := 2, firmwareRunning := c })
  | none => x.2.onBoot (fun b => { b with phase := 1 })

theorem firmwareChosen_of_some {x : Option Nat × State} {c : Nat} (h : x.1 = some c) :
    (firmwareChosen x).boot.phase = 2 ∧ (firmwareChosen x).boot.firmwareRunning = c := by
  rw [firmwareChosen, h]
  exact ⟨rfl, rfl⟩

theorem firmwareChosen_of_none {x : Option Nat × State} (h : x.1 = none) :
    (firmwareChosen x).boot.phase = 1 ∧ (firmwareChosen x).boot.firmwareRunning = x.2.boot.firmwareRunning := by
  rw [firmwareChosen, h]
  exact ⟨rfl, rfl⟩

theorem firmwareChosen_frame (x : Option Nat × State) : ∃ b, firmwareChosen x = { x.2 with boot := b } := by
  unfold firmwareChosen
  split <;> exact ⟨_, rfl⟩

theorem execRomVerify_eq {s : State} (hphase : s.boot.phase = 0) (hon : s.power.convertersOn = true) {first : Nat}
    (hfirst : first = if s.flash.bootSelect = 0 then 0 else 1) :
    execRomVerify s = done s (firmwareChosen (chooseCopy [first, 1 - first] s)) := by
  have horder : (if s.flash.bootSelect = 0 then [0, 1] else [1, 0]) = [first, 1 - first] := by
    rw [hfirst]
    split <;> rfl
  rw [execRomVerify, if_neg (by simp [hphase, hon]), horder]
  dsimp only
  unfold firmwareChosen
  split <;> rename_i e <;> rw [e]

/-! ## HAZEL_BOOT -/

/-- A trip record is presented once (R322). -/
def tripPresented (s : State) : State :=
  match s.flash.trip with
  | some r => raise ((s.onFlash (fun f => { f with trip := none })).onBoot (fun b => { b with lastTrip := r })) 0x06120C07 0
  | none => s

theorem tripPresented_frame (s : State) : ∃ b d, tripPresented s = { s with boot := b, dict := d, flash := { s.flash with trip := none } } ∧
    d.values = s.dict.values ∧ ∀ r, s.flash.trip = some r → b.lastTrip = r := by
  unfold tripPresented
  split
  · next r h =>
    obtain ⟨held, d, hraise, hvalues⟩ :=
      raise_held ((s.onFlash (fun f => { f with trip := none })).onBoot (fun b => { b with lastTrip := r })) 0x06120C07 0
    exact ⟨_, d, hraise, hvalues, fun q hq => by rw [h] at hq; exact Option.some.inj hq⟩
  · next h =>
    refine ⟨s.boot, s.dict, ?_, rfl, fun r hr => by rw [h] at hr; cases hr⟩
    rw [← h]

/-- The user image in use, by the copy chosen. -/
def userOf : Option Nat → Nat
  | some c => c - 2
  | none => 0xFF

/-- The state after the user images were checked (R349, R350, R358). -/
def userChosen (s : State) (x : Option Nat × State) : State :=
  (tripPresented x.2).onBoot (fun b => { b with phase := 3, userRunning := userOf x.1, sigIndex := sigReserved s })

theorem execHazelBoot_eq {s : State} (hphase : s.boot.phase = 2) {first : Nat} (hfirst : first = if s.flash.userSelect = 0 then 2 else 3) :
    execHazelBoot s = done s (userChosen s (chooseCopy [first, 5 - first] s)) := by
  have horder : (if s.flash.userSelect = 0 then [2, 3] else [3, 2]) = [first, 5 - first] := by
    rw [hfirst]
    split <;> rfl
  rw [execHazelBoot, if_neg (by simp [hphase]), horder]
  rfl

/-! ## The later tasks -/

theorem execRailsUp_eq {s : State} (hphase : s.boot.phase = 3) :
    execRailsUp s = done s { s with power := { s.power with railMv := s.power.railSet }, boot := { s.boot with phase := 4 } } :=
  if_neg (by simp [hphase])

theorem execServiceFill_eq {s : State} (hphase : s.boot.phase = 5) :
    execServiceFill s = done s { s with boot := { s.boot with phase := 6 } } := if_neg (by simp [hphase])

theorem filter_range_lt (n a : Nat) : (List.range n).filter (fun p => decide (p < a)) = (List.range n).take a := by
  induction n with
  | zero => simp
  | succ n ih =>
    rw [List.range_succ, List.filter_append, ih, List.take_append, List.length_range]
    by_cases h : n < a
    · rw [List.take_of_length_le (l := [n]) (by simp; omega)]
      simp [h]
    · simp [h, Nat.sub_eq_zero_of_le (Nat.le_of_not_lt h)]

theorem filter_range_ge (n a : Nat) : (List.range n).filter (fun p => decide (a ≤ p)) = (List.range n).drop a := by
  induction n with
  | zero => simp
  | succ n ih =>
    rw [List.range_succ, List.filter_append, ih, List.drop_append, List.length_range]
    by_cases h : a ≤ n
    · simp [h, Nat.sub_eq_zero_of_le h]
    · rw [List.drop_of_length_le (l := [n]) (by simp; omega)]
      simp [h]

/-- Spare mapping of tiles of which none is retired (R15). -/
theorem spareMapping_of_none_retired {k : Stack} (h : k.retired = []) (a : Nat) :
    spareMapping k a = { k with tileMap := (Stack.mapped a).tileMap, spare := (Stack.mapped a).spare } := by
  simp only [spareMapping, h, Stack.mapped, filter_range_lt, filter_range_ge, List.contains_nil, Bool.not_false, List.filter_true]

/-- A count of zero in an empty report. -/
theorem setBist_zero {s : State} (h : s.boot.bistReport = []) (row : Nat) : setBist s row 0 = s := by
  have hreport : tabSet 0 s.boot.bistReport row 0 = s.boot.bistReport := by
    rw [h]
    rfl
  rw [setBist, State.onBoot, hreport]

theorem bistTests_nothing {s : State} (h : s.boot.bistReport = []) : bistTests s ⟨false, [], [], [], [], []⟩ = (s, true) := by
  simp only [bistTests, List.foldl_nil, List.length_nil, setBist_zero h, bistInterfaces, bistMarch, Bool.and_self]

theorem bistHbm_nothing {s : State} (h : s.boot.bistReport = []) : bistHbm s ⟨[], []⟩ = (s, true) := by
  simp only [bistHbm, List.foldl_nil, List.length_nil, setBist_zero h, bistChannels]

/-- BUILT_IN_TEST that finds nothing, on a unit without retirements (R354, R355). -/
theorem execBuiltInTest_nothing {s : State} (hphase : s.boot.phase = 4) (hretired : s.flash.retirements = [])
    (hreport : s.boot.bistReport = []) :
    execBuiltInTest ⟨false, [], [], [], [], []⟩ s = done s { s with
      stack := Stack.mapped s.flash.activeCount
      prot := { s.prot with spread := [] }
      boot := { s.boot with phase := 5, retired := true } } := by
  have hchannels : loggedChannels s.flash = [] := by rw [loggedChannels, hretired]; rfl
  rw [execBuiltInTest, if_neg (by simp [hphase])]
  dsimp only
  rw [hretired, hchannels, if_neg Bool.false_ne_true, bistTests_nothing rfl]
  dsimp only
  rw [if_pos (by rfl), mapTiles, spareMapping_of_none_retired (by rfl), ← hreport]
  rfl

/-- HBM_TRAINING that finds nothing, without a user image (R353). -/
theorem execHbmTraining_nothing {s : State} (hphase : s.boot.phase = 6) (huser : s.boot.userRunning = 0xFF) (hreport : s.boot.bistReport = []) :
    execHbmTraining ⟨[], []⟩ s = done s { s with boot := { s.boot with phase := 7 } } := by
  rw [execHbmTraining, if_neg (by simp [hphase]), bistHbm_nothing hreport, huser]
  rfl

end Sys2Proof.Machine
end

section
/-! DEFAULTS_APPLY (R336, R353, R355): once the module is ready, what its ports do leaves phase, values, memory and stack. -/

namespace Sys2Proof.Machine

open Sys2Proof

/-- `t` differs from the ready module `s` in its links, its log and what it keeps of its peers alone. -/
def linksOfReady (s t : State) : Prop :=
  8 ≤ s.boot.phase → s.resil.state = 1 →
    t.boot = s.boot ∧ t.resil.state = 1 ∧ t.dict.values = s.dict.values ∧ t.mem = s.mem ∧ t.stack = s.stack

theorem linksOfReady_refl (s : State) : linksOfReady s s := fun _ hstate => ⟨rfl, hstate, rfl, rfl, rfl⟩

theorem linksOfReady_trans {s t u : State} (h₁ : linksOfReady s t) (h₂ : linksOfReady t u) : linksOfReady s u := by
  intro hphase hstate
  obtain ⟨hboot, hstate₁, hvalues, hmem, hstack⟩ := h₁ hphase hstate
  obtain ⟨hboot', hstate₂, hvalues', hmem', hstack'⟩ := h₂ (hboot ▸ hphase) hstate₁
  exact ⟨hboot'.trans hboot, hstate₂, hvalues'.trans hvalues, hmem'.trans hmem, hstack'.trans hstack⟩

theorem linksOfReady_foldl {α : Type} {f : State → α → State} (hf : ∀ t x, linksOfReady t (f t x)) (s : State) (l : List α) :
    linksOfReady s (l.foldl f s) := by
  induction l generalizing s with
  | nil => exact linksOfReady_refl s
  | cons x l ih => exact linksOfReady_trans (hf s x) (ih _)

theorem linksOfReady_logEvent (s : State) (code : Code) (arg : Nat) : linksOfReady s (logEvent s code arg) := by
  intro _ hstate
  obtain ⟨d, h, hvalues⟩ := logEvent_frame s code arg
  rw [h]
  exact ⟨rfl, hstate, hvalues, rfl, rfl⟩

theorem linksOfReady_raise (s : State) (code : Code) (arg : Nat) : linksOfReady s (raise s code arg) := by
  intro hphase hstate
  rw [raise, if_neg (Nat.not_lt.2 hphase)]
  exact linksOfReady_logEvent s code arg hphase hstate

theorem linksOfReady_onFabric (s : State) (f : Fabric → Fabric) : linksOfReady s (s.onFabric f) := fun _ hstate => ⟨rfl, hstate, rfl, rfl, rfl⟩

theorem linksOfReady_onPort (s : State) (n : Nat) (f : Port → Port) : linksOfReady s (onPort s n f) :=
  linksOfReady_onFabric s _

theorem linksOfReady_emit (s : State) (o : Output) : linksOfReady s (emit s o) := fun _ hstate => ⟨rfl, hstate, rfl, rfl, rfl⟩

theorem linksOfReady_onResil {s : State} {f : Resilience → Resilience} (hf : ∀ r, (f r).state = r.state) : linksOfReady s (s.onResil f) :=
  fun _ hstate => ⟨rfl, (hf s.resil).trans hstate, rfl, rfl, rfl⟩

theorem linksOfReady_returnCredits (s : State) (port vc : Nat) : linksOfReady s (returnCredits s port vc) := by
  unfold returnCredits
  extract_lets n
  split
  · exact linksOfReady_refl s
  · exact linksOfReady_trans (linksOfReady_onPort s port _) (linksOfReady_emit _ _)

theorem linksOfReady_sendFlit (s : State) (port : Nat) (f : OutFlit) : linksOfReady s (sendFlit s port f) := by
  unfold sendFlit
  extract_lets p h bytes s1 s2
  have hs : linksOfReady s s2 :=
    linksOfReady_trans (linksOfReady_trans (linksOfReady_onPort s port _) (linksOfReady_onFabric _ _)) (linksOfReady_emit _ _)
  clear_value s2
  split
  · exact linksOfReady_trans hs (linksOfReady_returnCredits _ _ _)
  · exact hs

theorem linksOfReady_pump (k : Nat) (s : State) (port : Nat) : linksOfReady s (pump k s port) := by
  induction k generalizing s with
  | zero => exact linksOfReady_refl s
  | succ k ih =>
    unfold pump
    extract_lets p
    split
    · exact linksOfReady_refl s
    · split
      · exact linksOfReady_trans (linksOfReady_trans (linksOfReady_onPort s port _) (linksOfReady_sendFlit _ _ _)) (ih _)
      · exact linksOfReady_refl s

theorem linksOfReady_queueFlits (s : State) (port : Nat) (l : List OutFlit) : linksOfReady s (queueFlits s port l) :=
  linksOfReady_trans (linksOfReady_onPort s port _) (linksOfReady_pump _ _ _)

/-! ## Packets -/

theorem linksOfReady_putOnPort (s : State) (p : Packet) (port vc : Nat) : linksOfReady s (putOnPort s p port vc) :=
  linksOfReady_trans (linksOfReady_onFabric s _) (linksOfReady_queueFlits _ _ _)

theorem linksOfReady_countDetour (s : State) (detour : Bool) : linksOfReady s (countDetour s detour) := by
  unfold countDetour
  split
  · exact linksOfReady_onFabric s _
  · exact linksOfReady_refl s

theorem linksOfReady_forward (s : State) (p : Packet) (arrival : Option (Nat × Bool)) : linksOfReady s (forward s p arrival) := by
  unfold forward forwardFrom
  split
  · exact linksOfReady_onFabric _ _
  · exact linksOfReady_trans (linksOfReady_onFabric s _) (linksOfReady_raise _ _ _)
  · exact linksOfReady_trans (linksOfReady_countDetour _ _) (linksOfReady_putOnPort _ _ _ _)

theorem linksOfReady_sendPacket (s : State) (p : Packet) : linksOfReady s (sendPacket s p) := by
  unfold sendPacket
  extract_lets q
  split
  · exact linksOfReady_onFabric _ _
  · split
    · exact linksOfReady_forward _ _ _
    · split
      · exact linksOfReady_trans (linksOfReady_onFabric s _) (linksOfReady_forward _ _ _)
      · exact linksOfReady_onFabric _ _

/-! ## The loss of a hop (R225, R226) -/

theorem linksOfReady_sendNotice (s : State) (ends : BitVec 24 × BitVec 24) : linksOfReady s (sendNotice s ends) := by
  unfold sendNotice
  split
  · exact linksOfReady_refl s
  · exact linksOfReady_sendPacket _ _

theorem linksOfReady_loseTwinHop (s : State) (port : Nat) : linksOfReady s (loseTwinHop s port) := by
  unfold loseTwinHop
  split
  · refine linksOfReady_trans ?_ (linksOfReady_raise _ _ _)
    exact linksOfReady_onResil fun _ => rfl
  · exact linksOfReady_refl s

theorem linksOfReady_dropRest (s : State) (n : Nat) : linksOfReady s (dropRest s n) := fun _ hstate => ⟨rfl, hstate, rfl, rfl, rfl⟩

theorem linksOfReady_takeAnotherWay (l : List OutFlit) (s : State) (n : Nat) : linksOfReady s (takeAnotherWay l s n) := by
  unfold takeAnotherWay
  extract_lets mine bytes whole
  split
  · exact linksOfReady_forward _ _ _
  · split
    · exact linksOfReady_trans (linksOfReady_forward _ _ _) (linksOfReady_returnCredits _ _ _)
    · exact linksOfReady_onPort _ _ _

theorem linksOfReady_abortPassing (s : State) (x : Passing) : linksOfReady s (abortPassing s x) := by
  unfold abortPassing
  split
  · exact linksOfReady_refl s
  · exact linksOfReady_queueFlits _ _ _

theorem linksOfReady_enterHolding (s : State) : linksOfReady s (enterHolding s) := by
  intro _ hstate
  rw [enterHolding, hstate, if_neg Nat.one_ne_zero]
  exact ⟨rfl, hstate, rfl, rfl, rfl⟩

theorem linksOfReady_loseOlder (s : State) (node : BitVec 24) : linksOfReady s (loseOlder s node) := by
  unfold loseOlder
  split
  · exact linksOfReady_refl s
  · refine linksOfReady_trans (linksOfReady_trans ?_ (linksOfReady_raise _ _ _)) (linksOfReady_enterHolding _)
    exact linksOfReady_onResil fun _ => rfl

theorem linksOfReady_failHop (s : State) (port next : Nat) : linksOfReady s (failHop s port next) := by
  unfold failHop
  extract_lets p whole cut ends s1 s2 s3 s4 s5
  have h2 : linksOfReady s s2 := linksOfReady_trans (linksOfReady_trans (linksOfReady_trans (linksOfReady_onPort s port _)
    (linksOfReady_onPort _ _ _)) (linksOfReady_raise _ _ _)) (linksOfReady_loseTwinHop _ port)
  have h3 : linksOfReady s s3 := linksOfReady_trans (linksOfReady_trans h2 (linksOfReady_foldl linksOfReady_sendNotice _ _))
    (linksOfReady_foldl linksOfReady_dropRest _ _)
  have h4 : linksOfReady s s4 := linksOfReady_trans h3 (linksOfReady_foldl (fun t x => linksOfReady_returnCredits t _ _) _ _)
  have h5 : linksOfReady s s5 := linksOfReady_trans (linksOfReady_trans h4 (linksOfReady_foldl (linksOfReady_takeAnotherWay _) _ _))
    (linksOfReady_foldl linksOfReady_abortPassing _ _)
  exact linksOfReady_trans h5 (linksOfReady_foldl linksOfReady_loseOlder _ _)

theorem linksOfReady_applyPortMode (s : State) (port : Nat) : linksOfReady s (applyPortMode s port) := by
  refine linksOfReady_trans ?_ (linksOfReady_onPort _ _ _)
  unfold leaveUp
  split
  · exact linksOfReady_failHop _ _ _
  · exact linksOfReady_onPort _ _ _

/-! ## The end of start-up -/

theorem logEvent_foldl_frame (l : List (Code × Nat)) (s : State) :
    ∃ d, l.foldl (fun t e => logEvent t e.1 e.2) s = { s with dict := d } ∧ d.values = s.dict.values := by
  induction l generalizing s with
  | nil => exact ⟨s.dict, rfl, rfl⟩
  | cons e l ih =>
    obtain ⟨d, h, hvalues⟩ := logEvent_frame s e.1 e.2
    obtain ⟨d', h', hvalues'⟩ := ih { s with dict := d }
    rw [List.foldl_cons, h]
    exact ⟨d', h', hvalues'.trans hvalues⟩

/-- The module as phase 8 begins: it awaits a job, and the events of the start-up are logged. -/
def heldLogged (s : State) : State :=
  s.boot.held.foldl (fun t e => logEvent t e.1 e.2) ((s.onBoot (fun b => { b with phase := 8, held := [] })).onResil (fun r => { r with state := 1 }))

theorem becomeReady_eq (s : State) : becomeReady s = (List.range 7).foldl applyPortMode (heldLogged s) := rfl

theorem becomeReady_frame (s : State) :
    (becomeReady s).boot = { s.boot with phase := 8, held := [] } ∧ (becomeReady s).resil.state = 1 ∧
      (becomeReady s).dict.values = s.dict.values ∧ (becomeReady s).mem = s.mem ∧ (becomeReady s).stack = s.stack := by
  obtain ⟨d, h, hvalues⟩ : ∃ d, heldLogged s = { s with
      boot := { s.boot with phase := 8, held := [] }, resil := { s.resil with state := 1 }, dict := d } ∧ d.values = s.dict.values :=
    logEvent_foldl_frame s.boot.held _
  have hphase : (heldLogged s).boot.phase = 8 := by rw [h]
  have hawaits : (heldLogged s).resil.state = 1 := by rw [h]
  obtain ⟨hboot, hstate, hvalues', hmem, hstack⟩ :=
    linksOfReady_foldl linksOfReady_applyPortMode (heldLogged s) (List.range 7) hphase.ge hawaits
  rw [becomeReady_eq]
  refine ⟨hboot.trans ?_, hstate, (hvalues'.trans ?_).trans hvalues, hmem.trans ?_, hstack.trans ?_⟩ <;> rw [h]

theorem unserviceable_frame (s : State) (arg : Nat) :
    ∃ d, unserviceable s arg = { s with boot := { s.boot with phase := 9, held := [] }, dict := d } ∧ d.values = s.dict.values := by
  obtain ⟨d, h, hvalues⟩ := logEvent_foldl_frame s.boot.held (s.onBoot (fun b => { b with phase := 9, held := [] }))
  obtain ⟨d', h', hvalues'⟩ := logEvent_frame { s with boot := { s.boot with phase := 9, held := [] }, dict := d } 0x08000E0F arg
  exact ⟨d', (congrArg (logEvent · 0x08000E0F arg) h).trans h', hvalues'.trans hvalues⟩

/-- Without a user image the factory defaults take force (R336). -/
theorem execDefaultsApply_factory {s : State} (hphase : s.boot.phase = 7) (huser : s.boot.userRunning = 0xFF) :
    execDefaultsApply s =
      if s.stack.tileMap.length < logicalTiles (takeDefaults s (baseValues s) [] 0xFF) then
        done s (unserviceable (takeDefaults s (baseValues s) [] 0xFF) 8)
      else done s (becomeReady (takeDefaults s (baseValues s) [] 0xFF)) := by
  have horder : defaultOrder s = [] := by
    rw [defaultOrder, huser]
    rfl
  rw [execDefaultsApply, if_neg (by simp [hphase]), horder]
  rfl

/-- What ROM_VERIFY and HAZEL_BOOT leave as it is. -/
theorem imagesOnly_frame {s t : State} (h : imagesOnly s t) :
    t.power = s.power ∧ t.mem = s.mem ∧ t.stack = s.stack ∧ t.dict.values = s.dict.values ∧
      t.boot.firmwareRunning = s.boot.firmwareRunning ∧ t.flash.trip = s.flash.trip := by
  obtain ⟨_, _, _, rfl, hvalues, -⟩ := h
  exact ⟨rfl, rfl, rfl, hvalues, rfl, rfl⟩

/-- The second of two copies is chosen when the first is not valid. -/
theorem chooseCopy_second {s : State} {a b : Nat} (ha : imageValid s a = false) (hb : imageValid s b = true) (hlow : b < 2) :
    (chooseCopy [a, b] s).1 = some b := by
  rw [chooseCopy_of_invalid ha]
  exact chooseCopy_of_valid ((imageValid_of_imagesOnly (imagesOnly_skipCopy s a) b).trans hb) (fun h => absurd hlow (Nat.not_lt.2 h)) []

end Sys2Proof.Machine

namespace Sys2Proof.Proofs

open Sys2Proof Sys2Proof.Machine

/-- Settles O3: the choice of a copy goes by which copies are valid, and each later task by what it finds. -/
theorem startupRunsItsPhases : Obligations.StartupRunsItsPhases := by
  refine ⟨⟨fun s hphase hon => ?rom, fun s hphase => ?hazel⟩, fun s h => ?rails, fun s h hretired hreport => ?test, fun s h => ?fill,
    fun s h huser hreport => ?training, fun s h huser => ?defaults⟩
  case rom =>
    intro first
    have horder : first = if s.flash.bootSelect = 0 then 0 else 1 := rfl
    have hlow : first < 2 := by
      rw [horder]
      split <;> decide
    clear_value first
    obtain ⟨hpower, hmem, hstack, hvalues, hrunning, -⟩ := imagesOnly_frame (imagesOnly_chooseCopy [first, 1 - first] s)
    obtain ⟨b, hframe⟩ := firmwareChosen_frame (chooseCopy [first, 1 - first] s)
    refine ⟨_, execRomVerify_eq hphase hon horder, ?_⟩
    rw [noteChanges_boot, noteChanges_power, noteChanges_mem, noteChanges_stack, noteChanges_values]
    refine ⟨fun hvalid => ?_, fun hinvalid hother => ?_, fun h0 h1 => ?_, ?_⟩
    · exact firmwareChosen_of_some (chooseCopy_of_valid hvalid (fun h => absurd hlow (Nat.not_lt.2 h)) _)
    · exact firmwareChosen_of_some (chooseCopy_second hinvalid hother (by omega))
    · rw [← hrunning]
      refine firmwareChosen_of_none (chooseCopy_none fun c hc => ?_)
      obtain rfl | rfl : c = 0 ∨ c = 1 := by
        simp only [List.mem_cons, List.not_mem_nil, or_false] at hc
        omega
      · exact h0
      · exact h1
    · rw [hframe]
      exact ⟨hpower, hmem, hstack, hvalues⟩
  case hazel =>
    intro first
    have horder : first = if s.flash.userSelect = 0 then 2 else 3 := rfl
    have hplace : first = 2 ∨ first = 3 := by
      rw [horder]
      split <;> simp
    clear_value first
    obtain ⟨hpower, hmem, hstack, hvalues, -, htrip⟩ := imagesOnly_frame (imagesOnly_chooseCopy [first, 5 - first] s)
    obtain ⟨b, d, hframe, hlog, hlast⟩ := tripPresented_frame (chooseCopy [first, 5 - first] s).2
    refine ⟨_, execHazelBoot_eq hphase horder, ?_⟩
    rw [noteChanges_boot, noteChanges_power, noteChanges_mem, noteChanges_stack, noteChanges_values, noteChanges_flash, userChosen, hframe]
    refine ⟨rfl, rfl, fun hvalid hformed => ?_, fun h2 h3 => ?_, rfl, fun r hr => hlast r (htrip.trans hr), hpower, hmem, hstack,
      hlog.trans hvalues⟩
    · exact congrArg userOf (chooseCopy_of_valid hvalid (fun _ => hformed) [5 - first])
    · refine congrArg userOf (chooseCopy_none fun c hc => ?_)
      obtain rfl | rfl : c = 2 ∨ c = 3 := by
        simp only [List.mem_cons, List.not_mem_nil, or_false] at hc
        omega
      · exact h2
      · exact h3
  case rails => exact execRailsUp_eq h
  case test => exact execBuiltInTest_nothing h hretired hreport
  case fill => exact execServiceFill_eq h
  case training => exact execHbmTraining_nothing h huser hreport
  case defaults =>
    intro s1
    by_cases hfew : s.stack.tileMap.length < logicalTiles s1
    · obtain ⟨d, hend, hvalues⟩ := unserviceable_frame s1 8
      refine ⟨noteChanges s (unserviceable s1 8), (execDefaultsApply_factory h huser).trans (if_pos hfew), ?_⟩
      rw [noteChanges_values, noteChanges_mem, noteChanges_stack, noteChanges_boot, hend]
      exact ⟨hvalues, rfl, rfl, fun henough => absurd hfew (Nat.not_lt.2 henough), fun _ => rfl⟩
    · obtain ⟨hboot, hstate, hvalues, hmem, hstack⟩ := becomeReady_frame s1
      refine ⟨noteChanges s (becomeReady s1), (execDefaultsApply_factory h huser).trans (if_neg hfew), ?_⟩
      rw [noteChanges_values, noteChanges_mem, noteChanges_stack, noteChanges_boot, noteChanges_resil, hboot, hvalues, hmem, hstack]
      exact ⟨rfl, rfl, rfl, fun _ => ⟨rfl, rfl, hstate⟩, fun h => absurd h hfew⟩

end Sys2Proof.Proofs
end

section
/-! Batches (R330): what SEAL, ABANDON and expiry make of the open batch of a session. -/

namespace Sys2Proof.Machine

open Sys2Proof

/-! ## Requests of an open session -/

/-- A request that asks for no stack reset is answered with its reply. -/
theorem serve_answered {s t : State} {op : Nat} {r : Request} {x : Session} {y : Reply} {found : Findings} (h : askedBy s op r x)
    (ha : perform found (inUse s x) op r = ⟨t, y, none⟩) : serve found op r s = .next (noteChanges s (replied t r y)) := by
  rw [serve_of_askedBy found h, ha]
  rfl

/-- SEAL and ABANDON go by the session's number alone. -/
theorem perform_seal {s : State} {r : Request} {x : Session} (found : Findings) (h : askedBy s 4 r x) :
    perform found (inUse s x) 4 r = sealBatch found (inUse s x) x r := by
  obtain ⟨-, -, -, -, hsess, hpend, -, -, hserved⟩ := h
  simp only [perform, hserved, sessionOf_inUse hpend hsess]
  rfl

theorem perform_abandon {s : State} {r : Request} {x : Session} (found : Findings) (h : askedBy s 5 r x) :
    perform found (inUse s x) 5 r = abandonBatch (inUse s x) x r := by
  obtain ⟨-, -, -, -, hsess, hpend, -, -, hserved⟩ := h
  simp only [perform, hserved, sessionOf_inUse hpend hsess]
  rfl

/-! ## SEAL -/

/-- Writes are accepted at the next write ordinal. -/
theorem acceptWrites_ordinal {found : Findings} {s t : State} {applyAt eff n : Nat} {l : List PartWrite}
    (h : acceptWrites found s applyAt l = .ok (t, eff, n)) : n = s.dict.ordinal + 1 := by
  unfold acceptWrites at h
  dsimp only at h
  split at h
  · cases h
  · split at h
    · cases h
    · cases h
      rfl

section
variable {found : Findings} {s : State} {x : Session} {r : Request}

theorem sealBatch_closed (h : openBatch s x.number r.batch = none) : sealBatch found s x r = refusedWith s 4 r 0x01100D07 := by
  rw [sealBatch, h]

variable {b : Batch} (hopen : openBatch s x.number r.batch = some b)
include hopen

theorem sealBatch_failing {c : Code} (h : failingPart [] b.parts = some c) :
    sealBatch found s x r = refusedWith (removeBatch s x.number r.batch) 4 r c := by
  simp only [sealBatch, hopen, h]

variable (hsound : failingPart [] b.parts = none) (hsame : b.parts.any (fun p => decide (p.applyAt ≠ r.applyAt)) = false)
  {l : List PartWrite} (hwrites : batchWrites (removeBatch s x.number r.batch) b.parts = .ok l)
include hsound hsame hwrites

theorem sealBatch_accepted {t : State} {eff n : Nat}
    (h : acceptWrites found (removeBatch s x.number r.batch) r.applyAt l = .ok (t, eff, n)) :
    sealBatch found s x r = ⟨t, acceptedReply 4 r eff n, resetAsked l⟩ := by
  simp only [sealBatch, hopen, hsound, hsame, Bool.false_eq_true, if_false, hwrites, h, acceptedReply]

theorem sealBatch_refused {e : Refused} (h : acceptWrites found (removeBatch s x.number r.batch) r.applyAt l = .error e) :
    sealBatch found s x r = ⟨removeBatch s x.number r.batch, refuse (removeBatch s x.number r.batch) 4 r e, none⟩ := by
  simp only [sealBatch, hopen, hsound, hsame, Bool.false_eq_true, if_false, hwrites, h]

end

theorem abandonBatch_open {s : State} {x : Session} {r : Request} {b : Batch} (h : openBatch s x.number r.batch = some b) :
    abandonBatch s x r = ⟨removeBatch s x.number r.batch, replyTo 5 r, none⟩ := by
  rw [abandonBatch, h]

theorem execBatchExpire_open {s : State} {session : BitVec 64} {n : Nat}
    (h : s.dict.batches.any (fun b => decide (b.session = session ∧ b.number = n)) = true) :
    execBatchExpire session n s = done s (removeBatch s session n) := if_pos h

end Sys2Proof.Machine

namespace Sys2Proof.Proofs

open Sys2Proof Sys2Proof.Machine

/-- Settles O40: a sealed batch goes by its first failing part and by whether all its writes are accepted. -/
theorem batchesAreWholeOrNothing : Obligations.BatchesAreWholeOrNothing := by
  refine ⟨fun s r x b h hopen => ⟨fun c hc => ?failing, fun l t eff n hsound hsame hwrites haccept hreset => ?accepted,
    fun l e hsound hsame hwrites hrefuse => ?refused⟩, fun s r x b h hopen => ?abandon, fun s r x h hclosed => ?closed,
    fun s session n => execBatchExpire_open⟩
  case failing => exact serve_answered h ((perform_seal _ h).trans (sealBatch_failing hopen hc))
  case accepted =>
    refine ⟨(acceptWrites_ordinal haccept).trans (congrArg (· + 1) ordinal_inUse), serve_answered h ?_⟩
    rw [perform_seal _ h, sealBatch_accepted hopen hsound hsame hwrites haccept, hreset]
  case refused => exact serve_answered h ((perform_seal _ h).trans (sealBatch_refused hopen hsound hsame hwrites hrefuse))
  case abandon => exact serve_answered h ((perform_abandon Findings.nothing h).trans (abandonBatch_open hopen))
  case closed => exact serve_answered h ((perform_seal _ h).trans (sealBatch_closed hclosed))

end Sys2Proof.Proofs
end

section
/-! Sessions (R329, R356): what HELLO, PROVE, CLOSE, expiry and the end of a lockout do. -/

namespace Sys2Proof.Machine

open Sys2Proof

/-! ## Requests on session 0 -/

theorem sessionOf_zero (s : State) : sessionOf s 0 = none := if_pos rfl

/-- A request on session 0 that asks for no stack reset is answered with its reply, which nothing keeps. -/
theorem serve_openly {s t : State} {op : Nat} {r : Request} {y : Reply} {found : Findings} (h : askedOpenly s op r)
    (ha : perform found s op r = ⟨t, y, none⟩) : serve found op r s = .next (noteChanges s (emit t (.reply y))) := by
  obtain ⟨hon, hdisc, hown, hver, hsess, -⟩ := h
  simp only [serve, hon, hdisc, hown, Bool.true_eq_false, Bool.false_eq_true, or_self, false_and, if_false, answerOwn, hver,
    ne_eq, not_true_eq_false, performKept, hsess, sessionOf_zero, ha]
  rfl

theorem perform_session {s : State} {r : Request} (found : Findings) (h : requestRefusal s 8 r = none) :
    perform found s 8 r = sessionRequest s r := by
  simp only [perform, h]

/-! ## HELLO -/

section
variable {s : State} {r : Request}

theorem sessionRequest_hello {t : State} {number : BitVec 64} {nonce : List Byte} (hsub : (r.data.headD 0).toNat = 1) (hsess : r.session = 0)
    (h : openHello s r.data = .ok (t, number, nonce)) :
    sessionRequest s r = ⟨t, { replyTo 8 r with session := number, data := nonce }, none⟩ := by
  simp only [sessionRequest, hsub, hsess, ne_eq, not_true_eq_false, if_false, h]

theorem sessionRequest_hello_refused {c : Code} (hsub : (r.data.headD 0).toNat = 1) (hsess : r.session = 0)
    (h : openHello s r.data = .error c) : sessionRequest s r = refusedWith s 8 r c := by
  simp only [sessionRequest, hsub, hsess, ne_eq, not_true_eq_false, if_false, h]

theorem openHello_locked (l : List Byte) (h : s.dict.lockout = true) : openHello s l = .error 0x07150E04 := if_pos h

variable (hfree : s.dict.lockout = false)
include hfree

theorem openHello_full (l : List Byte) (h : 16 ≤ s.dict.sessions.length) : openHello s l = .error 0x07150E15 :=
  (if_neg (by simp [hfree])).trans (if_pos h)

/-- Without a user image no slot holds a key. -/
theorem openHello_keyless {l : List Byte} (hroom : s.dict.sessions.length < 16) (huser : s.boot.userRunning = 0xFF)
    (hslot : ((l.drop 1).headD 0).toNat ≠ 0xFF) : openHello s l = .error 0x07150E02 := by
  have hkeys : operatorKeys s = [] := if_pos (by rw [huser]; decide)
  have hkey : slotKey s ((l.drop 1).headD 0).toNat = none := by rw [slotKey, hkeys]; rfl
  simp only [openHello, hfree, Bool.false_eq_true, if_false, Nat.not_le.2 hroom, hslot, hkey, Option.map_none]

end

/-! ## PROVE -/

theorem proveSession_right {s : State} {x : Session} {key : Nat × List Byte} (hkey : slotKey s x.slot = some key) {l : List Byte}
    (h : (l.drop 32).take 32 = kmac256 key.2 (sessionString x) "HNL open c") :
    proveSession s x l = (onSession s x.number (fun y => { y with pending := false, lastUse := s.power.refPeriods }),
      .ok (kmac256 key.2 (sessionString x) "HNL open m")) := by
  rw [proveSession, hkey]
  exact if_pos h

theorem proveSession_wrong {s : State} {x : Session} {key : Nat × List Byte} (hkey : slotKey s x.slot = some key) {l : List Byte}
    (h : (l.drop 32).take 32 ≠ kmac256 key.2 (sessionString x) "HNL open c") :
    proveSession s x l = (failProve s x, .error 0x07150E03) := by
  rw [proveSession, hkey]
  exact if_neg h

/-- The first request of a pending session is answered and its reply kept. -/
theorem serve_pending {s t : State} {op : Nat} {r : Request} {x : Session} {y : Reply} {found : Findings} (hon : s.power.convertersOn = true)
    (hdisc : discarded op r = false) (hown : forAnother s r = false) (hver : r.version = 1) (hsess : sessionOf s r.session = some x)
    (hpend : x.pending = true) (hfresh : x.replies = []) (ha : perform found s op r = ⟨t, y, none⟩) :
    serve found op r s = .next (noteChanges s (replied t r y)) := by
  have htouch : performKept.touch s x = s := if_pos hpend
  simp only [serve, hon, hdisc, hown, Bool.true_eq_false, Bool.false_eq_true, or_self, false_and, if_false, answerOwn, hver,
    ne_eq, not_true_eq_false, performKept, hsess, hfresh, List.find?_nil, htouch, ha]
  rfl

theorem requestRefusal_session {s : State} {r : Request} (hstaged : r.viewStaged = false) (hpending : r.viewPending = false)
    (hsnapshot : r.viewSnapshot = false) : requestRefusal s 8 r = none := by
  simp [requestRefusal, hstaged, hpending, hsnapshot, natOfBool]

section
variable {s t : State} {r : Request} {x : Session} (hsub : (r.data.headD 0).toNat = 2) (hsess : sessionOf s r.session = some x)
  (hpend : x.pending = true)
include hsub hsess hpend

theorem sessionRequest_proved {tag : List Byte} (h : proveSession s x r.data = (t, .ok tag)) :
    sessionRequest s r = ⟨t, { replyTo 8 r with data := tag }, none⟩ := by
  simp only [sessionRequest, hsub, hsess, hpend, Bool.true_eq_false, if_false, h]

theorem sessionRequest_not_proved {c : Code} (h : proveSession s x r.data = (t, .error c)) :
    sessionRequest s r = refusedWith t 8 r c := by
  simp only [sessionRequest, hsub, hsess, hpend, Bool.true_eq_false, if_false, h]

end

/-! ## CLOSE and expiry -/

theorem sessionRequest_close {s : State} {r : Request} {x : Session} (hsub : (r.data.headD 0).toNat = 3)
    (hsess : sessionOf s r.session = some x) (hpend : x.pending = false) : sessionRequest s r = ⟨dropSession s x.number, replyTo 8 r, none⟩ := by
  simp only [sessionRequest, hsub, hsess, hpend, Bool.false_eq_true, if_false]

/-- A session that is gone keeps no reply. -/
theorem onSession_dropSession (s : State) (number : BitVec 64) (f : Session → Session) :
    onSession (dropSession s number) number f = dropSession s number := by
  have hsame : (s.dict.sessions.filter (fun x => decide (x.number ≠ number))).map (fun x => if x.number = number then f x else x) =
      s.dict.sessions.filter (fun x => decide (x.number ≠ number)) := by
    refine (List.map_congr_left fun x hx => if_neg ?_).trans (List.map_id _)
    exact of_decide_eq_true (List.mem_filter.1 hx).2
  simp only [onSession, dropSession, State.onDict, hsame]

theorem replied_dropSession {s : State} {r : Request} {number : BitVec 64} (h : number = r.session) (y : Reply) :
    replied (dropSession s number) r y = emit (dropSession s number) (.reply y) := by
  rw [replied, ← h, onSession_dropSession]

theorem execSessionExpire_standing {s : State} {n : BitVec 64} (h : s.dict.sessions.any (fun x => decide (x.number = n)) = true) :
    execSessionExpire n s = done s (dropSession s n) := if_pos h

theorem execHelloLockoutEnd_locked {s : State} (h : s.dict.lockout = true) :
    execHelloLockoutEnd s = done s (s.onDict (fun d => { d with lockout := false, recentFailures := [] })) := if_pos h

end Sys2Proof.Machine

namespace Sys2Proof.Proofs

open Sys2Proof Sys2Proof.Machine

/-- Settles O41: HELLO goes by the lockout, the sessions and the slot's key, PROVE by the tag, and CLOSE ends the session. -/
theorem sessionsOpenAndClose : Obligations.SessionsOpenAndClose := by
  refine ⟨fun s r h hsub => ?hello, fun s x key hkey => ⟨fun l => proveSession_right hkey, fun l => proveSession_wrong hkey⟩,
    fun s r x hon hdisc hown hver hsess hpend hfresh hstaged hpending hsnapshot hsub => ?prove, fun s r x h hsub => ?close,
    fun s n => execSessionExpire_standing, fun s => execHelloLockoutEnd_locked⟩
  case hello =>
    obtain ⟨-, -, -, -, hsess, hserved⟩ := id h
    have hrefused {c : Code} (hc : openHello s r.data = .error c) :
        exec (.hello r) s = .next (noteChanges s (emit s (.reply (refuse s 8 r (codeOnly c))))) :=
      serve_openly h ((perform_session Findings.nothing hserved).trans (sessionRequest_hello_refused hsub hsess hc))
    refine ⟨fun t number nonce ht => ?_, fun hlocked => hrefused (openHello_locked _ hlocked),
      fun hfree hfull => hrefused (openHello_full hfree _ hfull),
      fun hfree hroom huser hslot => hrefused (openHello_keyless hfree hroom huser hslot)⟩
    exact serve_openly h ((perform_session Findings.nothing hserved).trans (sessionRequest_hello hsub hsess ht))
  case prove =>
    have hperform := perform_session Findings.nothing (requestRefusal_session (s := s) hstaged hpending hsnapshot)
    exact ⟨fun t tag ht => serve_pending hon hdisc hown hver hsess hpend hfresh (hperform.trans (sessionRequest_proved hsub hsess hpend ht)),
      fun t c ht => serve_pending hon hdisc hown hver hsess hpend hfresh (hperform.trans (sessionRequest_not_proved hsub hsess hpend ht))⟩
  case close =>
    obtain ⟨-, -, -, -, hsess, hpend, -, -, hserved⟩ := id h
    refine (serve_answered h ((perform_session Findings.nothing hserved).trans
      (sessionRequest_close hsub (sessionOf_inUse hpend hsess) hpend))).trans ?_
    exact congrArg (fun t => Host.Outcome.next (noteChanges s t)) (replied_dropSession (sessionOf_number hsess) (replyTo 8 r))

end Sys2Proof.Proofs
end

section
/-! Requests for another module (R327, R331): how one is relayed, answered there, and returned or timed out. -/

namespace Sys2Proof.Machine

open Sys2Proof

section
variable {s t : State} {p : Packet} (hhusk : huskStopped s = false) (htake : takePacket s 0xC p = some t) (hlong : 72 ≤ p.payload.length)
include hhusk htake hlong

theorem execRelayedRequest_answered {op : Nat} {r : Request} (hsub : natOfBytes (p.payload.take 8) = 1)
    (hrequest : requestOf (p.payload.drop 8) = (op, r)) (hwhole : discarded op r = false) :
    execRelayedRequest p s =
      let a := answerOwn Findings.nothing t op r
      finishRequest s (sendPacket a.state (controlPacket a.state p.src p.comm 2 (replyMessage a.reply))) a.reset := by
  have hanswer : answerRelayed t p =
      let a := answerOwn Findings.nothing t op r
      (sendPacket a.state (controlPacket a.state p.src p.comm 2 (replyMessage a.reply)), a.reset) := by
    simp only [answerRelayed, hrequest]
    exact if_neg (by simp [hsub, hwhole, hlong])
  simp only [execRelayedRequest, hhusk, Bool.false_eq_true, if_false, htake, hanswer]

theorem execRelayedReply_returned (hsub : natOfBytes (p.payload.take 8) = 2) :
    execRelayedReply p s = done s (returnReply t (replyOf (p.payload.drop 8))) := by
  have hform : ¬ (natOfBytes (p.payload.take 8) ≠ 2 ∨ p.payload.length < 72) := by
    rw [hsub]
    omega
  simp only [execRelayedReply, withPacket, hhusk, Bool.false_eq_true, if_false, htake, if_neg hform]

end

/-- The one client that waits receives the reply. -/
theorem returnReply_waiting {s : State} {x y : Reply} (hwaits : s.dict.relayed = [x]) (hid : x.requestId = y.requestId) (hop : x.op = y.op)
    (hsession : x.session = y.session) : returnReply s y = emit (s.onDict (fun d => { d with relayed := [] })) (.reply y) := by
  simp only [returnReply, hwaits, List.find?_cons, hid, hop, hsession, true_or, and_self, decide_true]
  rw [State.onDict, hwaits, List.erase_cons_head]
  rfl

theorem execRelayTimeout_waiting {s : State} {id : BitVec 32} {x : Reply}
    (h : s.dict.relayed.find? (fun y => decide (y.requestId = id)) = some x) :
    execRelayTimeout id s = done s (emit (s.onDict (fun d => { d with relayed := d.relayed.erase x })) (.reply x)) := by
  rw [execRelayTimeout, h]

theorem serve_forAnother {s : State} {r : Request} {op : Nat} (found : Findings) (hother : forAnother s r = true) (hversion : r.version = 1)
    (hon : s.power.convertersOn = true) (hwhole : discarded op r = false) (hserved : reducedDictionary s = false) :
    serve found op r s = done s (relayRequest s op r) := by
  simp only [serve, hon, hwhole, hother, hversion, hserved, Bool.true_eq_false, Bool.false_eq_true, or_self, and_self, if_true, if_false]

end Sys2Proof.Machine

namespace Sys2Proof.Proofs

open Sys2Proof Sys2Proof.Machine

/-- Settles O50: the packet's subtype says what it is, and a reply goes to the client that waits for it. -/
theorem requestsRelayed : Obligations.RequestsRelayed := by
  refine ⟨fun s t p op r hhusk htake hlong hsub hrequest hwhole hreset => ?request, fun s t p x hhusk htake hlong hsub => ?reply,
    fun _ _ _ => execRelayTimeout_waiting, fun s r op hother hversion hon hwhole hserved hop => ?read, fun _ => rfl⟩
  case request =>
    intro a
    refine (execRelayedRequest_answered hhusk htake hlong hsub hrequest hwhole).trans ?_
    exact congrArg (finishRequest s _) hreset
  case reply =>
    intro y hwaits hid hop hsession
    refine (execRelayedReply_returned hhusk htake hlong hsub).trans ?_
    rw [returnReply_waiting hwaits hid hop hsession]
    rfl
  case read =>
    subst hop
    exact serve_forAnother Findings.nothing hother hversion hon hwhole hserved

end Sys2Proof.Proofs
end

section
/-! The writes of stack_reset and test_state, signed reports and margin sweeps (R344, R359 to R361). -/

namespace Sys2Proof.Machine

open Sys2Proof

/-! ## The objects of the writes -/

/-- stack_reset is a WO object of type BOOL, and its table entry bears its own key. -/
theorem objFind_stackReset {o : Obj} (h : objFind 0x181003 = some o) : o.key = 0x181003 ∧ o.access = 4 ∧ o.typ = 1 := by
  have hentry : (objFind 0x181003).all (fun o => decide (o.key = 0x181003 ∧ o.access = 4 ∧ o.typ = 1)) = true := by decide +kernel
  rw [h] at hentry
  exact of_decide_eq_true hentry

/-- test_state is an RW object, and its table entry bears its own key. -/
theorem objFind_testState {o : Obj} (h : objFind 0x701001 = some o) : o.key = 0x701001 ∧ o.access = 2 := by
  have hentry : (objFind 0x701001).all (fun o => decide (o.key = 0x701001 ∧ o.access = 2)) = true := by decide +kernel
  rw [h] at hentry
  exact of_decide_eq_true hentry

/-- A counted request in use changes the dictionary alone, and takes the next write ordinal. -/
theorem counted_inUse_eq (s : State) (x : Session) :
    ∃ d : Dict, counted (inUse s x) = { s with dict := d } ∧ d.ordinal = s.dict.ordinal + 1 := by
  unfold inUse performKept.touch
  split
  · exact ⟨_, rfl, rfl⟩
  · exact ⟨_, rfl, rfl⟩

/-! ## Stack resets (R344, R360) -/

/-- An accepted write that asks for a stack reset is answered, and then the stack restarts. -/
theorem serve_write_resets {s t : State} {r : Request} {x : Session} {o : Obj} {cause : Nat} {found : Findings} (h : writes s r x o)
    (ha : acceptWrites found (inUse s x) r.applyAt [⟨o, r.offset, r.data, 2⟩] = .ok (t, 0, (inUse s x).dict.ordinal + 1))
    (hreset : resetAsked [⟨o, r.offset, r.data, 2⟩] = some cause) :
    serve found 2 r s =
      .next { stackResetWith (replied t r (acceptedReply 2 r 0 (s.dict.ordinal + 1))) cause 0 with free := s.free + 1 } := by
  rw [serve_of_askedBy found h.1, perform_write_accepted h ha, hreset, ordinal_inUse]
  rfl

theorem exec_stackResetWrite_one {s : State} {r : Request} {x : Session} {o : Obj} (hr : r.index * 256 + r.sub = 0x181003)
    (h : writes s r x o) (hdata : r.data = [1]) :
    exec (.stackResetWrite r) s = .next { stackResetWith
      (replied (counted (inUse s x)) r (acceptedReply 2 r 0 (s.dict.ordinal + 1))) 1 0 with free := s.free + 1 } := by
  obtain ⟨hkey, haccess, htyp⟩ := objFind_stackReset (hr ▸ objFind_of_writes h)
  have hone : natOfBytes r.data = 1 := by rw [hdata]; rfl
  have hreset : resetAsked [⟨o, r.offset, r.data, 2⟩] = some 1 := by simp [resetAsked, hkey, hone]
  have hact : woAction Findings.nothing (counted (inUse s x)) o r.offset r.data r.applyAt = .ok (counted (inUse s x)) := by
    simp only [woAction, htyp, if_true, hone, hkey, boolAction, acted]
  exact (if_pos hr).trans (serve_write_resets h (acceptWrites_writeOnly (w := ⟨o, r.offset, r.data, 2⟩) haccess hact) hreset)

/-! ## Test states (R360) -/

/-- The entries that a write covers have its source (R337). -/
def sourceMarked (o : Obj) (off : Nat) (data : List Byte) (source : Nat) (d : Dict) : Dict :=
  { d with source := markSources d.startSource d.source ⟨0, 0, o.key, off, data, source⟩ }

theorem rwWrite_testState {s t : State} {o : Obj} {off source : Nat} {data : List Byte} (hkey : o.key = 0x701001)
    (hwrite : typedWrite s 0x701001 off data = .ok t) :
    rwWrite s o off data source = .ok (t.onDict (sourceMarked o off data source)) := by
  have htyped : typedRw o.key = true := by rw [hkey]; rfl
  have hact : acted o.key (typedWrite s o.key off data) = .ok t := by rw [hkey, hwrite]; rfl
  simp only [rwWrite, htyped, if_true, hact]
  rfl

/-- A return to test state 0 changes nothing before the stack restarts. -/
theorem typedWrite_testState_zero {s : State} {off : Nat} {data : List Byte} (h : natOfBytes data = 0) :
    typedWrite s 0x701001 off data = .ok s := if_pos h

theorem typedWrite_testState_enters {s : State} {off : Nat} {data : List Byte} (h : natOfBytes data ≠ 0) :
    typedWrite s 0x701001 off data = enterTest s (natOfBytes data) := if_neg h

/-- A module in a test state: all memory counts as never written, and the line cache and the held accesses are empty. -/
def testing (s : State) (v : Nat) : State :=
  { s with
    boot := { s.boot with testState := v, phase := 10 }
    mem := Memory.neverWritten
    banks := Memory.neverWritten
    rowMasks := []
    colMasks := []
    cache := { s.cache with
      sets := [], fills := [], writebacks := [], waiting := [], blocked := [], hbmQueue := [], busBursts := [], tagSynd := [] }
    prot := { s.prot with heldLines := [], lineValues := [], lineAsked := [], heldAccesses := [] } }

theorem enterTest_refused {s : State} (v : Nat) (h : s.fabric.groups ≠ [] ∨ queueInUse s = true) : enterTest s v = .error 0x01100E10 :=
  if_pos h

theorem enterTest_entered {s : State} (v : Nat) (hgroups : s.fabric.groups = []) (hqueues : queueInUse s = false) :
    enterTest s v = .ok (testing s v) := by
  refine if_neg ?_
  rw [hgroups, hqueues]
  simp

/-- The committed step at a return to test state 0 is that of the state before the request. -/
theorem exec_testStateExit_zero {s : State} {r : Request} {x : Session} {o : Obj} (hr : r.index * 256 + r.sub = 0x701001)
    (h : writes s r x o) (hdata : r.data = [0]) :
    ∃ u, u.train = s.train ∧ exec (.testStateExit r) s = .next { stackResetWith u 5 0 with free := s.free + 1 } := by
  obtain ⟨hkey, haccess⟩ := objFind_testState (hr ▸ objFind_of_writes h)
  obtain ⟨d, hcounted, -⟩ := counted_inUse_eq s x
  have hzero : natOfBytes r.data = 0 := by rw [hdata]; rfl
  have hreset : resetAsked [⟨o, r.offset, r.data, 2⟩] = some 5 := by simp [resetAsked, hkey, hzero]
  have hwrite := rwWrite_testState (s := counted (inUse s x)) (off := r.offset) (source := 2) hkey (typedWrite_testState_zero hzero)
  refine ⟨_, ?train, (if_pos hr).trans
    (serve_write_resets h (acceptWrites_rw (w := ⟨o, r.offset, r.data, 2⟩) haccess hwrite) hreset)⟩
  rw [hcounted]
  rfl

theorem exec_testStateEnter_eq {s : State} {r : Request} {x : Session} {o : Obj} (hr : r.index * 256 + r.sub = 0x701001)
    (h : writes s r x o) (hv : natOfBytes r.data ≠ 0) (hgroups : s.fabric.groups = []) (hqueues : queueInUse s = false) :
    ∃ d : Dict, d.ordinal = s.dict.ordinal + 1 ∧ exec (.testStateEnter r) s = .next (noteChanges s (replied
      { testing s (natOfBytes r.data) with dict := d } r (acceptedReply 2 r 0 (s.dict.ordinal + 1)))) := by
  obtain ⟨hkey, haccess⟩ := objFind_testState (hr ▸ objFind_of_writes h)
  obtain ⟨d, hcounted, hord⟩ := counted_inUse_eq s x
  have hreset : resetAsked [⟨o, r.offset, r.data, 2⟩] = none := by simp [resetAsked, hkey, hv]
  have hentered : enterTest (counted (inUse s x)) (natOfBytes r.data) = .ok { testing s (natOfBytes r.data) with dict := d } := by
    rw [hcounted]
    exact enterTest_entered _ hgroups hqueues
  have hwrite := rwWrite_testState (off := r.offset) (source := 2) hkey ((typedWrite_testState_enters hv).trans hentered)
  have ha := perform_write_accepted (found := Findings.nothing) h (acceptWrites_rw (w := ⟨o, r.offset, r.data, 2⟩) haccess hwrite)
  rw [hreset, ordinal_inUse] at ha
  exact ⟨sourceMarked o r.offset r.data 2 d, hord, (if_pos hr).trans (serve_accepted h.1 ha)⟩

/-! ## Signed reports (R359) -/

theorem exec_attestReady_signed {s : State} (h : s.boot.attestState = 1) :
    exec .attestReady s = .next (noteChanges s (s.onBoot (fun b => { b with
      attestState := 2
      attestReport := b.attestBody ++ (List.range 9893).map (Config.xmssmtSign (bitsAt (natOfBytes b.attestBody) 1536 40) b.attestBody)
      attestBody := [] }))) := if_neg (not_not.mpr h)

theorem exec_attestReady_idle {s : State} (h : s.boot.attestState ≠ 1) : exec .attestReady s = .next s := if_pos h

/-! ## Margin sweeps (R361) -/

/-- The channels that a margin request names and whose training the sweep has not lost. -/
def sweptChannels (s : State) (lost : NatSet) : List Nat :=
  (List.range 32).filter (fun c => bitAt (natOfBytes s.boot.marginRequest) (16 + c) && !lost.contains c)

theorem exec_marginSweepEnd_swept {s : State} (failed : List (Nat × Nat)) (lost : NatSet) (h : s.boot.marginState = 1) :
    exec (.marginSweepEnd failed lost) s = .next (noteChanges s { s with boot :=
      { (sweptChannels s lost).foldl (marginChannel failed (marginSteps (natOfBytes s.boot.marginRequest))) s.boot with
        marginState := 2 } }) := if_neg (not_not.mpr h)

theorem marginSummaryOf_cons (lo : Int) (l : List Int) :
    marginSummaryOf (lo :: l) = stepByte lo + 256 * stepByte ((lo :: l).getLast (by simp)) := by
  have hlast := List.getLast?_eq_some_getLast (List.cons_ne_nil lo l)
  simp only [marginSummaryOf, hlast]

/-- A sweep steps from its first offset up to its last. -/
theorem mem_marginSteps {v : Nat} {x : Int} (h : x ∈ marginSteps v) : signed 8 (bitsAt v 48 8) ≤ x ∧ x ≤ signed 8 (bitsAt v 56 8) := by
  simp only [marginSteps, List.mem_map, List.bind_eq_flatMap, List.mem_flatMap, List.mem_range, List.pure_def, List.mem_singleton] at h
  obtain ⟨y, ⟨n, hn, rfl⟩, rfl⟩ := h
  omega

end Sys2Proof.Machine

namespace Sys2Proof.Proofs

open Sys2Proof Sys2Proof.Machine

/-- Settles O38: a write that asks for a stack reset is answered before the stack restarts, a test state is entered by a counted write, and
signing and sweeps end by their rows. -/
theorem resetsTestStatesAndReports : Obligations.ResetsTestStatesAndReports := by
  refine ⟨⟨fun s r x o => exec_stackResetWrite_one, ?exit, ?enter, fun s v => enterTest_refused v⟩,
    fun s => exec_attestReady_signed, fun s failed lost => exec_marginSweepEnd_swept failed lost, rfl, marginSummaryOf_cons,
    fun v x => mem_marginSteps, fun s => exec_attestReady_idle⟩
  case exit =>
    intro s r x o hr h hdata
    obtain ⟨u, htrain, hexec⟩ := exec_testStateExit_zero hr h hdata
    refine ⟨_, hexec, ?_⟩
    obtain ⟨⟨⟨-, hmem, -⟩, -, hboot, -⟩, -⟩ := stackResetWith_started (cause := 5) (by decide) u 0
    dsimp only
    rw [hboot, hmem]
    exact ⟨rfl, rfl, rfl, rfl, congrArg Training.committed htrain⟩
  case enter =>
    rintro s r x o v hr h rfl hv hgroups hqueues
    obtain ⟨d, hord, hexec⟩ := exec_testStateEnter_eq hr h hv hgroups hqueues
    exact ⟨_, hexec, rfl, rfl, rfl, rfl, rfl, rfl, rfl, rfl, rfl, rfl, rfl, rfl, hord⟩

end Sys2Proof.Proofs
end

section
/-! The state after reset (R342, R353): recovery_state stands at 0 until start-up ends. -/

namespace Sys2Proof.Machine

/-- Recovery starts out at 0 (running): only the end of start-up makes the module hold (`becomeReady`, R353). -/
theorem reset_resil_state : State.reset.resil.state = 0 := rfl

end Sys2Proof.Machine

namespace Sys2Proof.Proofs

open Sys2Proof Sys2Proof.Machine

/-- Refutes O52: `State.reset` holds recovery_state 0, where the statement asks 1. -/
theorem not_resetHoldsNoJobState : ¬ Obligations.ResetHoldsNoJobState := by
  rintro ⟨-, -, -, -, -, -, hstate, -⟩
  exact absurd (reset_resil_state.symm.trans hstate) (by decide)

end Sys2Proof.Proofs
end

section
/-! Vertical interfaces, power clusters and starved tiles (R196, R210 to R213, R216) -/

namespace Sys2Proof.Machine

open Sys2Proof

/-- `t` differs from `s` in what failing TSVs, an interface lost and a cut withheld touch: the stack, though not its repeats, the step and
its recovery, the fabric with its outputs, and the event log. -/
def tsvWork (s t : State) : Prop :=
  ∃ tr re f o d b k, t = { s with train := tr, resil := re, fabric := f, out := o, dict := d, boot := b, stack := k } ∧
    k.tsvRepeats = s.stack.tsvRepeats

theorem tsvWork_refl (s : State) : tsvWork s s := ⟨_, _, _, _, _, _, _, rfl, rfl⟩

theorem tsvWork_trans {s t u : State} (h : tsvWork s t) (k : tsvWork t u) : tsvWork s u := by
  obtain ⟨_, _, _, _, _, _, _, rfl, h⟩ := h
  obtain ⟨_, _, _, _, _, _, _, rfl, k⟩ := k
  exact ⟨_, _, _, _, _, _, _, rfl, k.trans h⟩

theorem tsvWork_linkOnly {s t : State} (h : linkOnly s t) : tsvWork s t := by
  obtain ⟨_, _, _, _, rfl⟩ := h
  exact ⟨_, _, _, _, _, _, _, rfl, rfl⟩

theorem tsvWork_onStack (s : State) {f : Stack → Stack} (hf : (f s.stack).tsvRepeats = s.stack.tsvRepeats) : tsvWork s (s.onStack f) :=
  ⟨_, _, _, _, _, _, _, rfl, hf⟩

theorem tsvWork_foldl {α : Type} {f : State → α → State} (hf : ∀ t x, tsvWork t (f t x)) (s : State) (l : List α) : tsvWork s (l.foldl f s) := by
  induction l generalizing s with
  | nil => exact tsvWork_refl s
  | cons x l ih => exact tsvWork_trans (hf s x) (ih _)

/-! ## A cut withheld (R216, R294) -/

theorem enterHolding_frame (s : State) : ∃ r, enterHolding s = { s with resil := r } := by
  unfold enterHolding
  split <;> exact ⟨_, rfl⟩

theorem leavePair_frame (s : State) : ∃ r f o d b, leavePair s = { s with resil := r, fabric := f, out := o, dict := d, boot := b } := by
  unfold leavePair
  split
  · obtain ⟨_, _, _, _, h⟩ := linkOnly_sendPacket (s.onResil (fun r => { r with twinState := 2 })) (twinPacket s 0x11 [])
    exact ⟨_, _, _, _, _, h⟩
  · exact ⟨_, _, _, _, _, rfl⟩

/-- A cut withheld touches the step, the recovery, the fabric and the log; the stack is as before. -/
theorem withholdCut_frame (s : State) :
    ∃ tr r f o d b, withholdCut s = { s with train := tr, resil := r, fabric := f, out := o, dict := d, boot := b } := by
  unfold withholdCut
  split
  · obtain ⟨_, h⟩ := enterHolding_frame (s.onTrain (fun t => { t with lateFault := true }))
    exact ⟨_, _, _, _, _, _, h⟩
  · split
    · exact ⟨_, _, _, _, _, _, rfl⟩
    · obtain ⟨_, h⟩ := enterHolding_frame (s.onTrain (fun t => { t with withheld := true }))
      rw [h]
      obtain ⟨_, _, _, _, hn⟩ := linkOnly_sendHoldNotices { s.onTrain (fun t => { t with withheld := true }) with resil := _ }
      rw [hn]
      obtain ⟨_, _, _, _, _, hp⟩ := leavePair_frame { s.onTrain (fun t => { t with withheld := true }) with resil := _, fabric := _, out := _, dict := _, boot := _ }
      rw [hp]
      exact ⟨_, _, _, _, _, _, rfl⟩

/-- Before the cut of its step, a cut is withheld by name. -/
theorem withholdCut_withheld {s : State} (hcut : s.train.cut = false) : (withholdCut s).train.withheld = true := by
  unfold withholdCut
  rw [if_neg (by simp [hcut])]
  split
  · assumption
  · rw [leavePair_train, linkOnly_train (linkOnly_sendHoldNotices _), enterHolding_train, onTrain_train]

theorem tsvWork_withholdCut (s : State) : tsvWork s (withholdCut s) := by
  obtain ⟨_, _, _, _, _, _, h⟩ := withholdCut_frame s
  exact ⟨_, _, _, _, _, _, _, h, rfl⟩

/-! ## Interfaces lost (R210 to R213) -/

@[simp] theorem decideRetirements_tsvRepeats (k : Stack) (f : Nat) : (decideRetirements k f).tsvRepeats = k.tsvRepeats := by
  unfold decideRetirements
  dsimp only
  split <;> rfl

theorem tsvWork_degradeInterface (s : State) (f : Nat) : tsvWork s (degradeInterface s f) := by
  unfold degradeInterface
  split
  · exact tsvWork_trans (tsvWork_onStack s (by simp)) (tsvWork_linkOnly (linkOnly_raise _ _ _))
  · exact tsvWork_refl s

theorem tsvWork_cutInterface (s : State) (f : Nat) : tsvWork s (cutInterface s f) := by
  unfold cutInterface
  split
  · exact tsvWork_refl s
  · exact tsvWork_trans (tsvWork_onStack s (by simp)) (tsvWork_trans (tsvWork_linkOnly (linkOnly_raise _ _ _)) (tsvWork_withholdCut _))

theorem tsvWork_failTsv (s : State) (f : Nat) (control : Bool) (tests : List Bool) : tsvWork s (failTsv s f control tests) := by
  unfold failTsv
  extract_lets left
  split
  extract_lets s1
  have h1 : tsvWork s s1 := tsvWork_onStack s rfl
  clear_value s1
  split
  · exact h1
  · split
    · exact tsvWork_trans h1 (tsvWork_cutInterface s1 f)
    · exact tsvWork_trans h1 (tsvWork_degradeInterface s1 f)

theorem tsvWork_countNamings (s : State) (f : Nat) (failed : List TransferAttempt) (tests : List Bool) : tsvWork s (countNamings s f failed tests) := by
  unfold countNamings
  extract_lets names s1 bad s2
  have h2 : tsvWork s s2 := tsvWork_trans (tsvWork_onStack s rfl)
    (tsvWork_foldl (fun t n => tsvWork_trans (tsvWork_onStack t rfl) (tsvWork_failTsv _ f false tests)) s1 bad)
  clear_value s2
  split
  · exact tsvWork_trans h2 (tsvWork_failTsv s2 f true tests)
  · exact h2

/-- With no attempt before it, nothing is counted and no TSV fails. -/
theorem countNamings_nil (s : State) (f : Nat) (tests : List Bool) : countNamings s f [] tests = s := rfl

/-! ## Transfers -/

section
variable {s : State} {col i : Nat}

theorem exec_verticalTransfer_stopped (l : List TransferAttempt) (spares : List Bool)
    (h : interfaceStopped s i = true ∨ interfaceRetired s (5 * col + i) = true) : exec (.verticalTransfer col i l spares) s = .next s :=
  if_pos (by rwa [Bool.or_eq_true])

theorem exec_verticalTransfer_cut (l : List TransferAttempt) (spares : List Bool) (hstop : interfaceStopped s i = false)
    (hret : interfaceRetired s (5 * col + i) = false) (hcut : tabGet 0 s.stack.interfaces (5 * col + i) = 2) :
    exec (.verticalTransfer col i l spares) s = done s (emit s (.vertical col i ((lastWords l).map poisonWord))) := by
  show execVerticalTransfer col i l spares s = _
  simp only [execVerticalTransfer, hstop, hret, hcut, Bool.or_self, Bool.false_eq_true, if_false, if_true]

/-- An attempt accepted over an interface in service is delivered, once the attempts before it are counted (R196, R210, R211). -/
theorem exec_verticalTransfer_accepted {l failed : List TransferAttempt} {a : TransferAttempt} (spares : List Bool)
    (hstop : interfaceStopped s i = false) (hret : interfaceRetired s (5 * col + i) = false)
    (hst : tabGet 0 s.stack.interfaces (5 * col + i) ≠ 2)
    (hsplit : splitAttempts (if tabGet 0 s.stack.interfaces (5 * col + i) = 0 then attemptClean else attemptCorrectable) 4 l = (failed, some a)) :
    exec (.verticalTransfer col i l spares) s = done s (emit
      (countNamings (s.onStack (fun k => { k with tsvRepeats := tabCount k.tsvRepeats (5 * col + i) failed.length })) (5 * col + i) failed spares)
      (.vertical col i (if tabGet 0 s.stack.interfaces (5 * col + i) = 0 then a.words else a.words.map correctInFlight))) := by
  show execVerticalTransfer col i l spares s = _
  simp only [execVerticalTransfer, hstop, hret, hst, hsplit, Bool.or_self, Bool.false_eq_true, if_false, Option.isSome_some, if_true]

/-- What an accepted attempt leaves: its words as the last output, the attempts before it counted. -/
theorem delivered_frame (failed : List TransferAttempt) (spares : List Bool) (f : Nat) (o : Output) :
    let t := noteChanges s (emit (countNamings (s.onStack (fun k => { k with tsvRepeats := tabCount k.tsvRepeats f failed.length })) f failed spares) o)
    t.out.getLast? = some o ∧ t.stack.tsvRepeats = tabCount s.stack.tsvRepeats f failed.length ∧
      t.mem = s.mem ∧ t.flash = s.flash ∧ t.power = s.power ∧ t.tiles = s.tiles := by
  obtain ⟨_, _, _, _, _, _, _, h, hk⟩ := tsvWork_countNamings
    (s.onStack (fun k => { k with tsvRepeats := tabCount k.tsvRepeats f failed.length })) f failed spares
  rw [h]
  simp [hk]

end

/-! ## Power clusters and starved tiles (R216) -/

/-- An event raised after start-up goes to the log alone (R338). -/
theorem raise_of_ready {s : State} (h : 8 ≤ s.boot.phase) (c : Code) (a : Nat) : ∃ d, raise s c a = { s with dict := d } := by
  rw [raise, if_neg (by omega)]
  obtain ⟨d, hd, -⟩ := logEvent_frame s c a
  exact ⟨d, hd⟩

theorem decideTile_live {s : State} {p : Nat} (h : s.stack.retired.contains p = false) :
    decideTile s p = s.onStack (fun k => { k with retiring := setAdd k.retiring p }) :=
  if_neg (by rw [h]; exact Bool.false_ne_true)

/-- The state in which the failure of a cluster is recorded. -/
def clusterRecorded (s : State) (p : Nat) : State :=
  (s.onStack (fun k => { k with clusters := tabSet 0 k.clusters p 1 })).onPower (fun x => { x with tileSlow := setAdd x.tileSlow p })

/-- The first failure of a cluster is recorded, and its tile is to be retired. -/
theorem exec_powerClusterFail_first {s : State} {p : Nat} (hfirst : tabGet 0 s.stack.clusters p = 0)
    (hlive : s.stack.retired.contains p = false) :
    exec (.powerClusterFail p) s = .next (noteChanges s ((raise (clusterRecorded s p) 0x0811080B p).onStack
      (fun k => { k with retiring := setAdd k.retiring p }))) := by
  obtain ⟨_, _, hraise⟩ := raise_frame (clusterRecorded s p) 0x0811080B p
  rw [← decideTile_live (by rw [hraise]; exact hlive)]
  exact if_neg (by omega)

/-- A stop that lasts withholds the cut, and the tile is to be retired. -/
theorem exec_tileFloorTimeout_live {s : State} {p : Nat} (hfloor : s.power.tileFloor.contains p = true)
    (hlive : s.stack.retired.contains p = false) :
    exec (.tileFloorTimeout p) s = .next (noteChanges s ((withholdCut (raise s 0x0811080C p)).onStack
      (fun k => { k with retiring := setAdd k.retiring p }))) := by
  obtain ⟨_, _, hraise⟩ := raise_frame s 0x0811080C p
  obtain ⟨_, _, _, _, _, _, hcut⟩ := withholdCut_frame (raise s 0x0811080C p)
  rw [← decideTile_live (by rw [hcut, hraise]; exact hlive)]
  exact if_pos hfloor

end Sys2Proof.Machine

namespace Sys2Proof.Proofs

open Sys2Proof Sys2Proof.Machine

/-- Settles O6: an accepted attempt is delivered after what the attempts before it count, and what fails of a column is recorded before its
tile is given up. -/
theorem stackPartsFailAndRetire : Obligations.StackPartsFailAndRetire := by
  refine ⟨⟨?normal, ?degraded, ?cut, fun s col i l spares _ _ => exec_verticalTransfer_stopped l spares⟩,
    ?cluster, fun s p mv _ hmv => if_neg (by omega), fun s p mv _ hmv => if_neg (by omega), ?starved⟩
  case normal =>
    intro s col i l failed a spares _ _ hstop hret hst hsplit
    have hexec := exec_verticalTransfer_accepted spares hstop hret (by omega) (by rwa [if_pos hst])
    rw [if_pos hst] at hexec
    obtain ⟨hout, hrepeats, hframe⟩ := delivered_frame (s := s) failed spares (5 * col + i) (.vertical col i a.words)
    refine ⟨_, hexec, hout, hrepeats, ?_, hframe⟩
    rintro rfl
    rw [List.length_nil, countNamings_nil]
    simp
  case degraded =>
    intro s col i l failed a spares _ _ hstop hret hst hsplit
    have hexec := exec_verticalTransfer_accepted spares hstop hret (by omega) (by rwa [if_neg (by omega)])
    rw [if_neg (by omega)] at hexec
    exact ⟨_, hexec, delivered_frame failed spares _ _⟩
  case cut =>
    intro s col i l a spares _ _ hstop hret hst
    rw [exec_verticalTransfer_cut _ spares hstop hret hst]
    simp [done, emit, lastWords]
  case cluster =>
    intro s p _ hready hfirst hlive
    obtain ⟨_, hraise⟩ := raise_of_ready (s := clusterRecorded s p) hready 0x0811080B p
    refine ⟨_, exec_powerClusterFail_first hfirst hlive, ?_⟩
    rw [hraise]
    simp [clusterRecorded, tabGet_set_value]
  case starved =>
    intro s p _ hfloor hlive
    obtain ⟨_, _, hraise⟩ := raise_frame s 0x0811080C p
    obtain ⟨_, _, _, _, _, _, hcut⟩ := withholdCut_frame (raise s 0x0811080C p)
    refine ⟨_, exec_tileFloorTimeout_live hfloor hlive, ?_, fun hopen => ?_, ?_⟩
    · rw [hcut, hraise]; simp
    · simpa using withholdCut_withheld (s := raise s 0x0811080C p) (by simpa using hopen)
    · rw [hcut, hraise]; simp

end Sys2Proof.Proofs
end

section
/-! The patrol scrubber, channel failures and the repair of held lines (R200, R208, R209, R277, R289, R298) -/

namespace Sys2Proof.Machine

open Sys2Proof

/-! ## The scrubber's pass (R208, R209) -/

theorem exec_patrolScrub_end {s : State} {store n : Nat} (hon : scrubOff s store = false) (hat : tabGet 0 s.prot.scrubAt store = n)
    (hend : scrubTarget s store n = none) : exec (.patrolScrub store) s = .next (noteChanges s (endScrubPass s store)) := by
  show execPatrolScrub store s = _
  simp only [execPatrolScrub, hon, hat, hend, Bool.false_eq_true, if_false, done]

/-- A word scrubbed, and the pass moved on to the next. -/
def scrubbed (s : State) (x : ScrubWord) (store n : Nat) : State :=
  (scrubWord s x store).onProt (fun p => { p with scrubAt := tabInsert p.scrubAt store (n + 1) })

theorem exec_patrolScrub_word {s : State} {store n : Nat} {x : ScrubWord} (hon : scrubOff s store = false)
    (hat : tabGet 0 s.prot.scrubAt store = n) (hword : scrubTarget s store n = some x) :
    exec (.patrolScrub store) s = .next (noteChanges s
      (if (scrubTarget (scrubbed s x store n) store (n + 1)).isNone then endScrubPass (scrubbed s x store n) store else scrubbed s x store n)) := by
  show execPatrolScrub store s = _
  simp only [execPatrolScrub, hon, hat, hword, Bool.false_eq_true, if_false, done]
  rfl

/-- The end of a pass changes its counts, its place and its rows alone. -/
theorem passEnded_frame (c : Prop) [Decidable c] (s : State) (store : Nat) :
    ∃ n a r, (if c then endScrubPass s store else s) = s.onProt (fun p => { p with scrubPasses := n, scrubAt := a, scrubRows := r }) := by
  split <;> exact ⟨_, _, _, rfl⟩

/-- A clean word is passed over. -/
theorem scrubMemory_clean {s : State} {a : Nat} (store : Nat) (htags : s.cache.tagSynd = [])
    (hclean : decodeSyndrome (heldSyndrome s.mem s.free (a / 8)) = .clean) : scrubMemory s a store = s := by
  simp only [scrubMemory, lookupTags, htags, hclean, if_true]
  split <;> rfl

/-- A row that the pass before has not corrected is noted and not repaired (R276). -/
theorem scrubRow_frame {s : State} {a store : Nat}
    (hrow : store = 3 → s.prot.scrubRows.contains (2 * (bankKey s a * 32768 + rowNumber s a)) = false) :
    ∃ r, scrubRow s a store = s.onProt (fun p => { p with scrubRows := r }) := by
  unfold scrubRow
  split
  · exact ⟨_, rfl⟩
  · next h =>
    have hnew := hrow (not_not.mp h)
    simp only [hnew, Bool.false_eq_true, if_false]
    exact ⟨_, rfl⟩

/-- One wrong data bit of a Correct region is put right, counted and noted (R208, R209). -/
theorem scrubMemory_dataBit {s : State} {a store i : Nat} (htags : s.cache.tagSynd = []) (hcorrect : isDetect s a = false)
    (hbit : decodeSyndrome (heldSyndrome s.mem s.free (a / 8)) = .dataBit i)
    (hrow : store = 3 → s.prot.scrubRows.contains (2 * (bankKey s a * 32768 + rowNumber s a)) = false) :
    ∃ r, scrubMemory s a store = { s with
      mem := putWord s.mem (a / 8) (heldWord s.mem s.free (a / 8) ^^^ BitVec.ofNat 64 (2 ^ i)) false
      prot := { s.prot with
        corrected := countStore s.prot.corrected store
        scrubLog := tabInsert s.prot.scrubLog s.prot.scrubNext (a, scrubStore store, 1, currentStep s)
        scrubNext := (s.prot.scrubNext + 1) % 64
        scrubRows := r } } := by
  simp only [scrubMemory, lookupTags, htags, hcorrect, hbit, if_true, Bool.false_eq_true, if_false]
  obtain ⟨r, hr⟩ := scrubRow_frame (s := scrubNote { s.onProt (fun p => { p with corrected := countStore p.corrected store }) with
    mem := putWord s.mem (a / 8) (heldWord s.mem s.free (a / 8) ^^^ BitVec.ofNat 64 (2 ^ i)) false } a store 1) (a := a) (store := store) hrow
  exact ⟨r, hr⟩

/-- So is the first copy of a word of Husk state storage. -/
theorem scrubHusk_dataBit {s : State} {n i : Nat} (hbit : decodeSyndrome (tabGet ((0 : Byte), (0 : Byte)) s.prot.huskSynd n).1 = .dataBit i) :
    scrubHusk s (2 * n) = s.onProt (fun p => { p with
      corrected := countStore p.corrected 4
      huskSynd := tabSet (0, 0) p.huskSynd n (0, (tabGet ((0 : Byte), (0 : Byte)) s.prot.huskSynd n).2)
      scrubLog := tabInsert p.scrubLog p.scrubNext (Config.huskAddress (2 * n), scrubStore 4, 1, currentStep s)
      scrubNext := (p.scrubNext + 1) % 64 }) := by
  have hhalf : 2 * n / 2 = n := by omega
  have heven : 2 * n % 2 = 0 := by omega
  simp only [scrubHusk, hhalf, heven, if_true, hbit]
  rfl

theorem scrubTarget_husk (s : State) {n : Nat} (h : n < huskCount) : scrubTarget s 4 (2 * n) = some (.husk (2 * n)) := by
  simp [scrubTarget, huskWord, h]

/-! ## Memory lost (R277, R289) -/

/-- Of the range of HBM nothing stays. -/
theorem memByte?_loseMemory (s : State) {b : Nat} (h : b < hbmEnd) : memByte? (loseMemory s).mem b = none := by
  cases hfind : memByte? (loseMemory s).mem b with
  | none => rfl
  | some v =>
    have hmem : (b, v) ∈ (loseMemory s).mem.cells := mem_of_tabFind hfind
    simp only [loseMemory, State.onResil, State.onProt, State.onFabric, forget, tabDrop, List.mem_filter, decide_eq_true_eq] at hmem
    omega

@[simp] theorem enterHolding_memoryLost (s : State) : (enterHolding s).resil.memoryLost = s.resil.memoryLost := by
  unfold enterHolding
  split <;> rfl

/-- A channel whose stack has none that is spread is one that is not spread itself. -/
theorem not_spread_of_stack {l : NatSet} {stack ch : Nat} (hch : ch < 32) (h : l.any (fun d => decide (d / 32 = stack)) = false) :
    l.contains (32 * stack + ch) = false := by
  rw [List.any_eq_false] at h
  rw [Bool.eq_false_iff]
  intro hmem
  have hsame : (32 * stack + ch) / 32 = stack := by omega
  exact h _ (List.contains_iff_mem.mp hmem) (by simp [hsame])

theorem exec_hbmChannelFail_first {s : State} {stack ch : Nat} (hch : ch < 32)
    (hstack : (s.prot.spread ++ s.prot.spreading).any (fun d => decide (d / 32 = stack)) = false) :
    exec (.hbmChannelFail stack ch) s = .next (noteChanges s (enterHolding (loseMemory
      (raise (s.onProt (fun p => { p with spreading := setAdd p.spreading (32 * stack + ch) })) 0x08080B03 (32 * stack + ch))))) := by
  show execHbmChannelFail stack ch s = _
  simp only [execHbmChannelFail, not_spread_of_stack hch hstack, hstack, Bool.false_eq_true, if_false, done]

theorem exec_hbmChannelFail_second {s : State} {stack ch : Nat} (hnew : (s.prot.spread ++ s.prot.spreading).contains (32 * stack + ch) = false)
    (hstack : (s.prot.spread ++ s.prot.spreading).any (fun d => decide (d / 32 = stack)) = true) :
    exec (.hbmChannelFail stack ch) s = .next (noteChanges s (stopModule (loseMemory (raise s 0x08080B04 (32 * stack + ch))))) := by
  show execHbmChannelFail stack ch s = _
  simp only [execHbmChannelFail, hnew, hstack, Bool.false_eq_true, if_false, if_true, done]

/-! ## Whole lines written (R298) -/

/-- Words that the bytes cover are written whole: they stand in memory, and every other byte stays. -/
theorem writeWords_covered {n : Nat} {s : State} {w a : Nat} {l : List Byte} (hlo : a ≤ 8 * w) (hhi : 8 * (w + n) ≤ a + l.length) :
    ∃ m, writeWords n s w a (unmarked l) = ({ s with mem := m }, false, false) ∧
      (∀ b, 8 * w ≤ b → b < 8 * (w + n) → memByte? m b = l[b - a]?) ∧
      ∀ b, b < 8 * w ∨ 8 * (w + n) ≤ b → memByte? m b = memByte? s.mem b := by
  induction n generalizing s w with
  | zero => exact ⟨s.mem, rfl, fun b h1 h2 => by omega, fun b _ => rfl⟩
  | succ n ih =>
    have hall : (bytesOnWord a (unmarked l) w).all (fun x => x.isSome) = true := by
      simp only [bytesOnWord, List.all_map, List.all_eq_true, List.mem_range, Function.comp_apply]
      intro i hi
      rw [if_neg (by omega), unmarked, List.getElem?_map, List.getElem?_eq_getElem (by omega)]
      rfl
    have hword : ∀ b, 8 * w ≤ b → b < 8 * w + 8 → memByte? (putWord s.mem w (wordAfter s.mem s.free a l w) false) b = l[b - a]? := by
      intro b h1 h2
      obtain ⟨i, rfl⟩ : ∃ i, b = 8 * w + i := ⟨b - 8 * w, by omega⟩
      rw [memByte?_putWord_in _ _ _ _ (by omega), bytesOfNat_wordAfter, bytesAfter, List.getElem?_map, List.getElem?_range (by omega)]
      simp only [Option.map_some, byteAfter]
      rw [if_neg (by omega), List.getElem?_eq_getElem (by omega)]
      rfl
    obtain ⟨m, hrest, hin, hout⟩ := ih (s := { s with mem := putWord s.mem w (wordAfter s.mem s.free a l w) false }) (w := w + 1)
      (by omega) (by omega)
    refine ⟨m, ?_, fun b h1 h2 => ?_, fun b h => ?_⟩
    · simp only [writeWords, if_pos hall, writeWhole_covered hall, hrest, Bool.false_or]
    · rcases Nat.lt_or_ge b (8 * (w + 1)) with h3 | h3
      · rw [hout b (.inl h3)]
        exact hword b h1 (by omega)
      · exact hin b h3 (by omega)
    · rw [hout b (by omega)]
      exact memByte?_putWord_out _ _ _ _ (by omega)

/-- A line put into memory stands there, and every other byte stays. -/
theorem putMem_line (s : State) (line : Nat) {l : List Byte} (hlen : l.length = 64) :
    ∃ m, putMem s (64 * line) l = { s with mem := m } ∧ (∀ i, i < 64 → memByte? m (64 * line + i) = l[i]?) ∧
      ∀ b, b < 64 * line ∨ 64 * line + 64 ≤ b → memByte? m b = memByte? s.mem b := by
  obtain ⟨m, hwrite, hin, hout⟩ := writeWords_covered (n := 8) (s := s) (w := 8 * line) (a := 64 * line) (l := l) (by omega) (by omega)
  have hne : unmarked l ≠ [] := by
    rintro h
    rw [unmarked, List.map_eq_nil_iff] at h
    simp [h] at hlen
  have hwords : (64 * line + (unmarked l).length + 7) / 8 - 64 * line / 8 = 8 := by
    rw [unmarked, List.length_map, hlen]
    omega
  have hmarked : writeBytes s (64 * line) l = ({ s with mem := m }, false, false) := by
    show writeMarked s (64 * line) (unmarked l) = _
    rw [writeMarked, if_neg hne, hwords, show 64 * line / 8 = 8 * line by omega, hwrite]
  refine ⟨m, ?_, fun i hi => ?_, fun b hb => hout b (by omega)⟩
  · simp only [putMem, putFor, hmarked, Bool.false_eq_true, if_false]
  · rw [hin _ (by omega) (by omega), show 64 * line + i - 64 * line = i by omega]

/-- The value of a line is 64 bytes. -/
theorem lineValue_length {s : State} {g : Group} {line : Nat} {l : List Byte} (h : lineValue s g line = some l) : l.length = 64 := by
  unfold lineValue at h
  rw [← List.length_range (n := 64)]
  generalize List.range 64 = places at h ⊢
  induction places generalizing l with
  | nil =>
    cases h
    rfl
  | cons i places ih =>
    rw [List.foldr_cons] at h
    dsimp only at h
    split at h
    · next hrest =>
      cases h
      exact congrArg (· + 1) (ih hrest)
    · cases h

/-! ## A line freed (R200) -/

theorem sliceOnly_foldl {α : Type} {f : State → α → State} (h : ∀ t x, sliceOnly t (f t x)) (s : State) (l : List α) :
    sliceOnly s (l.foldl f s) := by
  induction l generalizing s with
  | nil => exact sliceOnly_refl s
  | cons x l ih => exact sliceOnly_trans (h s x) (ih _)

/-- What has become free changes the slices alone, where no tile waits. -/
theorem sliceOnly_admitWaiting {s : State} (h : ∀ e ∈ s.tiles, e.2.issued = []) : sliceOnly s (admitWaiting s) := by
  unfold admitWaiting
  extract_lets waiting blocked s1
  have h1 : sliceOnly s (blocked.foldl accessLine s1) := sliceOnly_trans (sliceOnly_onCache s _)
    (sliceOnly_trans (sliceOnly_foldl (fun t w => sliceOnly_requestFill _ _ _ _ _) _ _) (sliceOnly_foldl sliceOnly_accessLine _ _))
  rw [pumpTiles_of_issued_nil (by rw [sliceOnly_tiles h1]; exact h)]
  exact h1

/-- A line freed that nobody waits for leaves the lines held and the slices' own state. -/
theorem lineFreed_unawaited {s : State} (line : Nat) (hrequests : s.cracker.heldRequests = []) (haccesses : s.prot.heldAccesses = [])
    (hissued : ∀ e ∈ s.tiles, e.2.issued = []) :
    ∃ c, lineFreed s line = { releaseLine s line with cache := c } := by
  unfold lineFreed
  extract_lets s1 s2
  have hreturned : lineReturned s1 line = s1 := lineReturned_of_issued_nil (s := s1) hissued line
  have hserved : serveHeldAccesses s1 line = s1 := by
    have h1 : s1.prot.heldAccesses = [] := haccesses
    simp only [serveHeldAccesses, h1, List.filter_nil, List.foldl_nil, State.onProt]
    rw [← h1]
  obtain ⟨c, hc⟩ := sliceOnly_admitWaiting (s := s1) hissued
  have h2 : s2 = { s1 with cache := c } := by simp only [s2, hreturned, hserved, hc]
  rw [h2]
  exact ⟨c, if_pos hrequests⟩

/-! ## Accesses refused (R298) -/

/-- `t` differs from `s` in what a remote host that is refused sees: its connection, the outputs, the log. -/
def frontOnly (s t : State) : Prop := ∃ f o b d, t = { s with front := f, out := o, boot := b, dict := d }

theorem frontOnly_trans {s t u : State} (h : frontOnly s t) (k : frontOnly t u) : frontOnly s u := by
  obtain ⟨_, _, _, _, rfl⟩ := h
  obtain ⟨_, _, _, _, rfl⟩ := k
  exact ⟨_, _, _, _, rfl⟩

theorem frontOnly_raise (s : State) (c : Code) (a : Nat) : frontOnly s (raise s c a) := by
  obtain ⟨_, _, h⟩ := raise_frame s c a
  exact ⟨_, _, _, _, h⟩

theorem frontOnly_onFront (s : State) (f : FrontEnd → FrontEnd) : frontOnly s (s.onFront f) := ⟨_, _, _, _, rfl⟩

theorem frontOnly_sendOn (s : State) (conn : Nat) (o : Output) : frontOnly s (sendOn s conn o) := by
  unfold sendOn
  dsimp only
  split
  · exact frontOnly_onFront s _
  · exact ⟨_, _, _, _, rfl⟩

theorem frontOnly_sendNak (s : State) (conn : Nat) (operational : Bool) (code : Code) : frontOnly s (sendNak s conn operational code) := by
  unfold sendNak
  extract_lets s0 s1
  have h0 : frontOnly s s0 := by
    simp only [s0]
    split
    · exact frontOnly_raise s code 0
    · exact ⟨_, _, _, _, rfl⟩
  clear_value s0
  exact frontOnly_trans h0 (frontOnly_trans (frontOnly_onFront s0 _) (frontOnly_trans (frontOnly_onFront s1 _) (frontOnly_sendOn _ _ _)))

theorem frontOnly_tellRemote {s : State} {who : Initiator} (h : remoteAccess who = true) (detail addr : Nat) :
    frontOnly s (tellInitiator s who detail addr) := by
  unfold tellInitiator
  cases who with
  | remote conn =>
    dsimp only
    split
    · exact frontOnly_sendNak _ _ _ _
    · exact ⟨_, _, _, _, rfl⟩
  | _ => exact nomatch h

theorem frontOnly_refuse (l : List HeldAccess) (h : ∀ x ∈ l, remoteAccess x.who = true) (s : State) :
    frontOnly s (l.foldl (fun t x => tellInitiator t x.who 0x0801 x.addr) s) := by
  induction l generalizing s with
  | nil => exact ⟨_, _, _, _, rfl⟩
  | cons x l ih =>
    exact frontOnly_trans (frontOnly_tellRemote (h x (List.mem_cons_self ..)) _ _) (ih (fun y hy => h y (List.mem_cons_of_mem x hy)) _)

/-- The remote accesses that a lost line held are refused, and no other access is touched. -/
theorem refuseHeld_frame (s : State) (line : Nat) :
    ∃ f o b d l, refuseHeld s line = { s with front := f, out := o, boot := b, dict := d, prot := { s.prot with heldAccesses := l } } := by
  unfold refuseHeld
  extract_lets mine
  have hmine : ∀ x ∈ s.prot.heldAccesses.filter mine, remoteAccess x.who = true := by
    intro x hx
    have := (List.mem_filter.mp hx).2
    simp only [mine, Bool.and_eq_true] at this
    exact this.1
  obtain ⟨_, _, _, _, h⟩ := frontOnly_refuse _ hmine (s.onProt (fun p => { p with heldAccesses := p.heldAccesses.filter (fun x => !mine x) }))
  exact ⟨_, _, _, _, _, h⟩

/-! ## LINE_REPAIR, case by case (R298) -/

section
variable {s : State} {line block : Nat} {g : Group} (hheld : s.prot.heldLines.find? (fun h => decide (h.1 = line)) = some (line, block))
include hheld

theorem exec_lineRepair_free (hfree : groupAt s (64 * line) = none ∨ lineBad s line = false) :
    exec (.lineRepair line) s = .next (noteChanges s (lineFreed s line)) := by
  show execLineRepair line s = _
  cases hgroup : groupAt s (64 * line) with
  | none => simp only [execLineRepair, hheld, hgroup, done]
  | some g =>
    have hgood : lineBad s line = false := hfree.resolve_left (by simp [hgroup])
    simp only [execLineRepair, hheld, hgroup, hgood, if_true, done]

variable (hgroup : groupAt s (64 * line) = some g) (hbad : lineBad s line = true)
include hgroup hbad

theorem exec_lineRepair_valued {l : List Byte} (hvalue : lineValue s g line = some l) :
    exec (.lineRepair line) s = .next (noteChanges s (lineFreed ((accessSlices (putMem s (64 * line) l) .hazel (64 * line) 64 true).onProt
      (fun p => { p with savedRepairs := p.savedRepairs + 1 })) line)) := by
  show execLineRepair line s = _
  simp only [execLineRepair, hheld, hgroup, hbad, hvalue, Bool.true_eq_false, if_false, done]

variable (hvalue : lineValue s g line = none)
include hvalue

theorem exec_lineRepair_asked {n : BitVec 24} (hsource : lineSource s g line = .ask n) :
    exec (.lineRepair line) s = .next (noteChanges s (sendPacket s (controlPacket s n (jobGroup s) 5
      (bytesOfNat 8 (64 * line) ++ bytesOfNat 8 s.train.committed)))) := by
  show execLineRepair line s = _
  simp only [execLineRepair, hheld, hgroup, hbad, hvalue, hsource, Bool.true_eq_false, if_false, done]

theorem exec_lineRepair_waits (hsource : lineSource s g line = .later) : exec (.lineRepair line) s = .next s := by
  show execLineRepair line s = _
  simp only [execLineRepair, hheld, hgroup, hbad, hvalue, hsource, Bool.true_eq_false, if_false]

theorem exec_lineRepair_lost (hsource : lineSource s g line = .none) :
    exec (.lineRepair line) s = .next (noteChanges s (enterHolding (refuseHeld
      (raise ((releaseLine s line).onProt (fun p => { p with lostGroups := setAdd p.lostGroups g.number })) (codeOf 8 block 0x0806) (64 * line))
      line))) := by
  show execLineRepair line s = _
  simp only [execLineRepair, hheld, hgroup, hbad, hvalue, hsource, Bool.true_eq_false, if_false, done]

end

end Sys2Proof.Machine

namespace Sys2Proof.Proofs

open Sys2Proof Sys2Proof.Machine

/-- Settles O10: a scrub read goes by what its code says, a failed channel by those of its stack before it, and a held line by whether its
value has come and where it can come from. -/
theorem memoryIsScrubbedAndRepaired : Obligations.MemoryIsScrubbedAndRepaired := by
  refine ⟨⟨?clean, ?bit, ?passEnd, ?husk⟩, ⟨?first, ?second⟩, ?valued,
    fun s line block g l hheld hgroup hbad hvalue => exec_lineRepair_valued hheld hgroup hbad hvalue, ?asked, ?lost,
    fun s line block g hheld hgroup hbad hvalue hsource => exec_lineRepair_waits hheld hgroup hbad hvalue hsource,
    fun s line block hheld hfree => exec_lineRepair_free hheld hfree⟩
  case clean =>
    intro s store a n hon hat hword htags hnext hclean
    have hscrub : scrubbed s (.memory a) store n = s.onProt (fun p => { p with scrubAt := tabInsert p.scrubAt store (n + 1) }) :=
      congrArg (State.onProt · _) (scrubMemory_clean store htags hclean)
    have hmore : (scrubTarget (s.onProt (fun p => { p with scrubAt := tabInsert p.scrubAt store (n + 1) })) store (n + 1)).isNone = false := by
      rw [← Option.not_isSome, Bool.not_eq_false']
      exact hnext
    refine ⟨_, exec_patrolScrub_word hon hat hword, ?_⟩
    rw [hscrub, hmore]
    exact ⟨rfl, rfl⟩
  case bit =>
    intro s store a n i hon hat hword htags hcorrect hbit hrow
    obtain ⟨_, hscrub⟩ := scrubMemory_dataBit htags hcorrect hbit hrow
    obtain ⟨_, _, _, hend⟩ := passEnded_frame ((scrubTarget (scrubbed s (.memory a) store n) store (n + 1)).isNone = true)
      (scrubbed s (.memory a) store n) store
    refine ⟨_, exec_patrolScrub_word hon hat hword, ?_⟩
    rw [hend, scrubbed, scrubWord, hscrub]
    simp
  case passEnd =>
    intro s store n hon hat hend
    exact ⟨_, exec_patrolScrub_end hon hat hend, rfl, rfl, rfl⟩
  case husk =>
    rintro s n i pair hon hat hn rfl hbit
    obtain ⟨_, _, _, hend⟩ := passEnded_frame ((scrubTarget (scrubbed s (.husk (2 * n)) 4 (2 * n)) 4 (2 * n + 1)).isNone = true)
      (scrubbed s (.husk (2 * n)) 4 (2 * n)) 4
    refine ⟨_, exec_patrolScrub_word hon hat (scrubTarget_husk s hn), ?_⟩
    rw [hend, scrubbed, scrubWord, scrubHusk_dataBit hbit]
    simp
  case first =>
    intro s stack ch _ _ hch hstack
    have hlost := fun b (hb : b < hbmEnd) => memByte?_loseMemory
      (raise (s.onProt (fun p => { p with spreading := setAdd p.spreading (32 * stack + ch) })) 0x08080B03 (32 * stack + ch)) hb
    refine ⟨_, exec_hbmChannelFail_first hch hstack, ?_⟩
    have hheld := enterHolding_memoryLost (loseMemory
      (raise (s.onProt (fun p => { p with spreading := setAdd p.spreading (32 * stack + ch) })) 0x08080B03 (32 * stack + ch)))
    obtain ⟨_, hholding⟩ := enterHolding_frame (loseMemory
      (raise (s.onProt (fun p => { p with spreading := setAdd p.spreading (32 * stack + ch) })) 0x08080B03 (32 * stack + ch)))
    obtain ⟨_, _, hraise⟩ := raise_frame (s.onProt (fun p => { p with spreading := setAdd p.spreading (32 * stack + ch) })) 0x08080B03
      (32 * stack + ch)
    rw [hraise] at hlost hheld hholding ⊢
    rw [hholding] at hheld ⊢
    exact ⟨rfl, hheld, hlost, rfl, rfl, rfl, rfl, rfl⟩
  case second =>
    intro s stack ch _ _ _ hnew hstack
    have hlost := fun b (hb : b < hbmEnd) => memByte?_loseMemory (raise s 0x08080B04 (32 * stack + ch)) hb
    refine ⟨_, exec_hbmChannelFail_second hnew hstack, ?_⟩
    obtain ⟨_, _, hraise⟩ := raise_frame s 0x08080B04 (32 * stack + ch)
    rw [hraise] at hlost ⊢
    exact ⟨rfl, rfl, hlost, rfl, rfl⟩
  case valued =>
    intro s line block g l hheld hgroup hbad hvalue hrequests haccesses hissued
    obtain ⟨m, hput, hin, hout⟩ := putMem_line s line (lineValue_length hvalue)
    obtain ⟨c, hslices⟩ := sliceOnly_accessSlices { s with mem := m } .hazel (64 * line) 64 true
    have hwritten : accessSlices (putMem s (64 * line) l) .hazel (64 * line) 64 true = { s with mem := m, cache := c } := by rw [hput, hslices]
    obtain ⟨_, hfreed⟩ := lineFreed_unawaited
      (s := State.onProt { s with mem := m, cache := c } (fun p => { p with savedRepairs := p.savedRepairs + 1 })) line hrequests haccesses hissued
    refine ⟨_, exec_lineRepair_valued hheld hgroup hbad hvalue, ?_⟩
    rw [hwritten, hfreed]
    exact ⟨hin, hout, rfl, rfl, rfl, rfl, rfl⟩
  case asked =>
    intro s line block g n hheld hgroup hbad hvalue hsource
    refine ⟨_, exec_lineRepair_asked hheld hgroup hbad hvalue hsource, ?_⟩
    obtain ⟨_, _, _, _, hsend⟩ := linkOnly_sendPacket s (controlPacket s n (jobGroup s) 5 (bytesOfNat 8 (64 * line) ++ bytesOfNat 8 s.train.committed))
    rw [hsend]
    exact ⟨rfl, rfl, rfl, rfl⟩
  case lost =>
    intro s line block g hheld hgroup hbad hvalue hsource
    refine ⟨_, exec_lineRepair_lost hheld hgroup hbad hvalue hsource, ?_⟩
    obtain ⟨_, _, hraise⟩ := raise_frame ((releaseLine s line).onProt (fun p => { p with lostGroups := setAdd p.lostGroups g.number }))
      (codeOf 8 block 0x0806) (64 * line)
    rw [hraise]
    obtain ⟨_, _, _, _, _, hrefuse⟩ := refuseHeld_frame { (releaseLine s line).onProt (fun p => { p with lostGroups := setAdd p.lostGroups g.number })
      with boot := _, dict := _ } line
    rw [hrefuse]
    obtain ⟨_, hholding⟩ := enterHolding_frame { (releaseLine s line).onProt (fun p => { p with lostGroups := setAdd p.lostGroups g.number })
      with boot := _, dict := _, front := _, out := _, prot := _ }
    rw [hholding]
    exact ⟨rfl, rfl, rfl, rfl⟩

end Sys2Proof.Proofs
end

section
/-! What leaves the canonical form of memory and banks as it is (O55): the functions of the model that write neither of them -/

namespace Sys2Proof.Machine

open Sys2Proof

@[simp] theorem canonical_mk {a b c d : _} {m k : Memory} {g h i j l n o p q r u v w x y : _} :
    canonical (State.mk a b c d m k g h i j l n o p q r u v w x y) ↔ m.wf = true ∧ k.wf = true := Iff.rfl

/-- The two forms, read off one state. -/
@[simp] theorem canonical_fold {s : State} : s.mem.wf = true ∧ s.banks.wf = true ↔ canonical s := Iff.rfl

@[simp] theorem canonical_ite (c : Prop) [Decidable c] (a b : State) : canonical (if c then a else b) ↔ if c then canonical a else canonical b := by
  split <;> rfl

@[simp] theorem snd_ite_canonical {α : Type} (c : Prop) [Decidable c] (a b : α × State) :
    canonical (if c then a else b).2 ↔ if c then canonical a.2 else canonical b.2 := by
  split <;> rfl

@[simp] theorem fst_ite_canonical {α : Type} (c : Prop) [Decidable c] (a b : State × α) :
    canonical (if c then a else b).1 ↔ if c then canonical a.1 else canonical b.1 := by
  split <;> rfl

theorem linkOnly_canonical {s t : State} (h : linkOnly s t) : canonical t ↔ canonical s := by obtain ⟨_, _, _, _, rfl⟩ := h; rfl

theorem sliceOnly_canonical {s t : State} (h : sliceOnly s t) : canonical t ↔ canonical s := by obtain ⟨_, rfl⟩ := h; rfl

@[simp] theorem foldl_canonical {α : Type} {f : State → α → State} (hf : ∀ t x, canonical (f t x) ↔ canonical t) (s : State) (l : List α) :
    canonical (l.foldl f s) ↔ canonical s := by
  induction l generalizing s with
  | nil => rfl
  | cons x l ih => exact (ih _).trans (hf s x)

@[simp] theorem foldl_snd_canonical {α β : Type} {f : β × State → α → β × State} (hf : ∀ y x, canonical (f y x).2 ↔ canonical y.2) (y : β × State)
    (l : List α) : canonical (l.foldl f y).2 ↔ canonical y.2 := by
  induction l generalizing y with
  | nil => rfl
  | cons x l ih => exact (ih _).trans (hf y x)

@[simp] theorem onPower_canonical (s : State) (f : Power → Power) : canonical (s.onPower f) ↔ canonical s := Iff.rfl
@[simp] theorem onBoot_canonical (s : State) (f : Boot → Boot) : canonical (s.onBoot f) ↔ canonical s := Iff.rfl
@[simp] theorem onFlash_canonical (s : State) (f : Flash → Flash) : canonical (s.onFlash f) ↔ canonical s := Iff.rfl
@[simp] theorem onDict_canonical (s : State) (f : Dict → Dict) : canonical (s.onDict f) ↔ canonical s := Iff.rfl
@[simp] theorem onCache_canonical (s : State) (f : Cache → Cache) : canonical (s.onCache f) ↔ canonical s := Iff.rfl
@[simp] theorem onProt_canonical (s : State) (f : Protect → Protect) : canonical (s.onProt f) ↔ canonical s := Iff.rfl
@[simp] theorem onStack_canonical (s : State) (f : Stack → Stack) : canonical (s.onStack f) ↔ canonical s := Iff.rfl
@[simp] theorem onCracker_canonical (s : State) (f : Cracker → Cracker) : canonical (s.onCracker f) ↔ canonical s := Iff.rfl
@[simp] theorem onTrain_canonical (s : State) (f : Training → Training) : canonical (s.onTrain f) ↔ canonical s := Iff.rfl
@[simp] theorem onFabric_canonical (s : State) (f : Fabric → Fabric) : canonical (s.onFabric f) ↔ canonical s := Iff.rfl
@[simp] theorem onFront_canonical (s : State) (f : FrontEnd → FrontEnd) : canonical (s.onFront f) ↔ canonical s := Iff.rfl
@[simp] theorem onResil_canonical (s : State) (f : Resilience → Resilience) : canonical (s.onResil f) ↔ canonical s := Iff.rfl
@[simp] theorem onTile_canonical (s : State) (n : Nat) (f : Tile → Tile) : canonical (onTile s n f) ↔ canonical s := Iff.rfl
@[simp] theorem onChannel_canonical (s : State) (n : Nat) (f : Channel → Channel) : canonical (onChannel s n f) ↔ canonical s := Iff.rfl
@[simp] theorem onBinding_canonical (s : State) (n : Nat) (f : BindingWork → BindingWork) : canonical (onBinding s n f) ↔ canonical s := Iff.rfl
@[simp] theorem onWork_canonical (s : State) (n : Nat) (f : GroupWork → GroupWork) : canonical (onWork s n f) ↔ canonical s := Iff.rfl
@[simp] theorem onLedger_canonical (s : State) (n : Nat) (f : GroupLedger → GroupLedger) : canonical (onLedger s n f) ↔ canonical s := Iff.rfl
@[simp] theorem onPort_canonical (s : State) (n : Nat) (f : Port → Port) : canonical (onPort s n f) ↔ canonical s := Iff.rfl
@[simp] theorem onConn_canonical (s : State) (n : Nat) (f : Conn → Conn) : canonical (onConn s n f) ↔ canonical s := Iff.rfl
@[simp] theorem onQueue_canonical (s : State) (n : Nat) (f : Queue → Queue) : canonical (onQueue s n f) ↔ canonical s := Iff.rfl
@[simp] theorem emit_canonical (s : State) (o : Output) : canonical (emit s o) ↔ canonical s := Iff.rfl

@[simp] theorem noteChanges_canonical (s t : State) : canonical (noteChanges s t) ↔ canonical t := by
  rw [canonical, noteChanges_mem, noteChanges_banks, canonical_fold]

@[simp] theorem Got.andThen_canonical {α β : Type} {f : α → State → Got β × State} (hf : ∀ a t, canonical (f a t).2 ↔ canonical t)
    (r : Got α × State) :
    canonical (Got.andThen r f).2 ↔ canonical r.2 := by
  obtain ⟨a | c | _, t⟩ := r
  · exact hf a t
  · rfl
  · rfl

@[simp] theorem onIssued_canonical (s : State) (n k : Nat) (f : Issued → Issued) : canonical (onIssued s n k f) ↔ canonical s := by rfl

/-! ## Functions of Machine/Ops -/

@[simp] theorem logEvent_canonical (s : State) (code : Code) (arg : Nat) : canonical (logEvent s code arg) ↔ canonical s := by
  unfold logEvent
  dsimp only
  split <;> simp

@[simp] theorem raise_canonical (s : State) (code : Code) (arg : Nat) : canonical (raise s code arg) ↔ canonical s :=
  linkOnly_canonical (linkOnly_raise _ _ _)

/-! ## Functions of Machine/Wire -/

@[simp] theorem idleFlit_canonical (s : State) (port : Nat) (nak : Bool) (creditVc creditCount : Nat) :
    canonical (idleFlit s port nak creditVc creditCount) ↔ canonical s := linkOnly_canonical (linkOnly_idleFlit _ _ _ _ _)

@[simp] theorem answerFlit_canonical (s : State) (port vc : Nat) : canonical (answerFlit s port vc) ↔ canonical s := by rfl

@[simp] theorem returnCredits_canonical (s : State) (port vc : Nat) :
    canonical (returnCredits s port vc) ↔ canonical s := linkOnly_canonical (linkOnly_returnCredits _ _ _)

@[simp] theorem removeDelivered_canonical (s : State) (p : Packet) :
    canonical (removeDelivered s p) ↔ canonical s := linkOnly_canonical (linkOnly_removeDelivered _ _)

@[simp] theorem pumpPort_canonical (s : State) (port : Nat) : canonical (pumpPort s port) ↔ canonical s := linkOnly_canonical (linkOnly_pumpPort _ _)

@[simp] theorem queueFlits_canonical (s : State) (port : Nat) (l : List OutFlit) :
    canonical (queueFlits s port l) ↔ canonical s := linkOnly_canonical (linkOnly_queueFlits _ _ _)

@[simp] theorem countDetour_canonical (s : State) (detour : Bool) : canonical (countDetour s detour) ↔ canonical s :=
  linkOnly_canonical (linkOnly_countDetour _ _)

@[simp] theorem forwardFrom_canonical (s : State) (p : Packet) (arrival : Option (Nat × Bool)) (room : Option InputRoom) :
    canonical (forwardFrom s p arrival room) ↔ canonical s := linkOnly_canonical (linkOnly_forwardFrom _ _ _ _)

@[simp] theorem forward_canonical (s : State) (p : Packet) (arrival : Option (Nat × Bool)) :
    canonical (forward s p arrival) ↔ canonical s := linkOnly_canonical (linkOnly_forward _ _ _)

@[simp] theorem releaseReroute_canonical (s : State) : canonical (releaseReroute s) ↔ canonical s := by
  unfold releaseReroute
  dsimp only
  rw [foldl_canonical (fun t r => returnCredits_canonical t _ _), onFabric_canonical, foldl_canonical, onFabric_canonical]
  intro t h
  split
  · rfl
  · exact forward_canonical _ _ _

@[simp] theorem setTx_canonical (s : State) (t : TxStream) : canonical (setTx s t) ↔ canonical s := by rfl

@[simp] theorem setRx_canonical (s : State) (t : RxStream) : canonical (setRx s t) ↔ canonical s := by rfl

@[simp] theorem sendStream_canonical (s : State) (p : Packet) : canonical (sendStream s p) ↔ canonical s :=
  linkOnly_canonical (linkOnly_sendStream _ _)

@[simp] theorem sendPacket_canonical (s : State) (p : Packet) : canonical (sendPacket s p) ↔ canonical s :=
  linkOnly_canonical (linkOnly_sendPacket _ _)

@[simp] theorem drainSend_canonical (n : Nat) (s : State) : canonical (drainSend n s) ↔ canonical s := by
  induction n generalizing s with
  | zero => rfl
  | succ n ih =>
    unfold drainSend
    split <;> simp [ih]

@[simp] theorem enterHolding_canonical (s : State) : canonical (enterHolding s) ↔ canonical s := by simp [enterHolding]

@[simp] theorem stopModule_canonical (s : State) : canonical (stopModule s) ↔ canonical s := by rfl

@[simp] theorem sendHoldNotices_canonical (s : State) : canonical (sendHoldNotices s) ↔ canonical s := linkOnly_canonical (linkOnly_sendHoldNotices _)

@[simp] theorem leavePair_canonical (s : State) : canonical (leavePair s) ↔ canonical s := by simp [leavePair]

@[simp] theorem withholdCut_canonical (s : State) : canonical (withholdCut s) ↔ canonical s := by simp [withholdCut]

/-! ## Functions of Machine/HomeSlice -/

@[simp] theorem hbmAccess_canonical (s : State) (line bytes : Nat) (write : Bool) : canonical (hbmAccess s line bytes write) ↔ canonical s := by rfl

@[simp] theorem hbmServed_canonical (s : State) (line : Nat) (write : Bool) : canonical (hbmServed s line write) ↔ canonical s := by rfl

@[simp] theorem setLines_canonical (s : State) (g : Nat) (l : List Line) : canonical (setLines s g l) ↔ canonical s :=
  sliceOnly_canonical (sliceOnly_setLines _ _ _)

@[simp] theorem evictLine_canonical (s : State) (x : Line) : canonical (evictLine s x) ↔ canonical s := sliceOnly_canonical (sliceOnly_evictLine _ _)

theorem allocateLine_canonical (s : State) (x : Line) {t : State} (h : allocateLine s x = some t) : canonical t ↔ canonical s :=
  sliceOnly_canonical (sliceOnly_allocateLine h)

@[simp] theorem touchLine_canonical (s : State) (x : Line) : canonical (touchLine s x) ↔ canonical s := sliceOnly_canonical (sliceOnly_touchLine _ _)

@[simp] theorem accessHint_canonical (s : State) (x : Line) (cls : Nat) : canonical (accessHint s x cls).2 ↔ canonical s := by
  grind [accessHint, evictLine_canonical, setLines_canonical]

@[simp] theorem writeBackNow_canonical (s : State) (x : Line) : canonical (writeBackNow s x) ↔ canonical s := by simp [writeBackNow]

@[simp] theorem limitHints_canonical (s : State) (g : Nat) : canonical (limitHints s g) ↔ canonical s := by rfl

@[simp] theorem displaceLines_canonical (n : Nat) (s : State) (g : Nat) : canonical (displaceLines n s g) ↔ canonical s := by
  induction n generalizing s with
  | zero => rfl
  | succ n ih =>
    unfold displaceLines
    dsimp only
    split
    · rfl
    · split <;> simp [ih]

@[simp] theorem requestFill_canonical (s : State) (who : Initiator) (line : Nat) (want : BitVec 8) (hint : Nat) :
    canonical (requestFill s who line want hint) ↔ canonical s := sliceOnly_canonical (sliceOnly_requestFill _ _ _ _ _)

@[simp] theorem serveLine_canonical (s : State) (x : SliceAccess) : canonical (serveLine s x).2 ↔ canonical s := by
  grind [serveLine, accessHint_canonical, allocateLine_canonical, onCache_canonical, requestFill_canonical, touchLine_canonical]

@[simp] theorem accessLine_canonical (s : State) (x : SliceAccess) : canonical (accessLine s x) ↔ canonical s :=
  sliceOnly_canonical (sliceOnly_accessLine _ _)

@[simp] theorem accessSector_canonical (s : State) (channel sector : Nat) (write : Bool) :
    canonical (accessSector s channel sector write) ↔ canonical s := by
  simp [accessSector]

@[simp] theorem accessSectors_canonical (s : State) (channel a len : Nat) (write : Bool) :
    canonical (accessSectors s channel a len write) ↔ canonical s := by
  simp [accessSectors]

@[simp] theorem accessSlices_canonical (s : State) (who : Initiator) (a len : Nat) (write : Bool) :
    canonical (accessSlices s who a len write) ↔ canonical s := sliceOnly_canonical (sliceOnly_accessSlices _ _ _ _ _)

@[simp] theorem noteWritten_canonical (s : State) (l : List Run) : canonical (noteWritten s l) ↔ canonical s := by rfl

@[simp] theorem noteFetched_canonical (s : State) (n : Nat) (l : List Nat) : canonical (noteFetched s n l) ↔ canonical s := by rfl

@[simp] theorem runAheadFill_canonical (s : State) (who : Initiator) (line : Nat) (want : BitVec 8) :
    canonical (runAheadFill s who line want) ↔ canonical s := by
  grind [runAheadFill, allocateLine_canonical, onCache_canonical, requestFill_canonical]

theorem requestNext_canonical (s : State) (n : Nat) (d : Issued) {t : State} (h : requestNext s n d = some t) : canonical t ↔ canonical s := by
  have hserve := serveLine_canonical s
  unfold requestNext at h
  grind [onIssued_canonical]

@[simp] theorem pumpTile_canonical (k : Nat) (s : State) (n : Nat) : canonical (pumpTile k s n) ↔ canonical s := by
  induction k generalizing s with
  | zero => rfl
  | succ k ih =>
    unfold pumpTile
    split
    · rename_i t h
      obtain ⟨d, -, hd⟩ := List.exists_of_findSome?_eq_some h
      exact (ih t).trans (requestNext_canonical _ _ _ hd)
    · rfl

@[simp] theorem pumpTiles_canonical (s : State) : canonical (pumpTiles s) ↔ canonical s := by simp [pumpTiles]

@[simp] theorem lineReturned_canonical (s : State) (line : Nat) : canonical (lineReturned s line) ↔ canonical s := by rfl

@[simp] theorem admitWaiting_canonical (s : State) : canonical (admitWaiting s) ↔ canonical s := by simp [admitWaiting]

@[simp] theorem clearMemCounters_canonical (s : State) : canonical (clearMemCounters s) ↔ canonical s := by rfl

/-! ## Functions of Machine/Tile -/

@[simp] theorem detectTrap_canonical (s : State) (n : Nat) (i : TrapInfo) : canonical (detectTrap s n i) ↔ canonical s := by rfl

@[simp] theorem trapHere_canonical (s : State) (n : Nat) (c : Code) : canonical (trapHere s n c) ↔ canonical s := by rfl

@[simp] theorem signalCounter_canonical (s : State) (target : Option (Nat × Nat)) : canonical (signalCounter s target) ↔ canonical s := by
  unfold signalCounter
  split <;> simp

@[simp] theorem holdFor_canonical (s : State) (n cause : Nat) : canonical (holdFor s n cause) ↔ canonical s := by rfl

@[simp] theorem fetchSlices_canonical (s : State) (n pc : Nat) (named : List Nat) : canonical (fetchSlices s n pc named) ↔ canonical s := by
  simp [fetchSlices]

@[simp] theorem endTileProgram_canonical (s : State) (n : Nat) : canonical (endTileProgram s n) ↔ canonical s := by
  unfold endTileProgram
  split <;> simp

@[simp] theorem restartRow_canonical (s : State) (n : Nat) : canonical (restartRow s n) ↔ canonical s := by simp [restartRow]

@[simp] theorem clearTileCounters_canonical (s : State) : canonical (clearTileCounters s) ↔ canonical s := by rfl

/-! ## Functions of Machine/Collectives -/

@[simp] theorem recordFault_canonical (s : State) (code : Code) (arg : Nat) : canonical (recordFault s code arg) ↔ canonical s := by
  simp [recordFault]

@[simp] theorem setColl_canonical (s : State) (c : Coll) : canonical (setColl s c) ↔ canonical s := by rfl

@[simp] theorem onColl_canonical (s : State) (k : CollKey) (step : Nat) (f : Coll → Coll) : canonical (onColl s k step f) ↔ canonical s := by rfl

@[simp] theorem noteMarks_canonical (s : State) (k : CollKey) (step e : Nat) (l : List (Nat × Bool)) :
    canonical (noteMarks s k step e l) ↔ canonical s := by
  simp [noteMarks]

@[simp] theorem sendStep_canonical (s : State) (p : Packet) : canonical (sendStep s p) ↔ canonical s := by simp [sendStep]

@[simp] theorem sendData_canonical (s : State) (c : Coll) (slot e : Nat) (reverse deferred : Bool) (l : List (Nat × Bool)) :
    canonical (sendData s c slot e reverse deferred l) ↔ canonical s := by
  simp [sendData]

@[simp] theorem moveData_canonical (s : State) (c : Coll) (slot e : Nat) (back : Bool) (l : List (Nat × Bool)) :
    canonical (moveData s c slot e back l) ↔ canonical s := by
  simp [moveData]

@[simp] theorem sendReady_canonical (s : State) (k : CollKey) (step : Nat) (summary : Option Summary) :
    canonical (sendReady s k step summary) ↔ canonical s := by
  simp [sendReady]

@[simp] theorem maybeGo_canonical (s : State) (k : CollKey) (step : Nat) : canonical (maybeGo s k step) ↔ canonical s := by simp [maybeGo]

@[simp] theorem readyAtRoot_canonical (s : State) (p : Packet) : canonical (readyAtRoot s p) ↔ canonical s := by simp [readyAtRoot]

@[simp] theorem sendAck_canonical (s : State) (k : StreamKey) : canonical (sendAck s k) ↔ canonical s :=
  (sendPacket_canonical _ _).trans (setRx_canonical s _)

theorem takePacket_canonical (s : State) (ptype : Nat) (p : Packet) {t : State} (h : takePacket s ptype p = some t) : canonical t ↔ canonical s := by
  grind [takePacket, removeDelivered_canonical, sendAck_canonical, setRx_canonical]

@[simp] theorem dropPacket_canonical (s : State) (p : Packet) : canonical (dropPacket s p) ↔ canonical s := by simp [dropPacket]

@[simp] theorem countTie_canonical (s : State) (p : Packet) : canonical (countTie s p) ↔ canonical s := by simp [countTie]

@[simp] theorem resendStream_canonical (s : State) (x : TxStream) : canonical (resendStream s x) ↔ canonical s := by simp [resendStream]

/-! ## Functions of Machine/Egress -/

@[simp] theorem sendOn_canonical (s : State) (c : Nat) (o : Output) : canonical (sendOn s c o) ↔ canonical s := by simp [sendOn]

@[simp] theorem egressWrites_canonical (conn rkey n : Nat) (s : State) (va : Nat) (l : List Byte) :
    canonical (egressWrites conn rkey n s va l) ↔ canonical s := by
  induction n generalizing s va l with
  | zero => rfl
  | succ n ih => simp [egressWrites, ih]

@[simp] theorem egressSend_canonical (s : State) (x : Export) (off : Nat) (l : List Byte) : canonical (egressSend s x off l) ↔ canonical s := by
  simp [egressSend]

@[simp] theorem replaceExport_canonical (s : State) (x y : Export) : canonical (replaceExport s x y) ↔ canonical s := by rfl

@[simp] theorem beginExport_canonical (s : State) (x : Export) : canonical (beginExport s x) ↔ canonical s := by simp [beginExport]

@[simp] theorem startNext_canonical (s : State) (conn : Nat) : canonical (startNext s conn) ↔ canonical s := by
  grind [startNext, beginExport_canonical, onFront_canonical]

@[simp] theorem restartExports_canonical (s : State) (conn : Nat) : canonical (restartExports s conn) ↔ canonical s := by simp [restartExports]

@[simp] theorem addExport_canonical (s : State) (x : Export) : canonical (addExport s x) ↔ canonical s := by simp [addExport]

@[simp] theorem dropOutputs_canonical (s : State) (conn : Nat) : canonical (dropOutputs s conn) ↔ canonical s := by rfl

@[simp] theorem stopExports_canonical (s : State) (conn : Nat) (error : Bool) : canonical (stopExports s conn error) ↔ canonical s := by
  unfold stopExports
  split <;> simp

@[simp] theorem connError_canonical (s : State) (conn : Nat) : canonical (connError s conn) ↔ canonical s := by simp [connError]

@[simp] theorem exportDue_canonical (s : State) : canonical (exportDue s) ↔ canonical s := by
  grind [exportDue, addExport_canonical, onResil_canonical]

@[simp] theorem acornExported_canonical (s : State) (x : Export) : canonical (acornExported s x) ↔ canonical s := by simp [acornExported]

/-! ## Functions of Machine/Saving -/

@[simp] theorem touchRow_canonical (s : State) (group row : Nat) : canonical (touchRow s group row) ↔ canonical s := by rfl

@[simp] theorem sendRecord_canonical (s : State) (dst : BitVec 24) (r : Saved) : canonical (sendRecord s dst r) ↔ canonical s := by simp [sendRecord]

@[simp] theorem saveToBuddy_canonical (s : State) (r : Saved) : canonical (saveToBuddy s r) ↔ canonical s := by simp [saveToBuddy]

@[simp] theorem saveRecord_canonical (s : State) (r : Saved) : canonical (saveRecord s r) ↔ canonical s := by simp [saveRecord]

/-! ## Functions of Machine/Queues -/

@[simp] theorem openColl_canonical (s : State) (k : CollKey) (c : CollCmd) (entry : Option (Nat × Nat)) :
    canonical (openColl s k c entry) ↔ canonical s := by
  rfl

@[simp] theorem onEntry_canonical (s : State) (q seq : Nat) (f : Entry → Entry) : canonical (onEntry s q seq f) ↔ canonical s := by rfl

theorem enableQueue_canonical (s : State) (q : Nat) {t : State} (h : enableQueue s q = .ok t) : canonical t ↔ canonical s := by
  grind [enableQueue, onQueue_canonical]

@[simp] theorem dispatchTiles_canonical (s : State) (q : Nat) (e : Entry) (v : Nat) : canonical (dispatchTiles s q e v) ↔ canonical s := by
  unfold dispatchTiles
  dsimp only
  rw [foldl_canonical (fun t n => onTile_canonical t n _), onEntry_canonical]

@[simp] theorem releaseTrapped_canonical (s : State) (e : Entry) : canonical (releaseTrapped s e) ↔ canonical s := by
  unfold releaseTrapped
  exact foldl_canonical (fun t n => onTile_canonical t n _) s _

/-! ## Functions of Machine/Cracker -/

@[simp] theorem finishCommand_canonical (s : State) (c : Nat) : canonical (finishCommand s c) ↔ canonical s := by simp [finishCommand]

@[simp] theorem hazelRequests_canonical (s : State) (c : Nat) (write : Bool) (sectors : List Nat) :
    canonical (hazelRequests s c write sectors) ↔ canonical s := by
  rfl

@[simp] theorem aheadSector_canonical (c : Nat) (s : State) (sector : Nat) : canonical (aheadSector c s sector) ↔ canonical s := by simp [aheadSector]

@[simp] theorem rowsAhead_canonical (c : Nat) (cmd : CrackerCommand) (r : TableRegion) (idx : List Nat) (s : State) :
    canonical (rowsAhead c cmd r idx s) ↔ canonical s := by
  simp [rowsAhead]

@[simp] theorem commandRan_canonical (s : State) (c : Nat) (cmd : CrackerCommand) (requests : List (List Nat)) (remote : List RemoteRows) :
    canonical (commandRan s c cmd requests remote) ↔ canonical s := by
  simp [commandRan]

@[simp] theorem askOwner_canonical (s : State) (c regionNo : Nat) (r : TableRegion) (shard : Nat) (rows : List (Nat × Nat)) :
    canonical (askOwner s c regionNo r shard rows).2 ↔ canonical s := by
  unfold askOwner
  split <;> simp [onCracker_canonical]

@[simp] theorem flatAhead_canonical (c : Nat) (cmd : CrackerCommand) (idx : List Nat) (s : State) :
    canonical (flatAhead c cmd idx s) ↔ canonical s := by
  simp [flatAhead]

@[simp] theorem sendInbound_canonical (s : State) (c : Coll) (slot row : Nat) (deferred : Bool) (step : Nat) (values : List Nat) (poison : Bool) :
    canonical (sendInbound s c slot row deferred step values poison) ↔ canonical s := by
  simp [sendInbound]

@[simp] theorem countInbound_canonical (s : State) (bn : Nat) (p : Packet) : canonical (countInbound s bn p) ↔ canonical s := by rfl

@[simp] theorem feedRow_canonical (s : State) (bn row : Nat) : canonical (feedRow s bn row) ↔ canonical s := by rfl

@[simp] theorem clearCrackerCounters_canonical (s : State) : canonical (clearCrackerCounters s) ↔ canonical s := by rfl

/-! ## Functions of Machine/Startup -/

@[simp] theorem unserviceable_canonical (s : State) (arg : Nat) : canonical (unserviceable s arg) ↔ canonical s := by simp [unserviceable]

@[simp] theorem setBist_canonical (s : State) (row n : Nat) : canonical (setBist s row n) ↔ canonical s := by rfl

@[simp] theorem mapTiles_canonical (s : State) : canonical (mapTiles s) ↔ canonical s := by rfl

/-! ## Functions of Machine/StagedCheck -/

@[simp] theorem noteRefusal_canonical (s : State) (f : Failure) (more : Nat) : canonical (noteRefusal s f more) ↔ canonical s := by simp [noteRefusal]

/-! ## Functions of Machine/Vector -/

@[simp] theorem countVector_canonical (n : Nat) (v : Vec) (s : State) : canonical (countVector n v s) ↔ canonical s := by rfl

/-! ## Functions of Machine/Training -/

@[simp] theorem unhint_canonical (s : State) (g : Nat) : canonical (unhint s g) ↔ canonical s := by rfl

@[simp] theorem dropEpochs_canonical (s : State) (joined : List Nat) : canonical (dropEpochs s joined) ↔ canonical s := by simp [dropEpochs]

@[simp] theorem fixStagedSet_canonical (s : State) : canonical (fixStagedSet s).1 ↔ canonical s := by
  unfold fixStagedSet
  dsimp only
  split <;> simp

@[simp] theorem discardStagedSet_canonical (s : State) : canonical (discardStagedSet s) ↔ canonical s := by simp [discardStagedSet]

@[simp] theorem compareDigests_canonical (s : State) (r : Summary) (included : Bool) : canonical (compareDigests s r included) ↔ canonical s := by
  simp [compareDigests]

@[simp] theorem compareTwins_canonical (s : State) : canonical (compareTwins s) ↔ canonical s := by simp [compareTwins]

@[simp] theorem abortTile_canonical (s : State) (n : Nat) (code : Code) : canonical (abortTile s n code) ↔ canonical s := by simp [abortTile]

@[simp] theorem clearSilent_canonical (s : State) (g : Nat) : canonical (clearSilent s g) ↔ canonical s := by rfl

/-! ## Functions of Machine/Boundary -/

@[simp] theorem updateSilent_canonical (s : State) : canonical (updateSilent s) ↔ canonical s := by simp [updateSilent]

@[simp] theorem limitAllHints_canonical (s : State) (old : Tab Byte) : canonical (limitAllHints s old) ↔ canonical s := by simp [limitAllHints]

@[simp] theorem applyEpochs_canonical (s : State) (l : List EpochRecord) : canonical (applyEpochs s l) ↔ canonical s := by
  unfold applyEpochs
  split <;> simp

@[simp] theorem dropRemoved_canonical (s : State) (old : List CommGroup) (carrier : Nat) : canonical (dropRemoved s old carrier) ↔ canonical s := by
  rfl

@[simp] theorem emptySlice_canonical (s : State) (i : Nat) : canonical (emptySlice s i) ↔ canonical s := by simp [emptySlice]

@[simp] theorem countLate_canonical (s : State) : canonical (countLate s) ↔ canonical s := by simp [countLate]

@[simp] theorem saveImage_canonical (s : State) : canonical (saveImage s) ↔ canonical s := by simp [saveImage]

@[simp] theorem clearStep_canonical (s : State) : canonical (clearStep s) ↔ canonical s := by
  simp [clearStep]

@[simp] theorem carryDeferred_canonical (s : State) (step : Nat) : canonical (carryDeferred s step) ↔ canonical s := by rfl

@[simp] theorem takeTwinNow_canonical (s : State) (kind step : Nat) (body : List Byte) : canonical (takeTwinNow s kind step body) ↔ canonical s := by
  simp [takeTwinNow]

@[simp] theorem takeEarlyTwin_canonical (s : State) : canonical (takeEarlyTwin s) ↔ canonical s := by simp [takeEarlyTwin]

/-! ## Functions of Machine/Epochs -/

theorem acceptEpoch_canonical (s : State) (l : List Byte) (applyAt : Nat) {t : State} (h : acceptEpoch s l applyAt = .ok t) :
    canonical t ↔ canonical s := by
  grind [acceptEpoch, onFabric_canonical]

/-! ## Functions of Machine/FrontEnd -/

@[simp] theorem portError_canonical (s : State) (port : Nat) : canonical (portError s port) ↔ canonical s := by simp [portError]

@[simp] theorem resumePort_canonical (s : State) (port : Nat) : canonical (resumePort s port) ↔ canonical s := by
  unfold resumePort
  dsimp only
  rw [foldl_canonical emit_canonical, onFront_canonical]

@[simp] theorem retrainPort_canonical (s : State) (port : Nat) : canonical (retrainPort s port) ↔ canonical s := by simp [retrainPort]

@[simp] theorem resetFePort_canonical (s : State) (port : Nat) : canonical (resetFePort s port) ↔ canonical s := by simp [resetFePort]

@[simp] theorem sendNak_canonical (s : State) (conn : Nat) (operational : Bool) (code : Code) :
    canonical (sendNak s conn operational code) ↔ canonical s := by
  simp [sendNak]

@[simp] theorem writeDoorbell_canonical (s : State) (conn addr : Nat) (l : List Byte) : canonical (writeDoorbell s conn addr l) ↔ canonical s := by
  simp only [writeDoorbell]
  split
  · rw [onConn_canonical]
  · split
    · rfl
    · rw [onFront_canonical]

@[simp] theorem noteCe_canonical (s : State) (conn : Nat) (ce : Bool) : canonical (noteCe s conn ce) ↔ canonical s := by simp [noteCe]

@[simp] theorem mergeRefused_canonical (s : State) (conn addr : Nat) : canonical (mergeRefused s conn addr) ↔ canonical s := by simp [mergeRefused]

theorem enableConn_canonical (s : State) (conn : Nat) {t : State} (h : enableConn s conn = .ok t) : canonical t ↔ canonical s := by
  grind [enableConn, onConn_canonical, restartExports_canonical]

@[simp] theorem resetConn_canonical (s : State) (conn : Nat) : canonical (resetConn s conn) ↔ canonical s := by simp [resetConn]

theorem connControl_canonical (s : State) (v : Nat) {t : State} (h : connControl s v = .ok t) : canonical t ↔ canonical s := by
  grind [connControl, enableConn_canonical, resetConn_canonical]

@[simp] theorem clearFeCounters_canonical (s : State) : canonical (clearFeCounters s) ↔ canonical s := by rfl

@[simp] theorem tellTile_canonical (s : State) (n : Nat) (code : Code) : canonical (tellTile s n code) ↔ canonical s := by
  unfold tellTile
  split <;> simp

/-! ## Functions of Machine/Recovery -/

@[simp] theorem endWork_canonical (s : State) : canonical (endWork s) ↔ canonical s := by rfl

@[simp] theorem returnEntries_canonical (s : State) : canonical (returnEntries s) ↔ canonical s := by rfl

@[simp] theorem clearFrontEnd_canonical (s : State) : canonical (clearFrontEnd s) ↔ canonical s := by rfl

@[simp] theorem loseDeferred_canonical (s old : State) (r : RecoveryRecord) : canonical (loseDeferred s old r) ↔ canonical s := by rfl

@[simp] theorem resendRecords_canonical (s : State) : canonical (resendRecords s) ↔ canonical s := by simp [resendRecords]

@[simp] theorem reportCommitted_canonical (s : State) : canonical (reportCommitted s) ↔ canonical s := by
  unfold reportCommitted
  split <;> simp

/-! ## Functions of Machine/Filling -/

@[simp] theorem fillEnded_canonical (s : State) : canonical (fillEnded s) ↔ canonical s := by simp [fillEnded]

@[simp] theorem runAgain_canonical (s : State) : canonical (runAgain s) ↔ canonical s := by rfl

@[simp] theorem checkSources_canonical (s : State) : canonical (checkSources s) ↔ canonical s := by
  unfold checkSources
  split <;> simp

@[simp] theorem sourceFailed_canonical (s : State) (what arg : Nat) (source : BitVec 24) (sources : List (BitVec 24)) :
    canonical (sourceFailed s what arg source sources) ↔ canonical s := by
  simp [sourceFailed]

@[simp] theorem shardMismatch_canonical (s : State) (group : Nat) (source : BitVec 24) : canonical (shardMismatch s group source) ↔ canonical s := by
  simp [shardMismatch]

@[simp] theorem acceptShard_canonical (s : State) (group : Nat) (source : BitVec 24) (step : Nat) :
    canonical (acceptShard s group source step) ↔ canonical s := by
  simp [acceptShard]

@[simp] theorem askClients_canonical (s : State) : canonical (askClients s) ↔ canonical s := by simp [askClients]

theorem resumeModule_canonical (s : State) (v : Nat) {t : State} (h : resumeModule s v = .ok t) : canonical t ↔ canonical s := by
  grind [resumeModule, askClients_canonical, runAgain_canonical]

/-! ## Functions of Machine/Mirror -/

@[simp] theorem restoreImage_canonical (s : State) (l : List Byte) : canonical (restoreImage s l) ↔ canonical s := by rfl

@[simp] theorem ackRecord_canonical (s : State) (node : BitVec 24) (header : List Byte) : canonical (ackRecord s node header) ↔ canonical s := by
  simp [ackRecord]

@[simp] theorem takeTwin_canonical (s : State) (kind step : Nat) (body : List Byte) : canonical (takeTwin s kind step body) ↔ canonical s := by
  simp [takeTwin]

@[simp] theorem takeTwinImage_canonical (s : State) (payload : List Byte) : canonical (takeTwinImage s payload) ↔ canonical s := by rfl

@[simp] theorem releaseLine_canonical (s : State) (line : Nat) : canonical (releaseLine s line) ↔ canonical s := by rfl

/-! ## Functions of Machine/Ports -/

@[simp] theorem linkFault_canonical (s : State) (port : Nat) (code : Code) : canonical (linkFault s port code) ↔ canonical s := by simp [linkFault]

@[simp] theorem sendNotice_canonical (s : State) (ends : BitVec 24 × BitVec 24) : canonical (sendNotice s ends) ↔ canonical s := by simp [sendNotice]

@[simp] theorem loseTwinHop_canonical (s : State) (port : Nat) : canonical (loseTwinHop s port) ↔ canonical s := by simp [loseTwinHop]

@[simp] theorem takeAnotherWay_canonical (l : List OutFlit) (s : State) (n : Nat) : canonical (takeAnotherWay l s n) ↔ canonical s := by
  unfold takeAnotherWay
  dsimp only
  split <;> simp

@[simp] theorem dropRest_canonical (s : State) (n : Nat) : canonical (dropRest s n) ↔ canonical s := by rfl

@[simp] theorem abortPassing_canonical (s : State) (x : Passing) : canonical (abortPassing s x) ↔ canonical s := by simp [abortPassing]

@[simp] theorem loseOlder_canonical (s : State) (node : BitVec 24) : canonical (loseOlder s node) ↔ canonical s := by simp [loseOlder]

@[simp] theorem failHop_canonical (s : State) (port next : Nat) : canonical (failHop s port next) ↔ canonical s := by simp [failHop]

@[simp] theorem leaveUp_canonical (s : State) (port next : Nat) : canonical (leaveUp s port next) ↔ canonical s := by simp [leaveUp]

@[simp] theorem applyPortMode_canonical (s : State) (port : Nat) : canonical (applyPortMode s port) ↔ canonical s := by simp [applyPortMode]

@[simp] theorem raisePort_canonical (s : State) (port state : Nat) : canonical (raisePort s port state) ↔ canonical s := by simp [raisePort]

@[simp] theorem finishTraining_canonical (s : State) (port : Nat) (good : NatSet) (version : Nat) :
    canonical (finishTraining s port good version) ↔ canonical s := by
  simp [finishTraining]

@[simp] theorem takeHeader_canonical (s : State) (port : Nat) (h : LinkHeader) : canonical (takeHeader s port h) ↔ canonical s := by
  unfold takeHeader
  dsimp only
  split
  · rw [foldl_canonical (fun t f => emit_canonical t _), onFabric_canonical, onPort_canonical]
  · rfl

@[simp] theorem arrivePacket_canonical (s : State) (port vc : Nat) (bytes : List (Byte × Bool)) :
    canonical (arrivePacket s port vc bytes) ↔ canonical s := by
  simp [arrivePacket]

@[simp] theorem startPassing_canonical (s : State) (port : Nat) (h : LinkHeader) (l : List (Byte × Bool)) (p : Packet) (out outVc : Nat)
    (detour : Bool) :
    canonical (startPassing s port h l p out outVc detour) ↔ canonical s := by
  simp [startPassing]

@[simp] theorem takePayload_canonical (s : State) (port : Nat) (h : LinkHeader) (l : List Byte) :
    canonical (takePayload s port h l) ↔ canonical s := by
  grind [takePayload, arrivePacket_canonical, onPort_canonical, queueFlits_canonical, returnCredits_canonical, startPassing_canonical]

@[simp] theorem refuseFlit_canonical (s : State) (port : Nat) : canonical (refuseFlit s port) ↔ canonical s := by simp [refuseFlit]

@[simp] theorem countFec_canonical (s : State) (port : Nat) (fec : List Nat) : canonical (countFec s port fec) ↔ canonical s := by rfl

@[simp] theorem clearFabricCounters_canonical (s : State) : canonical (clearFabricCounters s) ↔ canonical s := by rfl

/-! ## Functions of Machine/PowerCtl -/

@[simp] theorem applyRamp_canonical (s : State) : canonical (applyRamp s) ↔ canonical s := by simp [applyRamp]

@[simp] theorem tryRamp_canonical (s : State) : canonical (tryRamp s) ↔ canonical s := by simp [tryRamp]

@[simp] theorem endDroop_canonical (s : State) (rail mv : Nat) : canonical (endDroop s rail mv) ↔ canonical s := by rfl

@[simp] theorem controlSample_canonical (s : State) : canonical (controlSample s) ↔ canonical s := by simp [controlSample]

@[simp] theorem readSensors_canonical (s : State) (x : PowerReading) : canonical (readSensors s x) ↔ canonical s := by simp [readSensors]

@[simp] theorem degradeInterface_canonical (s : State) (f : Nat) : canonical (degradeInterface s f) ↔ canonical s := by simp [degradeInterface]

@[simp] theorem cutInterface_canonical (s : State) (f : Nat) : canonical (cutInterface s f) ↔ canonical s := by simp [cutInterface]

@[simp] theorem failTsv_canonical (s : State) (f : Nat) (control : Bool) (tests : List Bool) :
    canonical (failTsv s f control tests) ↔ canonical s := by
  simp [failTsv]

@[simp] theorem countNamings_canonical (s : State) (f : Nat) (failed : List TransferAttempt) (tests : List Bool) :
    canonical (countNamings s f failed tests) ↔ canonical s := by
  simp [countNamings]

@[simp] theorem failedTransfer_canonical (s : State) (f used : Nat) (last : TransferAttempt) :
    canonical (failedTransfer s f used last) ↔ canonical s := by
  simp [failedTransfer]

@[simp] theorem decideTile_canonical (s : State) (p : Nat) : canonical (decideTile s p) ↔ canonical s := by simp [decideTile]

@[simp] theorem clearPace_canonical (s : State) : canonical (clearPace s) ↔ canonical s := by rfl

@[simp] theorem clearEnergy_canonical (s : State) : canonical (clearEnergy s) ↔ canonical s := by rfl

@[simp] theorem clearThrottle_canonical (s : State) : canonical (clearThrottle s) ↔ canonical s := by rfl

@[simp] theorem clearTemps_canonical (s : State) : canonical (clearTemps s) ↔ canonical s := by rfl

/-! ## Functions of Machine/Security -/

theorem openHello_canonical (s : State) (l : List Byte) {t : State} {b} {c} (h : openHello s l = .ok (t, b, c)) : canonical t ↔ canonical s := by
  grind [openHello, onDict_canonical]

@[simp] theorem onSession_canonical (s : State) (number : BitVec 64) (f : Session → Session) : canonical (onSession s number f) ↔ canonical s := by
  rfl

@[simp] theorem dropSession_canonical (s : State) (number : BitVec 64) : canonical (dropSession s number) ↔ canonical s := by rfl

@[simp] theorem failProve_canonical (s : State) (x : Session) : canonical (failProve s x) ↔ canonical s := by simp [failProve]

@[simp] theorem proveSession_canonical (s : State) (x : Session) (l : List Byte) : canonical (proveSession s x l).1 ↔ canonical s := by
  grind [proveSession, failProve_canonical, onSession_canonical]

/-! ## Functions of Machine/Server -/

@[simp] theorem clearProtCounters_canonical (s : State) : canonical (clearProtCounters s) ↔ canonical s := by rfl

@[simp] theorem ackEvents_canonical (s : State) (v : Nat) : canonical (ackEvents s v) ↔ canonical s := by simp [ackEvents]

@[simp] theorem takeSnapshot_canonical (s : State) : canonical (takeSnapshot s) ↔ canonical s := by rfl

theorem portResetWrite_canonical (s : State) (v : Nat) {t : State} (h : portResetWrite s v = .ok t) : canonical t ↔ canonical s := by
  grind [portResetWrite, resetFePort_canonical]

@[simp] theorem refusedWith_canonical (s : State) (op : Nat) (r : Request) (c : Code) : canonical (refusedWith s op r c).state ↔ canonical s := by rfl

@[simp] theorem removeBatch_canonical (s : State) (session : BitVec 64) (number : Nat) : canonical (removeBatch s session number) ↔ canonical s := by
  rfl

@[simp] theorem holdPart_canonical (s : State) (session : BitVec 64) (number applyAt : Nat) (p : Part) :
    canonical (holdPart s session number applyAt p) ↔ canonical s := by
  unfold holdPart
  split <;> simp

@[simp] theorem batchPart_canonical (s : State) (x : Session) (op : Nat) (r : Request) (revert : Bool) :
    canonical (batchPart s x op r revert).state ↔ canonical s := by
  grind [batchPart, holdPart_canonical, refusedWith_canonical]

@[simp] theorem abandonBatch_canonical (s : State) (x : Session) (r : Request) : canonical (abandonBatch s x r).state ↔ canonical s := by
  unfold abandonBatch
  split <;> simp

@[simp] theorem readRequest_canonical (s : State) (r : Request) : canonical (readRequest s r).state ↔ canonical s := by
  grind [readRequest, refusedWith_canonical]

@[simp] theorem describeRequest_canonical (s : State) (r : Request) : canonical (describeRequest s r).state ↔ canonical s := by
  unfold describeRequest
  split <;> simp

@[simp] theorem enumerateRequest_canonical (s : State) (r : Request) : canonical (enumerateRequest s r).state ↔ canonical s := by
  unfold enumerateRequest
  split <;> simp

@[simp] theorem sessionRequest_canonical (s : State) (r : Request) : canonical (sessionRequest s r).state ↔ canonical s := by
  grind [sessionRequest, dropSession_canonical, openHello_canonical, proveSession_canonical, refusedWith_canonical]

@[simp] theorem relayRequest_canonical (s : State) (op : Nat) (r : Request) : canonical (relayRequest s op r) ↔ canonical s := by simp [relayRequest]

/-! ## Functions of Machine/Defaults -/

@[simp] theorem refuseImage_canonical (s : State) (f : Refused) : canonical (refuseImage s f) ↔ canonical s := by simp [refuseImage]

@[simp] theorem takeDefaults_canonical (s : State) (t : Tab Byte) (sources : Tab Nat) (running : Nat) :
    canonical (takeDefaults s t sources running) ↔ canonical s := by
  rfl

@[simp] theorem becomeReady_canonical (s : State) : canonical (becomeReady s) ↔ canonical s := by
  simp [becomeReady, onResil_canonical, onBoot_canonical]

/-! ## Functions of Machine/Matrix -/

@[simp] theorem countMatmul_canonical (n : Nat) (m : Mat) (s : State) : canonical (countMatmul n m s) ↔ canonical s := by rfl

/-! ## Functions of Machine/Requests -/

@[simp] theorem returnReply_canonical (s : State) (y : Reply) : canonical (returnReply s y) ↔ canonical s := by
  unfold returnReply
  split <;> simp

/-! ## Functions of Machine/Scrub -/

@[simp] theorem scrubNote_canonical (s : State) (a store kind : Nat) : canonical (scrubNote s a store kind) ↔ canonical s := by rfl

@[simp] theorem scrubHusk_canonical (s : State) (copy : Nat) : canonical (scrubHusk s copy) ↔ canonical s := by
  unfold scrubHusk
  dsimp only
  split <;> simp

@[simp] theorem endScrubPass_canonical (s : State) (store : Nat) : canonical (endScrubPass s store) ↔ canonical s := by rfl

/-! ## Functions of Machine/Streams -/

@[simp] theorem aheadLine_canonical (n line : Nat) (s : State) : canonical (aheadLine n line s) ↔ canonical s := by simp [aheadLine]

@[simp] theorem runAhead_canonical (n : Nat) (x : Stream) (s : State) : canonical (runAhead n x s) ↔ canonical s := by simp [runAhead]

@[simp] theorem countStream_canonical (n bytes : Nat) (s : State) : canonical (countStream n bytes s) ↔ canonical s := by rfl

@[simp] theorem haltStream_canonical (n ch : Nat) (c : Code) (s : State) : canonical (haltStream n ch c s).2 ↔ canonical s := by
  unfold haltStream
  split <;> simp

end Sys2Proof.Machine
end

section
/-! The canonical form of memory and banks, carried through the shared operations that read and write them (O55) -/

namespace Sys2Proof.Machine

open Sys2Proof

variable {α β γ : Type}

theorem canonical_foldl_snd {f : β × State → α → β × State} (hf : ∀ y x, canonical y.2 → canonical (f y x).2) {y : β × State} (h : canonical y.2)
    (l : List α) : canonical (l.foldl f y).2 := by
  induction l generalizing y with
  | nil => exact h
  | cons x l ih => exact ih (hf y x h)

theorem canonical_foldl_fst {f : State × β → α → State × β} (hf : ∀ y x, canonical y.1 → canonical (f y x).1) {y : State × β} (h : canonical y.1)
    (l : List α) : canonical (l.foldl f y).1 := by
  induction l generalizing y with
  | nil => exact h
  | cons x l ih => exact ih (hf y x h)

theorem canonical_foldl_snd_snd {f : β × γ × State → α → β × γ × State} (hf : ∀ y x, canonical y.2.2 → canonical (f y x).2.2)
    {y : β × γ × State} (h : canonical y.2.2) (l : List α) : canonical (l.foldl f y).2.2 := by
  induction l generalizing y with
  | nil => exact h
  | cons x l ih => exact ih (hf y x h)

theorem canonical_andThen {r : Got α × State} {f : α → State → Got β × State} (hr : canonical r.2)
    (hf : ∀ a t, canonical t → canonical (f a t).2) : canonical (Got.andThen r f).2 := by
  obtain ⟨a | c | _, t⟩ := r
  · exact hf a t hr
  · exact hr
  · exact hr

theorem canonical_each {f : α → State → Got β × State} (hf : ∀ a t, canonical t → canonical (f a t).2) (l : List α) {s : State}
    (h : canonical s) : canonical (Got.each f l s).2 := by
  induction l generalizing s with
  | nil => exact h
  | cons a l ih =>
    have ha := hf a s h
    unfold Got.each
    split
    · rename_i e
      rw [e] at ha
      have hl := ih ha
      split <;> rename_i e <;> rw [e] at hl <;> exact hl
    all_goals
      rename_i e
      rw [e] at ha
      exact ha

/-- A memory from which pieces are forgotten one after another keeps its form. -/
theorem foldl_forget_wf {m : Memory} (h : m.wf = true) (lo hi : α → Nat) (l : List α) :
    (l.foldl (fun m r => forget m (lo r) (hi r)) m).wf = true := by
  induction l generalizing m with
  | nil => exact h
  | cons r l ih => exact ih (forget_wf h _ _)

theorem canonical_forgetRuns {s : State} (h : canonical s) (l : List Run) : canonical { s with mem := forgetRuns s.mem l } :=
  ⟨forgetRuns_wf h.1 l, h.2⟩

theorem canonical_writeLone {s : State} (h : canonical s) (i v : Nat) (p : Bool) : canonical (writeBankElems.writeLone s i v p).1 := by
  grind [writeBankElems.writeLone, canonical_onProt, canonical_readBankWord, canonical_writeBankWord]

/-! ## Functions of Machine/Memory -/

theorem canonical_writeBankElems {s : State} (h : canonical s) (l : List (Nat × Nat × Bool)) : canonical (writeBankElems s l).1 := by
  fun_induction writeBankElems s l with
  | case1 => exact h
  | case2 s i v p => exact canonical_writeLone h i v p
  | case3 _ _ _ _ _ _ _ _ _ ih => exact ih (canonical_writeBankWord h _ _ _)
  | case4 s i v p _ _ _ _ _ _ _ e _ _ e' ih =>
    have hlone := canonical_writeLone h i v p
    rw [e] at hlone
    have hrest := ih hlone
    rwa [e'] at hrest

/-! ## Functions of Machine/HomeSlice -/

theorem canonical_putThrough {s : State} (h : canonical s) (who : Initiator) (a : Nat) (l : List Byte) : canonical (putThrough s who a l) := by
  grind [putThrough, canonical_raise, canonical_writeThrough]

theorem canonical_burstFails {s : State} (h : canonical s) (line : Nat) (words : BitVec 8) : canonical (burstFails s line words) := by
  have hstep : ∀ (t : State) (e : Nat × Tile), canonical t → canonical (e.2.issued.foldl (fun t d =>
      if d.waits.any (fun r => decide (r.lo / 64 = line ∧ wordMask line r.lo r.len &&& words ≠ 0)) then forgetIssued t d else t) t) :=
    fun t e ht => canonical_foldl (fun u d hu => by split; exacts [canonical_forgetIssued hu d, hu]) ht _
  have hall := canonical_foldl hstep h s.tiles
  unfold burstFails
  extract_lets hit lost s1
  split
  · exact hall
  · exact hall

theorem canonical_failBurst {s : State} (h : canonical s) (line : Nat) (words : BitVec 8) : canonical (failBurst s line words) := by
  refine canonical_burstFails (canonical_foldl (fun t i ht => ?_) h _) _ _
  dsimp only
  split_ifs
  · exact ht
  · exact canonical_putWord (canonical_onProt ht _) _ _ _
  · exact canonical_spoilWord (canonical_onProt ht _) _
  · exact canonical_raise (canonical_onProt (canonical_spoilWord (canonical_onProt ht _) _) _) _ _
  · exact canonical_spoilWord (canonical_onProt ht _) _

/-! ## Functions of Machine/Tile -/

theorem canonical_readFor (who : Initiator) (block a len : Nat) {s : State} (h : canonical s) : canonical (readFor who block a len s).2 := by
  grind [readFor, canonical_lookupTags, canonical_readBytes]

theorem canonical_writeRuns (l : List (Nat × List (Byte × Bool))) {s : State} (h : canonical s) : canonical (writeRuns l s).1 := by
  induction l generalizing s with
  | nil => exact h
  | cons r l ih => exact ih (canonical_writeMarked h _ _)

theorem canonical_forgetBundle {s : State} (h : canonical s) (b : Bundle) : canonical (forgetBundle s b) :=
  ⟨foldl_forget_wf h.1 _ _ _, h.2⟩

theorem canonical_writeFor (who : Initiator) (block : Nat) (b : Bundle) {s : State} (h : canonical s) : canonical (writeFor who block b s).2 := by
  have hruns := canonical_writeRuns (bundleRuns b) h
  unfold writeFor
  split
  · exact h
  · split
    rename_i e
    rw [e] at hruns
    split_ifs
    · exact h
    · exact hruns
    · exact hruns

theorem canonical_fetch64 (n a : Nat) {s : State} (h : canonical s) : canonical (fetch64 n a s).2 := by
  grind [fetch64, Got.andThen_canonical, canonical_readFor]

theorem canonical_fetchTensor (n : Nat) (t : Tile) (pointer : Nat) (side : Bool) {s : State} (h : canonical s) :
    canonical (fetchTensor n t pointer side s).2 := by
  grind [fetchTensor, Got.andThen_canonical, canonical_fetch64]

theorem canonical_orderIssued {s : State} (h : canonical s) (n : Nat) (d : Issued) : canonical (orderIssued s n d) := by
  grind [orderIssued, canonical_forgetIssued, noteWritten_canonical, canonical_raceWrites]

theorem canonical_issued {s : State} (h : canonical s) (n d : Nat) (x : Issue) (fault : Option Code) : canonical (issued s n d x fault) := by
  have horder : canonical (if x.engine = 3 then s else orderIssued s n (issuedEntry n (tileOf s n) d x fault)) := by
    split
    · exact h
    · exact canonical_orderIssued h _ _
  simpa [issued] using horder

/-! ## Functions of Machine/Collectives -/

theorem canonical_placeIn {s : State} (h : canonical s) (who : Initiator) (key place : Nat) (l : List (Byte × Bool)) :
    canonical (placeIn s who key place l) := by
  grind [placeIn, canonical_writeThrough]

theorem canonical_readElems {s : State} (h : canonical s) (c : Coll) (a n : Nat) : canonical (readElems s c a n).2 := by
  grind [readElems, canonical_readThrough, recordFault_canonical]

theorem canonical_fabricWrite {s : State} (h : canonical s) (a : Nat) (l : List (Byte × Bool)) : canonical (fabricWrite s a l) := by
  grind [fabricWrite, recordFault_canonical, canonical_writeThrough]

theorem canonical_ownValues {s : State} (h : canonical s) (c : Coll) (e n : Nat) : canonical (ownValues s c e n).2 := by
  grind [ownValues, canonical_poisonEscape, canonical_readElems]

theorem canonical_deliver {s : State} (h : canonical s) (k : CollKey) (step e : Nat) (l : List (Nat × Bool)) : canonical (deliver s k step e l) := by
  grind [deliver, canonical_fabricWrite, onColl_canonical]

theorem canonical_finishChunk {s : State} (h : canonical s) (k : CollKey) (step : Nat) : canonical (finishChunk s k step) := by
  grind [finishChunk, canonical_deliver, canonical_foldl, onColl_canonical, sendData_canonical]

theorem canonical_startReduction {s : State} (h : canonical s) (k : CollKey) (step : Nat) : canonical (startReduction s k step) := by
  grind [startReduction, canonical_finishChunk, canonical_foldl, noteMarks_canonical, onColl_canonical, canonical_ownValues, sendData_canonical]

theorem canonical_passPartial {s : State} (h : canonical s) (k : CollKey) (step e : Nat) (back : Bool) (l : List (Nat × Bool)) (o : Nat) :
    canonical (passPartial s k step e back l o) := by
  grind [passPartial, canonical_finishChunk, noteMarks_canonical, onColl_canonical, canonical_ownValues, sendData_canonical]

theorem canonical_reductionData {s : State} (h : canonical s) (k : CollKey) (step : Nat) (p : Packet) : canonical (reductionData s k step p) := by
  grind [reductionData, canonical_deliver, canonical_finishChunk, noteMarks_canonical, onColl_canonical, canonical_passPartial,
      canonical_poisonEscape, sendData_canonical]

theorem canonical_placeElems {s : State} (h : canonical s) (k : CollKey) (step a : Nat) (l : List (Nat × Bool)) :
    canonical (placeElems s k step a l) := by
  grind [placeElems, canonical_fabricWrite, onColl_canonical]

theorem canonical_startGather {s : State} (h : canonical s) (k : CollKey) (step : Nat) : canonical (startGather s k step) := by
  grind [startGather, canonical_foldl, moveData_canonical, canonical_placeElems, canonical_readElems]

theorem canonical_startBroadcast {s : State} (h : canonical s) (k : CollKey) (step : Nat) : canonical (startBroadcast s k step) := by
  grind [startBroadcast, canonical_foldl, moveData_canonical, canonical_placeElems, canonical_readElems]

theorem canonical_startAllToAll {s : State} (h : canonical s) (k : CollKey) (step : Nat) : canonical (startAllToAll s k step) := by
  grind [startAllToAll, canonical_foldl, moveData_canonical, canonical_placeElems, canonical_readElems]

theorem canonical_moveReceived {s : State} (h : canonical s) (k : CollKey) (step : Nat) (p : Packet) : canonical (moveReceived s k step p) := by
  grind [moveReceived, moveData_canonical, canonical_placeElems]

theorem canonical_sendDeferred {s : State} (h : canonical s) (k : CollKey) (step : Nat) (d : Deferred) : canonical (sendDeferred s k step d) := by
  grind [sendDeferred, canonical_finishChunk, canonical_foldl, noteMarks_canonical, onColl_canonical, sendData_canonical]

theorem canonical_writeHeld {s : State} (h : canonical s) (k : CollKey) (step : Nat) : canonical (writeHeld s k step) := by
  exact canonical_foldl (fun t x ht => canonical_fabricWrite ht _ _) ((onColl_canonical s k step _).mpr h) _

theorem canonical_settleOwn {s : State} (h : canonical s) (k : CollKey) (step : Nat) : canonical (settleOwn s k step) := by
  grind [settleOwn, onFabric_canonical, canonical_ownValues, canonical_placeIn, canonical_writeHeld]

theorem canonical_goAtMember {s : State} (h : canonical s) (p : Packet) : canonical (goAtMember s p) := by
  grind [goAtMember, canonical_finishChunk, onColl_canonical, onFabric_canonical, canonical_sendDeferred, canonical_settleOwn]

/-! ## Functions of Machine/Saving -/

theorem canonical_partialRowsOf {s : State} (h : canonical s) (bn : Nat) : canonical (partialRowsOf s bn).2 := by
  refine canonical_foldl_snd (fun x row hx => ?_) h _
  have hread := fun a => canonical_readThrough hx .hazel a (4 * (groupNow s (bindingNow s bn).group).rowLen)
  dsimp only
  split
  · exact (recordFault_canonical _ _ _).mpr (hread _)
  · exact hread _

theorem canonical_contribRecord {s : State} (h : canonical s) (k : CollKey) (step : Nat) : canonical (contribRecord s k step).2 := by
  grind [contribRecord, canonical_ownValues, canonical_partialRowsOf]

theorem canonical_resultRecord {s : State} (h : canonical s) (step g : Nat) : canonical (resultRecord s step g).2 := by
  unfold resultRecord
  dsimp only
  split
  · split
    · exact (recordFault_canonical _ _ _).mpr (canonical_readThrough h _ _ _)
    · exact canonical_readThrough h _ _ _
  · split
    · refine canonical_foldl_snd (fun a j ha => ?_) h _
      dsimp only
      split
      · exact (recordFault_canonical _ _ _).mpr (canonical_readThrough ha _ _ _)
      · exact canonical_readThrough ha _ _ _
    · exact h

theorem canonical_saveResult {s : State} (h : canonical s) (g : Nat) : canonical (saveResult s g) := by
  grind [saveResult, canonical_resultRecord, saveRecord_canonical]

theorem canonical_releaseReadys {s : State} (h : canonical s) (carrier : Option Nat) : canonical (releaseReadys s carrier) := by
  grind [releaseReadys, canonical_foldl, canonical_issued, sendReady_canonical, canonical_settleOwn]

theorem canonical_issueReady {s : State} (h : canonical s) (k : CollKey) (summary : Option Summary) : canonical (issueReady s k summary) := by
  grind [issueReady, canonical_contribRecord, canonical_releaseReadys, saveRecord_canonical, sendReady_canonical, canonical_settleOwn]

/-! ## Functions of Machine/Queues -/

theorem canonical_readRecord {s : State} (h : canonical s) (a len : Nat) : canonical (readRecord s a len).2 := by
  grind [readRecord, canonical_readThrough]

theorem canonical_readItems {s : State} (h : canonical s) (e : Entry) : canonical (readItems s e).2 := by
  refine canonical_foldl_snd (fun x i hx => ?_) h _
  have hread := canonical_readRecord hx (e.field 192 48 + 16 * i) 16
  split <;> rename_i eq <;> rw [eq] at hread
  · exact hread
  · exact canonical_raise hread _ _
  · exact hread

theorem canonical_groupCommand {s : State} (h : canonical s) (g coll : Nat) : canonical (groupCommand s g coll).2 := by
  grind [groupCommand, canonical_readRecord, recordFault_canonical]

theorem canonical_commandsReady {s : State} (h : canonical s) (items : List (Nat × Nat)) : canonical (commandsReady s items).2 := by
  refine canonical_foldl_snd (fun x y hx => ?_) h _
  have hread := canonical_readRecord hx y.2 64
  split
  · rename_i eq
    rwa [eq] at hread
  · exact hx

theorem canonical_issueContribution {s : State} (h : canonical s) (g coll : Nat) (summary : Option Summary) :
    canonical (issueContribution s g coll summary) := by
  grind [issueContribution, canonical_groupCommand, canonical_issueReady, canonical_issued, onWork_canonical, openColl_canonical]

theorem canonical_issueCarrier {s : State} (h : canonical s) (g : Nat) (summary : Summary) : canonical (issueCarrier s g summary) := by
  grind [issueCarrier, canonical_issueContribution, canonical_issueReady, canonical_issued, onWork_canonical]

theorem canonical_finishGroups {s : State} (h : canonical s) (items : List (Nat × Nat)) : canonical (finishGroups s items) := by
  refine canonical_foldl (fun t x ht => ?_) h _
  grind [canonical_groupCommand, canonical_issueContribution, onCache_canonical, onWork_canonical, openColl_canonical]

theorem canonical_endEntry {s : State} (h : canonical s) (q : Nat) (e : Entry) (outcome : Nat) (code : Code) :
    canonical (endEntry s q e outcome code) := by
  grind [endEntry, canonical_finishGroups, onEntry_canonical]

theorem canonical_replaceUnread {s : State} (h : canonical s) : canonical (replaceUnread s) := by
  grind [replaceUnread, canonical_foldl, canonical_issueContribution, onWork_canonical]

theorem canonical_failWaiting {s : State} (h : canonical s) : canonical (failWaiting s) := by
  grind [failWaiting, canonical_endEntry, canonical_finishGroups, canonical_foldl, canonical_replaceUnread]

theorem canonical_settleFault {s : State} (h : canonical s) : canonical (settleFault s) := by
  grind [settleFault, canonical_failWaiting]

theorem canonical_localFault {s : State} (h : canonical s) (code : Code) (arg : Nat) : canonical (localFault s code arg) := by
  grind [localFault, recordFault_canonical, canonical_settleFault]

theorem canonical_releaseEntry {s : State} (h : canonical s) (q : Nat) (e : Entry) : canonical (releaseEntry s q e) := by
  grind [releaseEntry, onQueue_canonical, canonical_putThrough]

theorem canonical_releaseQueue (n q : Nat) {s : State} (h : canonical s) (upTo : Nat) : canonical (releaseQueue n q s upTo) := by
  induction n generalizing s with
  | zero => exact h
  | succ n ih => grind [releaseQueue, canonical_releaseEntry]

theorem canonical_releaseAll {s : State} (h : canonical s) (upTo : Nat) : canonical (releaseAll s upTo) := by
  grind [releaseAll, canonical_foldl, canonical_releaseQueue]

theorem canonical_releaseLate {s : State} (h : canonical s) (q : Nat) : canonical (releaseLate s q) := by
  grind [releaseLate, canonical_releaseQueue]

theorem canonical_joinStep {s : State} (h : canonical s) (q : Nat) (e : Entry) : canonical (joinStep s q e) := by
  unfold joinStep
  extract_lets step twice s1 s2 carrier closed s3 badItem code
  have h2 : canonical s2 := canonical_foldl (fun t x ht => (onWork_canonical _ _ _).mpr ht) ((onEntry_canonical _ _ _ _).mpr h) _
  have h3 : canonical s3 := by
    simp only [s3]
    split
    · split
      · exact canonical_raise (s := closed) h2 _ _
      · exact h2
    · exact h2
  clear_value s3 code
  split
  · exact canonical_settleFault (canonical_endEntry ((recordFault_canonical _ _ _).mpr h3) _ _ _ _)
  · exact canonical_settleFault h3

theorem canonical_settleSteps (n : Nat) {s : State} (h : canonical s) : canonical (settleSteps n s) := by
  induction n generalizing s with
  | zero => exact h
  | succ n ih => grind [settleSteps, canonical_joinStep]

theorem canonical_settleAll {s : State} (h : canonical s) : canonical (settleAll s) := by
  grind [settleAll, canonical_settleSteps]

theorem canonical_faultQueue {s : State} (h : canonical s) (q : Nat) (code : Code) (seq : Nat) : canonical (faultQueue s q code seq) := by
  grind [faultQueue, onQueue_canonical, canonical_raise, canonical_settleAll]

theorem canonical_postCount {s : State} (h : canonical s) (q p ordinal : Nat) : canonical (postCount s q p ordinal) := by
  unfold postCount
  extract_lets x d
  split_ifs
  · exact h
  · exact canonical_faultQueue h _ _ _
  · exact h

theorem canonical_consumeCount {s : State} (h : canonical s) (q c : Nat) : canonical (consumeCount s q c) := by
  unfold consumeCount
  extract_lets x
  split_ifs
  · exact h
  · exact canonical_faultQueue h _ _ _
  · exact h

theorem canonical_acceptEntry {s : State} (h : canonical s) (q : Nat) (p : Pending) (v : Nat) : canonical (acceptEntry s q p v) := by
  grind [acceptEntry, onQueue_canonical, canonical_readItems, canonical_settleAll]

theorem canonical_mismatch (q : Nat) (p : Pending) {t : State} (h : canonical t) : canonical (readEntry.mismatch q p t) := by
  grind [readEntry.mismatch, canonical_faultQueue, onQueue_canonical]

theorem canonical_readEntry {s : State} (h : canonical s) (q : Nat) (p : Pending) : canonical (readEntry s q p) := by
  grind [readEntry, canonical_acceptEntry, canonical_mismatch, canonical_raise, canonical_readRecord]

theorem canonical_disableQueue {s : State} (h : canonical s) (q : Nat) : canonical (disableQueue s q) := by
  grind [disableQueue, onQueue_canonical, canonical_releaseLate, canonical_settleAll]

theorem canonical_faultEntry {s : State} (h : canonical s) (q : Nat) (e : Entry) (code : Code) : canonical (faultEntry s q e code) := by
  grind [faultEntry, canonical_endEntry, recordFault_canonical, canonical_settleFault]

theorem canonical_fillLines (n : Nat) {s : State} (h : canonical s) (a : Nat) (d : Word64) : canonical (fillLines n s a d) := by
  induction n generalizing s a with
  | zero => exact h
  | succ n ih => exact ih (canonical_foldl (fun t i ht => canonical_writeWhole ht _ _ _) ((accessSlices_canonical s .hazel a 64 true).mpr h) _) _

/-! ## Functions of Machine/Cracker -/

theorem canonical_forgetRow {s : State} (h : canonical s) (c a len : Nat) : canonical (forgetRow s c a len) := by
  grind [forgetRow, canonical_forget]

theorem canonical_haltChannel {s : State} (h : canonical s) (c : Nat) (code : Code) : canonical (haltChannel s c code) := by
  have hforgot : canonical ((channelOf s c).remote.foldl (fun t x => x.rows.foldl (fun t y => forgetRow t c y.1 x.rowBytes) t) s) :=
    canonical_foldl (fun t x ht => canonical_foldl (fun u y hu => canonical_forgetRow hu _ _ _) ht _) h _
  exact canonical_localFault (canonical_foldl (fun t x ht => (onEntry_canonical _ _ _ _).mpr ht) ((onChannel_canonical _ c _).mpr hforgot) _) _ _

theorem canonical_readSectors (c a len : Nat) {s : State} (h : canonical s) : canonical (readSectors c a len s).2 := by
  grind [readSectors, Got.andThen_canonical, accessSectors_canonical, canonical_readFor]

theorem canonical_forgetNear (c : Nat) (cmd : CrackerCommand) {s : State} (h : canonical s) : canonical (forgetNear c cmd s) := by
  grind [forgetNear, canonical_foldl, canonical_forgetRow]

theorem canonical_readIndices (c : Nat) (cmd : CrackerCommand) {s : State} (h : canonical s) : canonical (readIndices c cmd s).2 := by
  refine canonical_each (fun i t ht => canonical_andThen (canonical_readSectors c _ _ ht) fun b u hu => ?_) _ h
  split <;> exact hu

theorem canonical_writeNear (c a : Nat) (l : List (Byte × Bool)) {s : State} (h : canonical s) : canonical (writeNear c a l s).2 := by
  grind [writeNear, accessSectors_canonical, canonical_disturb, canonical_lookupTags, canonical_writeMarked]

theorem canonical_deliverRows (c : Nat) (cmd : CrackerCommand) (rows : List (Nat × List (Byte × Bool))) {s : State} (h : canonical s) :
    canonical (deliverRows c cmd rows s).2 := by
  exact canonical_andThen (canonical_each (fun r t ht => canonical_writeNear c _ r.2 ht) rows h) fun _ _ ht => ht

theorem canonical_writeRow (c a : Nat) (l : List (Byte × Bool)) {s : State} (h : canonical s) : canonical (writeRow c a l s).2 := by
  grind [writeRow, canonical_disturb, canonical_lookupTags, canonical_writeMarked]

theorem canonical_readRow (c : Nat) (r : TableRegion) (row : Nat) {s : State} (h : canonical s) : canonical (readRow c r row s).2 := by
  grind [readRow, canonical_readFor]

theorem canonical_gradRows (c : Nat) (cmd : CrackerCommand) (rowLen : Nat) (idx : List Nat) {s : State} (h : canonical s) :
    canonical (gradRows c cmd rowLen idx s).2 := by
  exact canonical_each (fun x t ht => canonical_andThen (canonical_readSectors c _ _ ht) fun _ _ hu => hu) _ h

theorem canonical_accumulateRow {s : State} (h : canonical s) (bn : Nat) (b : Binding) (rowLen m row : Nat) (values : List Nat) (poison : Bool) :
    canonical (accumulateRow s bn b rowLen m row values poison).1 := by
  grind [accumulateRow, canonical_disturb, canonical_lookupTags, onBinding_canonical, canonical_readBytes, canonical_writeMarked]

theorem canonical_placeInbound {s : State} (h : canonical s) (bn offset : Nat) (l : List (Byte × Bool)) : canonical (placeInbound s bn offset l) := by
  grind [placeInbound, canonical_fabricWrite, canonical_localFault, onBinding_canonical]

theorem canonical_sendDeferredRows {s : State} (h : canonical s) (k : CollKey) (bn : Nat) (d : Deferred) : canonical (sendDeferredRows s k bn d) := by
  grind [sendDeferredRows, canonical_foldl, canonical_placeInbound, sendInbound_canonical]

theorem canonical_exchangeRows {s : State} (h : canonical s) (k : CollKey) (step : Nat) : canonical (exchangeRows s k step) := by
  grind [exchangeRows, canonical_foldl, hazelRequests_canonical, onFabric_canonical, canonical_partialRowsOf, canonical_poisonEscape,
      canonical_sendDeferredRows, sendInbound_canonical]

theorem canonical_inboundParts {s : State} (h : canonical s) (bn : Nat) : canonical (inboundParts s bn).2 := by
  refine canonical_foldl_snd (fun x i hx => ?_) h _
  have hread := fun a => canonical_readBytes (canonical_lookupTags hx a (64 + 4 * (groupNow s (bindingNow s bn).group).rowLen)) a
    (64 + 4 * (groupNow s (bindingNow s bn).group).rowLen)
  dsimp only
  split
  · exact (recordFault_canonical _ _ _).mpr (hread _)
  · exact hread _

theorem canonical_servedBytes (r : TableRegion) (l : List Nat) {s : State} (h : canonical s) : canonical (servedBytes r l s).2.2 := by
  induction l generalizing s with
  | nil => exact h
  | cons x l ih =>
    unfold servedBytes
    split
    · exact ih h
    · exact ih (canonical_readBytes (canonical_lookupTags h _ _) _ _)

theorem canonical_serveRequest {s : State} (h : canonical s) (p : Packet) (q : TableRequest) : canonical (serveRequest s p q) := by
  grind [serveRequest, canonical_foldl, hazelRequests_canonical, onCracker_canonical, sendPacket_canonical, canonical_servedBytes]

theorem canonical_settle {s : State} (h : canonical s) (p : Packet) : canonical (takeRequest.settle s p) := by
  grind [takeRequest.settle, onCracker_canonical, canonical_serveRequest]

theorem canonical_takeRequest {s : State} (h : canonical s) (p : Packet) : canonical (takeRequest s p) := by
  grind [takeRequest, onCracker_canonical, canonical_settle]

theorem canonical_serveHeld {s : State} (h : canonical s) : canonical (serveHeld s) := by
  exact canonical_foldl (fun t p ht => canonical_takeRequest ht p) ((onCracker_canonical s _).mpr h) _

theorem canonical_deliverRemote (c : Nat) (x : RemoteRows) (offset : Nat) (l : List (Byte × Bool)) {s : State} (h : canonical s) :
    canonical (deliverRemote c x offset l s).2 := by
  unfold deliverRemote
  extract_lets first last
  have hwritten := canonical_each (f := fun j t =>
      let lo := max offset (j * x.rowBytes)
      let hi := min (offset + l.length) ((j + 1) * x.rowBytes)
      let near := (x.rows.getD j (0, 0)).1
      writeNear c (near + (lo - j * x.rowBytes)) ((l.drop (lo - offset)).take (hi - lo)) t)
    (fun j t ht => canonical_writeNear _ _ _ ht) ((List.range (last - first)).map (first + ·)) h
  split <;> rename_i e <;> rw [e] at hwritten <;> exact hwritten

/-! ## Functions of Machine/Vector -/

theorem canonical_readBankElem (n block bank off : Nat) {s : State} (h : canonical s) : canonical (readBankElem n block bank off s).2 := by
  grind [readBankElem, canonical_readBankWord]

theorem canonical_readElem (n block : Nat) (x : Tensor) (c : List Nat) {s : State} (h : canonical s) : canonical (readElem n block x c s).2 := by
  grind [readElem, Got.andThen_canonical, canonical_readBankElem, canonical_readFor]

theorem canonical_writeOuts (n block : Nat) (o : Outs) {s : State} (h : canonical s) : canonical (writeOuts n block o s).2 := by
  refine canonical_andThen (canonical_writeFor _ _ _ h) fun _ t ht => ?_
  have hbank := canonical_writeBankElems ht o.bank
  grind [onTile_canonical]

theorem canonical_forgetTensor (n : Nat) (x : Tensor) {s : State} (h : canonical s) : canonical (forgetTensor n x s) := by
  refine canonical_foldl (fun t c ht => ?_) h _
  dsimp only
  split_ifs
  · exact ⟨ht.1, forget_wf ht.2 _ _⟩
  · exact canonical_forget ht _ _
  · exact ht

theorem canonical_readNum (n wf : Nat) (x : Tensor) (c : List Nat) {s : State} (h : canonical s) : canonical (readNum n wf x c s).2 := by
  grind [readNum, Got.andThen_canonical, canonical_readElem]

theorem canonical_elementwiseResults (n : Nat) (v : Vec) (x : Context) {s : State} (h : canonical s) : canonical (elementwiseResults n v x s).2 :=
  canonical_each (fun c _ ht => canonical_andThen (canonical_each (fun x _ hu => canonical_readNum n _ x c hu) _ ht) fun _ _ hv => hv) _ h

theorem canonical_reductionResults (n : Nat) (v : Vec) {s : State} (h : canonical s) : canonical (reductionResults n v s).2 :=
  canonical_each (fun _ _ ht => canonical_andThen (canonical_each (fun _ _ hu => canonical_readNum n _ _ _ hu) _ ht) fun _ _ hv => hv) _ h

theorem canonical_addsrResults (n : Nat) (v : Vec) (x : Context) {s : State} (h : canonical s) : canonical (addsrResults n v x s).2 :=
  canonical_each (fun c _ ht => canonical_andThen (canonical_readNum n _ _ c ht) fun _ _ hu =>
    canonical_andThen (canonical_readNum n _ _ c hu) fun _ _ hv => hv) _ h

theorem canonical_putPacked (n : Nat) (dst : Tensor) (l : List (List Nat × Nat)) (poison : Bool) (o : Outs) {s : State} (h : canonical s) :
    canonical (putPacked n dst l poison o s).2 := by
  unfold putPacked
  split
  · exact h
  · refine canonical_andThen (canonical_each (fun b t ht => ?_) _ h) fun _ _ hu => hu
    dsimp only
    split
    · exact ht
    · exact canonical_andThen (canonical_readFor _ _ _ _ ht) fun _ _ hu => hu

theorem canonical_packBlock (n : Nat) (v : Vec) (o : Outs) (c : List Nat) {s : State} (h : canonical s) : canonical (packBlock n v o c s).2 :=
  canonical_andThen (canonical_each (fun i _ ht => canonical_readNum n 7 _ i ht) _ h) fun _ _ hu => canonical_putPacked n _ _ _ _ hu

theorem canonical_packBlocks (n : Nat) (v : Vec) (l : List (List Nat)) (o : Outs) {s : State} (h : canonical s) :
    canonical (packBlocks n v l o s).2 := by
  induction l generalizing o s with
  | nil => exact h
  | cons c l ih => exact canonical_andThen (canonical_packBlock n v o c h) fun o t ht => ih o ht

theorem canonical_unpackResults (n : Nat) (v : Vec) {s : State} (h : canonical s) : canonical (unpackResults n v s).2 :=
  canonical_each (fun _ _ ht => canonical_andThen (canonical_readElem n 3 _ _ ht) fun _ _ hu =>
    canonical_andThen (canonical_readElem n 3 _ _ hu) fun _ _ hv => hv) _ h

theorem canonical_updateOuts (n : Nat) (v : Vec) (x : Context) {s : State} (h : canonical s) : canonical (updateOuts n v x s).2 :=
  canonical_andThen (canonical_readFor _ _ _ _ h) fun _ _ ht =>
    canonical_andThen
      (canonical_each (fun _ _ hu => canonical_andThen (canonical_readElem n 3 _ _ hu) fun _ _ hv =>
        canonical_andThen (canonical_each (fun _ _ hw => canonical_readElem n 3 _ _ hw) _ hv) fun _ _ hw => hw) _ ht)
      fun _ _ hu => hu

theorem canonical_vectorOuts (n : Nat) (v : Vec) {s : State} (h : canonical s) : canonical (vectorOuts n v s).2 := by
  grind [vectorOuts, Got.andThen_canonical, canonical_addsrResults, canonical_elementwiseResults, canonical_packBlocks, canonical_reductionResults,
      canonical_unpackResults, canonical_updateOuts]

theorem canonical_forgetDests (n : Nat) (v : Vec) {s : State} (h : canonical s) : canonical (forgetDests n v s) :=
  canonical_foldl (fun _ x ht => canonical_forgetTensor n x ht) h _

theorem canonical_runVector (n : Nat) (v : Vec) {s : State} (h : canonical s) : canonical (runVector n v s).2 := by
  have hr : canonical (Got.andThen (vectorOuts n v s) fun o t => writeOuts n 3 o t).2 :=
    canonical_andThen (canonical_vectorOuts n v h) fun o _ ht => canonical_writeOuts n 3 o ht
  unfold runVector
  split <;> rename_i e <;> rw [e] at hr
  · exact canonical_forgetDests n v ((countVector_canonical n v _).mpr hr)
  · exact hr
  · dsimp only
    split
    · exact canonical_forgetDests n v ((countVector_canonical n v _).mpr hr)
    · exact (countVector_canonical n v _).mpr hr

/-! ## Functions of Machine/Training -/

theorem canonical_readReduced {s : State} (h : canonical s) (g : Group) (n : Nat) : canonical (readReduced s g n).2 := by
  grind [readReduced, canonical_poisonEscape, canonical_readThrough, recordFault_canonical]

theorem canonical_checkGroup {s : State} (h : canonical s) (g : Group) : canonical (checkGroup s g).2.2.2 := by
  grind [checkGroup, canonical_readReduced]

theorem canonical_makeCheck {s : State} (h : canonical s) (g : Group) : canonical (makeCheck s g) := by
  grind [makeCheck, canonical_checkGroup, onTrain_canonical, onWork_canonical]

theorem canonical_writeCoefficients {s : State} (h : canonical s) : canonical (writeCoefficients s) := by
  grind [writeCoefficients, canonical_foldl, onTrain_canonical, canonical_putThrough]

theorem canonical_readEach (who : Initiator) (len : Nat) (l : List Nat) {s : State} (h : canonical s) : canonical (readEach who len l s).2 := by
  induction l generalizing s with
  | nil => exact h
  | cons a l ih => exact ih (canonical_readThrough h who a len)

theorem canonical_readUpdate {s : State} (h : canonical s) (g : Group) (gradAt n : Nat) (planes : List Nat) :
    canonical (readUpdate s g gradAt n planes).2 := by
  grind [readUpdate, canonical_readEach, canonical_readThrough]

theorem canonical_writeUpdated {s : State} (h : canonical s) (who : Initiator) (l : List Updated) (planes : List Nat) :
    canonical (writeUpdated s who l planes) :=
  canonical_foldl (fun _ _ ht => canonical_writeThrough ht _ _ _) h _

theorem canonical_denseReads {s : State} (h : canonical s) (g : Group) : canonical (denseReads s g).2 := by
  grind [denseReads, canonical_readUpdate, canonical_writeCoefficients]

theorem canonical_updateGroup {s : State} (h : canonical s) (g : Group) : canonical (updateGroup s g).1 := by
  grind [updateGroup, canonical_denseReads, canonical_foldl, canonical_forget, onTile_canonical, onWork_canonical, recordFault_canonical,
      canonical_writeUpdated]

theorem canonical_decideSkip {s : State} (h : canonical s) (r : Summary) (carrier : Nat) (included : Bool) :
    canonical (decideSkip s r carrier included) := by
  grind [decideSkip, compareDigests_canonical, canonical_denseReads, canonical_makeCheck, onTrain_canonical, onWork_canonical, unhint_canonical,
      canonical_updateGroup]

theorem canonical_tryDecide {s : State} (h : canonical s) : canonical (tryDecide s) := by
  grind [tryDecide, canonical_decideSkip]

theorem canonical_gradientBytes {s : State} (h : canonical s) : canonical (gradientBytes s).2 := by
  refine canonical_foldl_snd (fun a g ha => ?_) h _
  exact canonical_readThrough ha _ _ _

theorem canonical_sendTwinDigest {s : State} (h : canonical s) (summary : Summary) : canonical (sendTwinDigest s summary) := by
  grind [sendTwinDigest, compareTwins_canonical, canonical_gradientBytes, onResil_canonical, sendPacket_canonical]

theorem canonical_setStageState {s : State} (h : canonical s) (g : Group) (i state row : Nat) : canonical (setStageState s g i state row) := by
  grind [setStageState, canonical_putThrough]

theorem canonical_writePlanes {s : State} (h : canonical s) (g : Group) (i row : Nat) (planes : List Nat) :
    canonical (writePlanes s g i row planes) :=
  canonical_foldl (fun _ _ ht => canonical_disturb (canonical_writeMarked (canonical_lookupTags (canonical_readThrough ht _ _ _) _ _) _ _) _) h _

theorem canonical_rowReads {s : State} (h : canonical s) (g : Group) (rank row : Nat) : canonical (rowReads s g rank row).2 := by
  grind [rowReads, canonical_readUpdate]

theorem canonical_writeBack14 {s : State} (h : canonical s) (g : Group) (slot row : Nat) (planes : List Nat) :
    canonical (writeBack14 s g slot row planes) := by
  grind [writeBack14, hazelRequests_canonical, canonical_writePlanes]

theorem canonical_resumeGroup {s : State} (h : canonical s) (g : Group) : canonical (resumeGroup s g) := by
  grind [resumeGroup, canonical_foldl, onTrain_canonical, canonical_setStageState, canonical_writeBack14]

theorem canonical_settleAccepted (n : Nat) {s : State} (h : canonical s) : canonical (abortStep.settleAccepted n s) := by
  induction n generalizing s with
  | zero => exact h
  | succ n ih => grind [abortStep.settleAccepted, canonical_joinStep]

theorem canonical_settleUnknown {s : State} (h : canonical s) : canonical (abortStep.settleUnknown s) := canonical_settleAccepted _ h

theorem canonical_abortStep {s : State} (hs : canonical s) (step : Nat) {t : State} (h : abortStep s step = .ok t) : canonical t := by
  unfold abortStep at h
  split at h
  · cases h
  · cases h
    refine canonical_settleFault ((onTrain_canonical _ _).mpr (canonical_settleUnknown ((recordFault_canonical _ _ _).mpr
      (canonical_foldl (fun t n ht => ?_) hs _))))
    split
    · split_ifs
      · exact (abortTile_canonical _ _ _).mpr ht
      · exact ht
    · exact ht

/-! ## Functions of Machine/Boundary -/

theorem canonical_writeSlotEntry {s : State} (h : canonical s) (g : Group) : canonical (writeSlotEntry s g) := by
  grind [writeSlotEntry, canonical_putThrough]

theorem canonical_flipSlots {s : State} (h : canonical s) : canonical (flipSlots s) := by
  grind [flipSlots, canonical_foldl, onLedger_canonical, canonical_writeSlotEntry]

theorem canonical_freeStages {s : State} (h : canonical s) : canonical (freeStages s) := by
  refine canonical_foldl (fun t x ht => ?_) h _
  split
  · exact ht
  · exact canonical_setStageState ht _ _ _ _

theorem canonical_welcomeGroups {s : State} (h : canonical s) (old : Tab Byte) : canonical (welcomeGroups s old) := by
  grind [welcomeGroups, canonical_foldl, onLedger_canonical, canonical_writeSlotEntry]

theorem canonical_startPartitions {s : State} (h : canonical s) (old : List (Nat × Pinned)) : canonical (startPartitions s old) := by
  unfold startPartitions
  extract_lets fresh s1
  split
  · exact h
  · have h1 : canonical s1 := ⟨foldl_forget_wf h.1 _ _ _, h.2⟩
    exact canonical_foldl (fun t e ht => (displaceLines_canonical _ _ _).mpr ((limitHints_canonical _ _).mpr ht)) h1 _

theorem canonical_applyStaged {s : State} (h : canonical s) : canonical (applyStaged s) := by
  unfold applyStaged
  split
  · exact h
  · rename_i t _
    extract_lets writes s1 s2 s3
    have h2 : canonical s2 := (limitAllHints_canonical _ _).mpr (canonical_startPartitions (s := s1) h _)
    clear_value s2
    have h3 : canonical s3 := canonical_forgetRuns h2 _
    clear_value s3
    exact canonical_welcomeGroups ((onTrain_canonical s3 _).mpr h3) _

theorem canonical_forgetTile {s : State} (h : canonical s) (n : Nat) : canonical (forgetTile s n) :=
  ⟨forget_wf h.1 _ _, forget_wf h.2 _ _⟩

theorem canonical_writeLog {s : State} (h : canonical s) (step : Nat) (x : Nat × Nat × Nat × Nat × Nat) : canonical (writeLog s step x) := by
  grind [writeLog, onFabric_canonical, canonical_putThrough]

theorem canonical_committedReads {s : State} (h : canonical s) (g : Group) : canonical (committedReads s g).2 := by
  grind [committedReads, canonical_readEach]

theorem canonical_planesOf {s : State} (h : canonical s) (g : Group) : canonical (planesOf s g).2 := by
  grind [planesOf, canonical_committedReads]

theorem canonical_planesRecord {s : State} (h : canonical s) (kind step : Nat) (g : Group) : canonical (planesRecord s kind step g).2 := by
  grind [planesRecord, canonical_committedReads, canonical_planesOf]

theorem canonical_deltaRecord {s : State} (h : canonical s) (step : Nat) (g : Group) : canonical (deltaRecord s step g).2 := by
  unfold deltaRecord
  split
  · exact canonical_planesRecord h _ _ _
  · exact canonical_foldl_snd_snd (fun _ _ ha => canonical_readEach _ _ _ ha) h _

theorem canonical_saveDelta {s : State} (h : canonical s) (step : Nat) : canonical (saveDelta s step) := by
  unfold saveDelta
  split
  · exact h
  · extract_lets groups base
    have hreads := canonical_foldl_snd (y := (([] : List Saved), s)) (f := fun (a : List Saved × State) g =>
        let (r, t) := if base then planesRecord a.2 1 step g else deltaRecord a.2 step g
        (a.1 ++ r.toList.map (fun x => { x with fromStep := if base then step else s.resil.deltaStep + 1 }), t))
      (fun a g ha => by cases base; exacts [canonical_deltaRecord ha step g, canonical_planesRecord ha 1 step g]) h groups
    split
    rename_i e
    rw [e] at hreads
    extract_lets saved bytes
    split
    · exact canonical_raise hreads _ _
    · exact canonical_foldl (fun t r ht => (saveRecord_canonical _ _).mpr (canonical_placeIn ht _ _ _ _)) ((onResil_canonical _ _).mpr hreads) _

theorem canonical_saveStep {s : State} (h : canonical s) (step : Nat) (log : List Byte) : canonical (saveStep s step log) := by
  grind [saveStep, canonical_foldl, canonical_planesRecord, canonical_saveDelta, saveImage_canonical, saveRecord_canonical]

theorem canonical_commitOutcome {s : State} (h : canonical s) (r : CommitRecord) : canonical (commitOutcome s r) := by
  grind [commitOutcome, canonical_flipSlots, canonical_freeStages, onTrain_canonical, canonical_raise, updateSilent_canonical]

/-! ## Functions of Machine/FrontEnd -/

theorem canonical_placeWords (conn a : Nat) (l : List (Byte × Bool)) (n : Nat) {s : State} (h : canonical s) (w : Nat) :
    canonical (placeWords conn a l n s w).1 := by
  induction n generalizing s w with
  | zero => exact h
  | succ n ih =>
    refine ih ?_ _
    have hword := canonical_writeWords h (n := 1) w a l
    split
    · exact (mergeRefused_canonical _ _ _).mpr hword
    · exact hword

theorem canonical_placeUnseen {s : State} (h : canonical s) (conn : Nat) : canonical (placeUnseen s conn).1 := by
  grind [placeUnseen, accessSlices_canonical, canonical_disturb, canonical_lookupTags, onConn_canonical, canonical_placeWords]

theorem canonical_placeAll (n : Nat) {s : State} (h : canonical s) (conn : Nat) : canonical (placeAll n s conn).1 := by
  induction n generalizing s with
  | zero => exact h
  | succ n ih => grind [placeAll, canonical_placeUnseen]

theorem canonical_takeDoorbell {s : State} (h : canonical s) (conn : Nat) : canonical (takeDoorbell s conn) := by
  grind [takeDoorbell, canonical_consumeCount, onConn_canonical, onFront_canonical, canonical_postCount]

theorem canonical_takeDoorbells (n : Nat) {s : State} (h : canonical s) (conn : Nat) : canonical (takeDoorbells n s conn) := by
  induction n generalizing s with
  | zero => exact h
  | succ n ih => exact ih (canonical_takeDoorbell h conn)

theorem canonical_serveRead {s : State} (h : canonical s) (conn addr len : Nat) : canonical (serveRead s conn addr len).1 := by
  grind [serveRead, connError_canonical, onConn_canonical, onFront_canonical, canonical_readBytes, canonical_readThrough, sendNak_canonical,
      sendOn_canonical]

theorem canonical_queueControl {s : State} (h : canonical s) (v : Nat) {t : State} (h : queueControl s v = .ok t) : canonical t := by
  grind [queueControl, canonical_disableQueue, enableQueue_canonical]

theorem canonical_exportData {s : State} (h : canonical s) (x : Export) : canonical (exportData s x).2.1 := by
  grind [exportData, canonical_raise, canonical_readThrough]

theorem canonical_exportSend {s : State} (h : canonical s) (x : Export) : canonical (exportSend s x).1 := by
  grind [exportSend, egressSend_canonical, canonical_exportData, sendOn_canonical]

theorem canonical_tellInitiator {s : State} (h : canonical s) (who : Initiator) (detail addr : Nat) :
    canonical (tellInitiator s who detail addr) := by
  unfold tellInitiator
  cases who with
  | pip t => exact (tellTile_canonical _ _ _).mpr h
  | cracker c => exact canonical_haltChannel h _ _
  | remote conn =>
    dsimp only
    split
    · exact (sendNak_canonical _ _ _ _).mpr h
    · exact h
  | acorn => exact canonical_raise h _ _
  | hazel => exact canonical_raise h _ _

theorem canonical_serveAccess {s : State} (h : canonical s) (who : Initiator) (addr length : Nat) (write : Option (List Byte)) :
    canonical (serveAccess s who addr length write) := by
  unfold serveAccess
  cases write with
  | some l => grind [canonical_onProt, canonical_writeThrough, canonical_tellInitiator]
  | none => grind [canonical_onProt, canonical_readThrough, canonical_tellInitiator]

theorem canonical_serveHeldAccesses {s : State} (h : canonical s) (line : Nat) : canonical (serveHeldAccesses s line) := by
  grind [serveHeldAccesses, canonical_foldl, canonical_onProt, canonical_serveAccess]

theorem canonical_placeFirst {s : State} (h : canonical s) (conn n : Nat) : canonical (placeFirst s conn n) := by
  grind [placeFirst, onConn_canonical, canonical_placeUnseen]

/-! ## Functions of Machine/Recovery -/

theorem canonical_loseMemory {s : State} (h : canonical s) : canonical (loseMemory s) :=
  ⟨forget_wf (forget_wf (forget_wf h.1 _ _) _ _) _ _, h.2⟩

/-! ## Functions of Machine/Filling -/

theorem canonical_moveSlot {s : State} (h : canonical s) (x : LedgerItems) (g : Group) : canonical (moveSlot s x g) := by
  grind [moveSlot, canonical_foldl, canonical_readThrough, canonical_writeThrough]

theorem canonical_takeLedger {s : State} (h : canonical s) (x : LedgerItems) : canonical (takeLedger s x) := by
  grind [takeLedger, canonical_foldl, canonical_moveSlot, onTrain_canonical]

theorem canonical_sendCommitted {s : State} (h : canonical s) (node : BitVec 24) : canonical (sendCommitted s node) := by
  grind [sendCommitted, canonical_foldl, canonical_planesRecord, sendRecord_canonical]

theorem canonical_serveBehind {s : State} (h : canonical s) (c : Nat) : canonical (serveBehind s c) := by
  grind [serveBehind, canonical_foldl, canonical_sendCommitted]

theorem canonical_serveFills {s : State} (h : canonical s) (c : Nat) : canonical (serveFills s c) := by
  grind [serveFills, canonical_foldl, canonical_sendCommitted, sendRecord_canonical, canonical_serveBehind]

theorem canonical_placePlanes {s : State} (h : canonical s) (g : Group) (l : List (Byte × Bool)) : canonical (placePlanes s g l) := by
  grind [placePlanes, canonical_foldl, canonical_writeThrough]

theorem canonical_placeRows (g : Group) (n : Nat) {s : State} (h : canonical s) (l : List (Byte × Bool)) : canonical (placeRows g n s l) := by
  induction n generalizing s l with
  | zero => exact h
  | succ n ih =>
    unfold placeRows
    split
    · exact h
    · exact ih (canonical_foldl (fun t p ht => canonical_writeThrough ht _ _ _) h _) _

theorem canonical_applyRecord {s : State} (h : canonical s) (r : Saved) : canonical (applyRecord s r) := by
  grind [applyRecord, acceptShard_canonical, onResil_canonical, canonical_placePlanes, canonical_placeRows]

theorem canonical_submitRecord {s : State} (h : canonical s) (seq : Nat) : canonical (submitRecord s seq) := by
  grind [submitRecord, canonical_applyRecord, canonical_readThrough, sourceFailed_canonical]

theorem canonical_replayElems (x : Context) (coefs : Coefs) (stride base : Nat) {s : State} (h : canonical s) (l : List Nat) :
    canonical (replayElems x coefs stride base s l) := by
  induction l generalizing base s with
  | nil => exact h
  | cons v l ih =>
    have hread := canonical_foldl_snd (y := (([] : List Nat), s)) (f := fun (a : List Nat × State) p =>
        let (b, t) := readThrough a.2 .acorn (base + p * stride) 2
        (a.1 ++ [b.nat], t)) (fun a p ha => canonical_readThrough ha _ _ _) h (List.range 6)
    unfold replayElems
    split
    rename_i e
    rw [e] at hread
    exact ih _ (canonical_foldl (fun t y ht => canonical_putThrough ht _ _ _) hread _)

theorem canonical_replayGroup {s : State} (h : canonical s) (g : Group) (step : Nat) (ledger : LedgerItems) :
    canonical (replayGroup s g step ledger) := by
  unfold replayGroup
  dsimp only
  split
  · exact canonical_replayElems _ _ _ _ h _
  · refine canonical_foldl (fun t r ht => ?_) h _
    split
    · exact (touchRow_canonical _ _ _).mpr (canonical_replayElems _ _ _ _ ht _)
    · exact ht

theorem canonical_replayEnded {s : State} (h : canonical s) (ledger : LedgerItems) : canonical (replayEnded s ledger) := by
  grind [replayEnded, canonical_foldl, onFabric_canonical, onResil_canonical, onTrain_canonical, canonical_putThrough, runAgain_canonical,
      canonical_serveBehind, canonical_takeLedger]

/-! ## Functions of Machine/Mirror -/

theorem canonical_takeFill {s : State} (h : canonical s) (r : Saved) : canonical (takeFill s r) := by
  grind [takeFill, checkSources_canonical, fillEnded_canonical, onResil_canonical, restoreImage_canonical, canonical_takeLedger]

theorem canonical_takeRecord {s : State} (h : canonical s) (node : BitVec 24) (l : List (Byte × Bool)) : canonical (takeRecord s node l) := by
  grind [takeRecord, ackRecord_canonical, onResil_canonical, canonical_placeIn, canonical_raise, sourceFailed_canonical, canonical_takeFill]

theorem canonical_startTransfer {s : State} (h : canonical s) : canonical (startTransfer s) := by
  unfold startTransfer
  split
  · exact h
  · extract_lets c
    have hread := canonical_foldl_snd (y := (([] : List Saved), s)) (f := fun (a : List Saved × State) g =>
        let (r, t) := planesRecord a.2 6 c g
        (a.1 ++ r.toList, t)) (fun a g ha => canonical_planesRecord ha 6 c g) h
      ((validGroups s.dict.values).filter (fun g => saveMethod s g.number == 1))
    split
    rename_i e
    rw [e] at hread
    exact canonical_foldl (fun t r ht => (sendRecord_canonical _ _ _).mpr ht) ((onResil_canonical _ _).mpr hread) _

theorem canonical_inputRecords {s : State} (h : canonical s) : canonical (inputRecords s).2 := by
  refine canonical_foldl_snd (fun a r ha => ?_) h _
  exact canonical_readThrough ha _ _ _

theorem canonical_copyToTwin {s : State} (h : canonical s) : canonical (copyToTwin s) := by
  grind [copyToTwin, canonical_foldl, canonical_inputRecords, canonical_planesRecord, sendRecord_canonical]

theorem canonical_joinTwin {s : State} (h : canonical s) (r : Saved) : canonical (joinTwin s r) := by
  grind [joinTwin, clearStep_canonical, endWork_canonical, canonical_foldl, onTrain_canonical, canonical_placePlanes, canonical_takeLedger,
      takeTwinImage_canonical, canonical_writeThrough]

theorem canonical_lineFreed {s : State} (h : canonical s) (line : Nat) : canonical (lineFreed s line) := by
  grind [lineFreed, admitWaiting_canonical, lineReturned_canonical, onCache_canonical, releaseLine_canonical, canonical_serveHeld,
      canonical_serveHeldAccesses]

theorem canonical_refuseHeld {s : State} (h : canonical s) (line : Nat) : canonical (refuseHeld s line) := by
  grind [refuseHeld, canonical_foldl, canonical_onProt, canonical_tellInitiator]

theorem canonical_lineAnswer {s : State} (h : canonical s) (node : BitVec 24) (a step : Nat) : canonical (lineAnswer s node a step).2.2 := by
  grind [lineAnswer, canonical_readThrough]

/-! ## Functions of Machine/Security -/

/-- The test state starts from memory and banks that were never written. -/
theorem canonical_enterTest {s : State} {v : Nat} {t : State} (h : enterTest s v = .ok t) : canonical t := by
  unfold enterTest at h
  split at h
  · cases h
  · cases h
    exact ⟨neverWritten_wf, neverWritten_wf⟩

/-! ## Functions of Machine/Server -/

theorem canonical_rwAfter {s : State} (h : canonical s) (key : Nat) (entries : List Nat) : canonical (rwAfter s key entries) := by
  have hafter : canonical (match key with
    | 0x500001 => entries.foldl applyPortMode s
    | 0x500103 => releaseReroute s
    | 0x580001 => entries.foldl retrainPort s
    | 0x580006 => entries.foldl resumePort s
    | 0x600001 => startTransfer s
    | 0x600007 => exportDue s
    | _ => s) := by
    split <;> simp [h, canonical_startTransfer h]
  unfold rwAfter
  dsimp only
  split
  · exact (saveImage_canonical _).mpr hafter
  · exact hafter

/-! ## Functions of Machine/Matrix -/

theorem canonical_readStored (n : Nat) (x : Operand) (i k : Nat) {s : State} (h : canonical s) : canonical (readStored n x i k s).2 := by
  refine canonical_andThen (canonical_readFor _ _ _ _ h) fun b t ht => ?_
  dsimp only
  split
  · exact canonical_andThen (canonical_readFor _ _ _ _ ht) fun _ _ hu => hu
  · exact ht

theorem canonical_readLine (n profile : Nat) (x : Operand) (i : Nat)  {s : State} (h : canonical s) : canonical (readLine n profile x i s).2 :=
  canonical_andThen (canonical_each (fun k _ ht => canonical_readStored n x i k ht) _ h) fun _ _ ht =>
    canonical_andThen (canonical_each (fun _ _ hu => canonical_andThen (canonical_readFor _ _ _ _ hu) fun _ _ hv => hv) _ ht) fun _ _ hu => hu

theorem canonical_startValue (n : Nat) (m : Mat) (off : Nat) {s : State} (h : canonical s) : canonical (startValue n m off s).2 := by
  grind [startValue, canonical_readBankWord]

theorem canonical_matmulOuts (n : Nat) (m : Mat) (x : Context) {s : State} (h : canonical s) : canonical (matmulOuts n m x s).2 :=
  canonical_andThen (canonical_each (fun _ _ ht => canonical_readLine n _ m.a _ ht) _ h) fun _ _ ht =>
    canonical_andThen (canonical_each (fun _ _ hu => canonical_readLine n _ m.b _ hu) _ ht) fun _ _ hu =>
      canonical_andThen (canonical_each (fun _ _ hv => canonical_andThen (canonical_startValue n m _ hv) fun _ _ hw => hw) _ hu) fun _ _ hv => hv

theorem canonical_forgetRegion (n : Nat) (m : Mat) {s : State} (h : canonical s) : canonical (forgetRegion n m s) :=
  ⟨h.1, foldl_forget_wf h.2 _ _ _⟩

theorem canonical_runMatmul (n : Nat) (m : Mat) {s : State} (h : canonical s) : canonical (runMatmul n m s).2 := by
  have houts := canonical_matmulOuts n m (contextOf s n) h
  unfold runMatmul
  split <;> rename_i e <;> rw [e] at houts
  · exact canonical_forgetRegion n m ((countMatmul_canonical n m _).mpr houts)
  · exact houts
  · rename_i r _ _ _
    extract_lets key s2
    have hbank := canonical_writeBankElems (s := s2) houts r
    split <;> rename_i e <;> rw [e] at hbank
    · exact canonical_forgetRegion n m ((countMatmul_canonical n m _).mpr hbank)
    · exact (countMatmul_canonical n m _).mpr hbank

/-! ## Functions of Machine/Scrub -/

theorem canonical_scrubRow {s : State} (h : canonical s) (a store : Nat) : canonical (scrubRow s a store) := by
  grind [scrubRow, canonical_onProt, canonical_repairRowAt]

theorem canonical_scrubMemory {s0 : State} (h : canonical s0) (a store : Nat) : canonical (scrubMemory s0 a store) := by
  have hs := canonical_lookupTags h a 8
  have hput : ∀ f x, canonical { (lookupTags s0 a 8).onProt f with mem := putWord (lookupTags s0 a 8).mem (a / 8) x false } :=
    fun f x => canonical_putWord (canonical_onProt hs f) _ _ _
  grind [scrubMemory, canonical_holdLine, canonical_onProt, scrubNote_canonical, canonical_scrubRow]

theorem canonical_scrubWord {s : State} (h : canonical s) (x : ScrubWord) (store : Nat) : canonical (scrubWord s x store) := by
  cases x with
  | memory a => exact canonical_scrubMemory h a store
  | husk copy => exact (scrubHusk_canonical _ _).mpr h

/-! ## Functions of Machine/Streams -/

theorem canonical_streamTensor (n : Nat) (t : Tile) (pointer : Nat) {s : State} (h : canonical s) : canonical (streamTensor n t pointer s).2 := by
  grind [streamTensor, Got.andThen_canonical, canonical_fetch64]

theorem canonical_moveElems (n es : Nat) (l : List (Option Nat × Nat)) (b : Bundle) {s : State} (h : canonical s) :
    canonical (moveElems n es l b s).2 := by
  induction l generalizing b s with
  | nil => exact h
  | cons e l ih =>
    obtain ⟨_ | a, d⟩ := e
    · exact ih _ h
    · have hr := canonical_readFor (.pip n) 4 a es h
      unfold moveElems
      split <;> rename_i e <;> rw [e] at hr
      · exact ih _ hr
      · exact hr
      · exact hr

theorem canonical_moveRows (n : Nat) (x : Stream) (l : List (List Nat)) (b : Bundle) {s : State} (h : canonical s) :
    canonical (moveRows n x l b s).2 := by
  induction l generalizing b s with
  | nil => exact h
  | cons c l ih => grind [moveRows, canonical_readFor, canonical_moveElems]

theorem canonical_moveStream (n : Nat) (x : Stream) {s : State} (h : canonical s) : canonical (moveStream n x s).2 := by
  grind [moveStream, canonical_foldl, canonical_moveElems, canonical_moveRows]

theorem canonical_forgetMoved (n : Nat) (b : Bundle) {s : State} (h : canonical s) : canonical (forgetMoved n b s) := by
  grind [forgetMoved, canonical_forgetBundle]

theorem canonical_runStream (n ch : Nat) (x : Stream) {s : State} (h : canonical s) : canonical (runStream n ch x s).2 := by
  grind [runStream, countStream_canonical, canonical_forgetMoved, canonical_moveStream, runAhead_canonical, canonical_writeFor]

end Sys2Proof.Machine
end

section
/-! The canonical form of memory and banks at starts and resets, retirements, images, built-in tests and boundaries (O55) -/

namespace Sys2Proof.Machine

open Sys2Proof

/-! ## Starts, stops and resets: the words were never written (R206) -/

theorem canonical_startState (s : State) (mv : Nat) : canonical (startState s mv) := ⟨neverWritten_wf, neverWritten_wf⟩

theorem canonical_stoppedState (s : State) (v36 present low : Bool) (mv : Nat) : canonical (stoppedState s v36 present low mv) :=
  canonical_startState s mv

theorem canonical_startOrStay (s : State) (v36 present low : Bool) (mv : Nat) : canonical (startOrStay s v36 present low mv) := by
  unfold startOrStay
  split
  · dsimp only
    split
    · exact canonical_raise (s := (startState s mv).onPower _) (canonical_startState s mv) _ _
    · exact canonical_startState s mv
  · exact canonical_stoppedState s _ _ _ mv

theorem canonical_stackResetWith (s : State) (cause : Nat) (code : Code) : canonical (stackResetWith s cause code) := by
  unfold stackResetWith
  extract_lets s1 t
  have ht : canonical t := (onPower_canonical _ _).mpr (canonical_startState s1 _)
  exact canonical_raise ((onResil_canonical t _).mpr ht) _ _

/-! ## Retirements (R346) -/

@[simp] theorem logRetirements_canonical (s : State) (l : List Retirement) : canonical (logRetirements s l) ↔ canonical s := Iff.rfl

theorem canonical_retireTile {s : State} (h : canonical s) (p : Nat) : canonical (retireTile s p) := by
  unfold retireTile
  extract_lets k s1
  have h1 : canonical s1 := h
  clear_value s1
  split
  · exact h
  · split
    · exact h1
    · split
      · exact canonical_forgetTile ((onStack_canonical s1 _).mpr h1) _
      · have h2 (f : Stack → Stack) (i j : Nat) : canonical (forgetTile (forgetTile (s1.onStack f) i) j) :=
          canonical_forgetTile (canonical_forgetTile ((onStack_canonical s1 f).mpr h1) i) j
        simp [h2]

@[simp] theorem retireSliceNow_canonical (s : State) (i : Nat) : canonical (retireSliceNow s i) ↔ canonical s := by
  unfold retireSliceNow
  split
  · rfl
  · have hempty := emptySlice_canonical s i
    extract_lets s1
    change canonical s1 ↔ canonical s at hempty
    clear_value s1
    dsimp only
    split
    · rw [stopModule_canonical, raise_canonical, logRetirements_canonical]
      exact hempty
    · split
      · rw [stopModule_canonical, raise_canonical, logRetirements_canonical]
        exact hempty
      · rw [foldl_canonical fun t e => by rw [displaceLines_canonical, limitHints_canonical]]
        exact hempty

@[simp] theorem logLosses_canonical (s : State) : canonical (logLosses s) ↔ canonical s := Iff.rfl

theorem canonical_applyRetirements {s : State} (h : canonical s) (tiles slices : NatSet) : canonical (applyRetirements s tiles slices) := by
  unfold applyRetirements
  split
  · exact h
  · rw [logLosses_canonical, foldl_canonical retireSliceNow_canonical]
    exact canonical_foldl (fun _ p ht => canonical_retireTile ht p) h _

/-! ## Images (R347 to R350) -/

@[simp] theorem setCopyState_canonical (s : State) (copy st : Nat) : canonical (setCopyState s copy st) ↔ canonical s := Iff.rfl

@[simp] theorem skipCopy_canonical (s : State) (copy : Nat) : canonical (skipCopy s copy) ↔ canonical s := by simp [skipCopy]

@[simp] theorem chooseCopy_canonical (l : List Nat) (s : State) : canonical (chooseCopy l s).2 ↔ canonical s := by
  induction l generalizing s with
  | nil => rfl
  | cons c l ih => simp [chooseCopy, ih]

@[simp] theorem chooseDefaults_canonical (l : List Nat) (s : State) : canonical (chooseDefaults l s) ↔ canonical s := by
  induction l generalizing s with
  | nil => simp [chooseDefaults]
  | cons c l ih =>
    have hc := chooseCopy_canonical [c] s
    unfold chooseDefaults
    split <;> rename_i e <;> rw [e] at hc
    · rw [ih]
      exact hc
    · split
      · rw [ih, refuseImage_canonical]
        exact hc
      · split
        · rw [takeDefaults_canonical]
          exact hc
        · rw [ih, refuseImage_canonical]
          exact hc

@[simp] theorem setCopy_canonical (s : State) (c : Nat) (x : FlashCopy) : canonical (setCopy s c x) ↔ canonical s := Iff.rfl

@[simp] theorem writeUploadTarget_canonical (s : State) (v : Nat) : canonical (writeUploadTarget s v) ↔ canonical s := by
  unfold writeUploadTarget
  dsimp only
  split <;> simp

theorem uploadBytes_canonical (s : State) (off : Nat) (l : List Byte) {t : State} (h : uploadBytes s off l = .ok t) : canonical t ↔ canonical s := by
  grind [uploadBytes, setCopy_canonical]

theorem verifyUpload_canonical (s : State) {t : State} (h : verifyUpload s = .ok t) : canonical t ↔ canonical s := by
  grind [verifyUpload, setCopyState_canonical, raise_canonical]

@[simp] theorem commitFloor_canonical (s : State) : canonical (commitFloor s) ↔ canonical s := by simp [commitFloor]

theorem requestReport_canonical (s : State) (nonce : List Byte) {t : State} (h : requestReport s nonce = .ok t) : canonical t ↔ canonical s := by
  grind [requestReport, onFlash_canonical, onBoot_canonical, raise_canonical]

/-! ## Built-in test (R354) -/

@[simp] theorem bistSlice_canonical (s : State) (i : Nat) : canonical (bistSlice s i).1 ↔ canonical s := by
  simp [bistSlice]

@[simp] theorem bistSlices_canonical (l : List Nat) (s : State) : canonical (bistSlices l s).1 ↔ canonical s := by
  induction l generalizing s with
  | nil => rfl
  | cons i l ih => simp [bistSlices, ih]

@[simp] theorem bistTile_canonical (s : State) (p : Nat) (code : Code) : canonical (bistTile s p code) ↔ canonical s := by
  simp [bistTile]

@[simp] theorem bistInterface_canonical (s : State) (f n : Nat) : canonical (bistInterface s f n).1 ↔ canonical s := by
  unfold bistInterface
  extract_lets left s1 s2 s3
  have h2 : canonical s2 ↔ canonical s := by
    rw [raise_canonical, logRetirements_canonical, onStack_canonical, onStack_canonical]
  have h3 : canonical s3 ↔ canonical s := by
    simp only [s3]
    split
    · exact h2
    · exact h2
  split
  · rfl
  · exact (bistSlices_canonical _ _).trans h3

@[simp] theorem bistInterfaces_canonical (l : List (Nat × Nat)) (s : State) : canonical (bistInterfaces l s).1 ↔ canonical s := by
  induction l generalizing s with
  | nil => rfl
  | cons e l ih => simp [bistInterfaces, ih]

@[simp] theorem bistMarch_canonical (l : List Nat) (s : State) : canonical (bistMarch l s).1 ↔ canonical s := by
  induction l generalizing s with
  | nil => rfl
  | cons i l ih => simp [bistMarch, ih]

@[simp] theorem bistTests_canonical (s : State) (found : BistFinding) : canonical (bistTests s found).1 ↔ canonical s := by
  simp [bistTests]

@[simp] theorem bistChannel_canonical (s : State) (c : Nat) : canonical (bistChannel s c).1 ↔ canonical s := by
  simp [bistChannel]

@[simp] theorem bistChannels_canonical (l : List Nat) (s : State) : canonical (bistChannels l s).1 ↔ canonical s := by
  induction l generalizing s with
  | nil => rfl
  | cons c l ih => simp [bistChannels, ih]

@[simp] theorem bistHbm_canonical (s : State) (found : HbmFinding) : canonical (bistHbm s found).1 ↔ canonical s := by
  simp [bistHbm]

theorem canonical_rerunTests {s : State} (h : canonical s) (found : Findings) : canonical (rerunTests s found) := by
  unfold rerunTests
  dsimp only
  have htests (f : Stack → Stack) (l : List Nat) : canonical (l.foldl retireTile
      ((bistHbm (bistTests { s with boot := { s.boot with bistReport := [] } } found.1).1 found.2).1.onStack f)) :=
    canonical_foldl (fun _ p ht => canonical_retireTile ht p) (by simpa using h) l
  split
  · exact htests _ _
  · exact (stopModule_canonical _).mpr (htests _ _)

/-! ## Boundaries of steps and of recoveries -/

theorem canonical_runBoundary {s : State} (h : canonical s) (periods : Nat) : canonical (runBoundary s periods) := by
  unfold runBoundary
  extract_lets step r l log tiles slices epochs s1 s2 carrier s3 s4 s5 s6 s7
  have h2 : canonical s2 := canonical_foldl (fun t x ht => canonical_writeLog ht step x) ((countLate_canonical _).mpr (canonical_commitOutcome h r)) l
  have h3 : canonical s3 := by
    simp only [s3, dropRemoved_canonical, applyEpochs_canonical]
    exact canonical_applyStaged ((carryDeferred_canonical _ _).mpr h2)
  have h6 : canonical s6 := canonical_releaseAll ((clearStep_canonical _).mpr ((onTrain_canonical s4 _).mpr (canonical_applyRetirements h3 _ _))) step
  exact (takeEarlyTwin_canonical _).mpr (canonical_serveHeld (canonical_settleAll ((onResil_canonical _ _).mpr (canonical_saveStep h6 step log))))

theorem canonical_recoveryBoundary {s : State} (h : canonical s) (r : RecoveryRecord) : canonical (recoveryBoundary s r) := by
  unfold recoveryBoundary
  extract_lets s0 failed escaped kept s1 s2 s3 s4 s5 s6 s7 s8
  have h0 : canonical s0 := canonical_foldl (fun t e ht => canonical_raise ht _ _) h _
  have h3 : canonical s3 := by
    simp only [s3, s2, s1, loseDeferred_canonical, onResil_canonical, onFabric_canonical, onTrain_canonical, clearStep_canonical, endWork_canonical]
    exact canonical_freeStages h0
  have h5 : canonical s5 := (onProt_canonical _ _).mpr ((logRetirements_canonical _ _).mpr (canonical_applyRetirements h3 _ _))
  clear_value s5
  have h6 : canonical s6 := by
    simp only [s6]
    split <;> simpa using h5
  refine canonical_settleAll ?_
  simp only [reportCommitted_canonical, resendRecords_canonical, s8, exportDue_canonical, onResil_canonical, s7, onTrain_canonical]
  exact h6

theorem canonical_writeRecovery {s : State} (h : canonical s) (l : List Byte) {t : State} (ht : writeRecovery s l = .ok t) : canonical t := by
  unfold writeRecovery at ht
  split at ht
  · cases ht
  · cases ht
    split
    · exact h
    · exact canonical_recoveryBoundary h _

end Sys2Proof.Machine
end

section
/-! The canonical form of memory and banks after a request: writes, batches, sessions and relayed requests (O55) -/

namespace Sys2Proof.Machine

open Sys2Proof

/-! ## Writes (R325) -/

theorem canonical_requestMargin {s : State} (h : canonical s) (found : Findings) (l : List Byte) {t : State}
    (ht : requestMargin s found l = .ok t) : canonical t := by
  unfold requestMargin at ht
  split at ht
  · cases ht
    exact canonical_rerunTests h found
  · split at ht
    · cases ht
    · cases ht
      exact h

theorem boolAction_canonical (s : State) (key : Nat) {t : State} (h : boolAction s key = .ok t) : canonical t ↔ canonical s := by
  unfold boolAction at h
  split at h
  case h_2 => exact verifyUpload_canonical s h
  all_goals
    cases h
    simp

theorem canonical_woAction (found : Findings) {s : State} (h : canonical s) (o : Obj) (off : Nat) (data : List Byte) (applyAt : Nat) {t : State}
    (ht : woAction found s o off data applyAt = .ok t) : canonical t := by
  unfold woAction at ht
  dsimp only at ht
  have ht := acted_flash ht
  split at ht
  · split at ht
    · exact (boolAction_canonical s _ ht).mpr h
    · cases ht
      exact h
  · split at ht
    · cases ht; simpa using h
    · exact (uploadBytes_canonical s off data ht).mpr h
    · exact canonical_abortStep h _ ht
    · cases ht; simpa using h
    · exact (acceptEpoch_canonical s _ _ ht).mpr h
    · exact (portResetWrite_canonical s _ ht).mpr h
    · exact (connControl_canonical s _ ht).mpr h
    · exact canonical_queueControl h _ ht
    · exact canonical_writeRecovery h data ht
    · exact (resumeModule_canonical s _ ht).mpr h
    · cases ht; exact canonical_submitRecord h _
    · exact (requestReport_canonical s data ht).mpr h
    · exact canonical_requestMargin h found data ht
    · cases ht; exact h

theorem canonical_typedWrite {s : State} (h : canonical s) (key off : Nat) (data : List Byte) {t : State}
    (ht : typedWrite s key off data = .ok t) : canonical t := by
  unfold typedWrite at ht
  dsimp only at ht
  split at ht
  · cases ht; exact h
  · cases ht; exact h
  · cases ht; exact (writeUploadTarget_canonical s _).mpr h
  · split at ht
    · cases ht; exact h
    · cases ht
  · split at ht
    · cases ht; exact h
    · exact canonical_enterTest ht

theorem canonical_rwWrite {s : State} (h : canonical s) (o : Obj) (off : Nat) (data : List Byte) (source : Nat) {t : State}
    (ht : rwWrite s o off data source = .ok t) : canonical t := by
  unfold rwWrite at ht
  dsimp only at ht
  split at ht
  · split at ht
    · next u hu =>
      cases ht
      exact (onDict_canonical u _).mpr (canonical_typedWrite h _ _ _ (acted_flash hu))
    · cases ht
  · split at ht
    · cases ht
    · cases ht
      exact canonical_rwAfter ((onDict_canonical _ _).mpr ((onDict_canonical s _).mpr h)) _ _

theorem canonical_writePart (found : Findings) (n applyAt : Nat) {s : State} (h : canonical s) (x : PartWrite) {t : State}
    (ht : writePart found n applyAt s x = .ok t) : canonical t := by
  unfold writePart at ht
  split at ht
  · exact canonical_rwWrite h _ _ _ _ ht
  · cases ht; exact h
  · exact canonical_woAction found h _ _ _ _ ht

theorem canonical_writeParts (found : Findings) (n applyAt : Nat) {s : State} (h : canonical s) (l : List PartWrite) {t : State}
    (ht : writeParts found n applyAt s l = .ok t) : canonical t := by
  induction l generalizing s with
  | nil =>
    cases ht
    exact h
  | cons x l ih =>
    unfold writeParts at ht
    split at ht
    · next u hu => exact ih (canonical_writePart found n applyAt h x hu) ht
    · cases ht

theorem canonical_acceptWrites (found : Findings) {s : State} (h : canonical s) (applyAt : Nat) (l : List PartWrite) {a : State × Nat × Nat}
    (ha : acceptWrites found s applyAt l = .ok a) : canonical a.1 := by
  unfold acceptWrites at ha
  dsimp only at ha
  split at ha
  · cases ha
  · split at ha
    · cases ha
    · next t ht =>
      cases ha
      exact canonical_writeParts found _ _ ((onDict_canonical s _).mpr h) l ht

/-! ## Requests -/

theorem canonical_sealBatch (found : Findings) {s : State} (h : canonical s) (x : Session) (r : Request) :
    canonical (sealBatch found s x r).state := by
  unfold sealBatch
  split
  · exact h
  · extract_lets s1
    have h1 : canonical s1 := (removeBatch_canonical s _ _).mpr h
    clear_value s1
    split
    · exact h1
    · split
      · exact h1
      · split
        · exact h1
        · split
          · exact h1
          · next ha => exact canonical_acceptWrites found h1 _ _ ha

theorem canonical_writeRequest (found : Findings) {s : State} (h : canonical s) (x : Session) (op : Nat) (r : Request) :
    canonical (writeRequest found s x op r).state := by
  unfold writeRequest
  dsimp only
  split
  · exact (batchPart_canonical s x op r _).mpr h
  · split
    · exact h
    · split
      · exact h
      · next ha => exact canonical_acceptWrites found h _ _ ha

theorem canonical_perform (found : Findings) {s : State} (h : canonical s) (op : Nat) (r : Request) : canonical (perform found s op r).state := by
  unfold perform
  split
  · exact h
  · split
    case h_5 => exact canonical_sealBatch found h _ r
    case h_7 => exact canonical_writeRequest found h _ _ r
    all_goals simpa using h

theorem canonical_touch {s : State} (h : canonical s) (x : Session) : canonical (performKept.touch s x) := by
  unfold performKept.touch
  split <;> exact h

theorem canonical_performKept (found : Findings) {s : State} (h : canonical s) (op : Nat) (r : Request) :
    canonical (performKept found s op r).state := by
  unfold performKept
  split
  · exact canonical_perform found h op r
  · split
    · exact canonical_touch h _
    · split
      · exact canonical_touch h _
      · exact (onSession_canonical _ _ _).mpr (canonical_perform found (canonical_touch h _) op r)

theorem canonical_answerOwn (found : Findings) {s : State} (h : canonical s) (op : Nat) (r : Request) : canonical (answerOwn found s op r).state := by
  unfold answerOwn
  split
  · exact h
  · exact canonical_performKept found h op r

theorem canonical_afterReply {s : State} (h : canonical s) (reset : Option Nat) : canonical (afterReply s reset) := by
  unfold afterReply
  split
  · exact canonical_stackResetWith s _ 0
  · exact h

theorem canonical_answerRelayed {s : State} (h : canonical s) (p : Packet) : canonical (answerRelayed s p).1 := by
  unfold answerRelayed
  dsimp only
  split
  · exact h
  · rw [sendPacket_canonical]
    exact canonical_answerOwn _ h _ _

end Sys2Proof.Machine
end

section
/-! The canonical form of memory and banks after the commands but those of the tiles and the Cracker (O55) -/

namespace Sys2Proof.Machine

open Sys2Proof

/-- Whatever state the command leaves, its memory and banks are in canonical form. -/
def leavesCanonical (o : Host.Outcome State Fault Refusal) : Prop := ∀ t, o = .next t → canonical t

@[simp] theorem leavesCanonical_next {t : State} : leavesCanonical (.next t) ↔ canonical t := by
  refine ⟨fun h => h t rfl, fun h u hu => ?_⟩
  cases hu
  exact h

@[simp] theorem leavesCanonical_done {s t : State} : leavesCanonical (done s t) ↔ canonical t := by
  rw [done, leavesCanonical_next, noteChanges_canonical]

@[simp] theorem leavesCanonical_restarted {s t : State} : leavesCanonical (restarted s t) ↔ canonical t := leavesCanonical_next

@[simp] theorem leavesCanonical_ite {c : Prop} [Decidable c] {a b : Host.Outcome State Fault Refusal} :
    leavesCanonical (if c then a else b) ↔ (c → leavesCanonical a) ∧ (¬ c → leavesCanonical b) := by
  split <;> simp [*]

theorem canonical_withPacket {f : State → State} (hf : ∀ t, canonical t → canonical (f t)) {s : State} (h : canonical s) (ptype : Nat) (p : Packet) :
    leavesCanonical (withPacket s ptype p f) := by
  unfold withPacket
  split
  · exact leavesCanonical_next.mpr h
  · split
    · next t ht => exact leavesCanonical_done.mpr (hf t ((takePacket_canonical s ptype p ht).mpr h))
    · exact leavesCanonical_done.mpr ((dropPacket_canonical s p).mpr h)

theorem canonical_ownPart {f : State → CollKey → Nat → State} (hf : ∀ {t : State}, canonical t → ∀ k n, canonical (f t k n)) {s : State}
    (h : canonical s) (k : CollKey) (kind : Nat) : leavesCanonical (ownPart s k kind f) := by
  unfold ownPart
  dsimp only
  split
  · exact leavesCanonical_next.mpr h
  · exact leavesCanonical_done.mpr (hf ((onColl_canonical s k _ _).mpr h) k _)

theorem canonical_finishRequest {s t : State} (h : canonical t) (reset : Option Nat) : leavesCanonical (finishRequest s t reset) := by
  unfold finishRequest
  split
  · exact leavesCanonical_restarted.mpr (canonical_afterReply h reset)
  · exact leavesCanonical_done.mpr h

/-- Every request at the management port. -/
theorem canonical_serve (found : Findings) (op : Nat) (r : Request) {s : State} (h : canonical s) : leavesCanonical (serve found op r s) := by
  unfold serve
  split
  · exact leavesCanonical_next.mpr h
  · split
    · split
      · exact leavesCanonical_done.mpr h
      · exact leavesCanonical_done.mpr ((relayRequest_canonical s op r).mpr h)
    · exact canonical_finishRequest ((emit_canonical _ _).mpr (canonical_answerOwn found h op r)) _

theorem canonical_serveWrite (key : Nat) (found : Findings) (r : Request) {s : State} (h : canonical s) :
    leavesCanonical (serveWrite key found r s) := by
  unfold serveWrite
  split
  · exact canonical_serve found 2 r h
  · exact leavesCanonical_next.mpr h

theorem canonical_resetStack {s : State} (h : canonical s) (cause : Nat) (code : Code) : leavesCanonical (resetStack s cause code) := by
  unfold resetStack
  split
  · exact leavesCanonical_restarted.mpr (canonical_stackResetWith s cause code)
  · exact leavesCanonical_next.mpr h

theorem execRomVerify_canonical {s : State} (h : canonical s) : leavesCanonical (execRomVerify s) := by
  grind [execRomVerify, leavesCanonical_next, leavesCanonical_done, chooseCopy_canonical, onBoot_canonical]

theorem execHazelBoot_canonical {s : State} (h : canonical s) : leavesCanonical (execHazelBoot s) := by
  grind [execHazelBoot, leavesCanonical_next, leavesCanonical_done, chooseCopy_canonical, onBoot_canonical, onFlash_canonical, canonical_raise]

theorem execBuiltInTest_canonical (found : BistFinding) {s : State} (h : canonical s) : leavesCanonical (execBuiltInTest found s) := by
  unfold execBuiltInTest
  split
  · exact leavesCanonical_next.mpr h
  · dsimp only
    have htests (t : State) (ht : canonical t) : canonical (bistTests t found).1 := (bistTests_canonical t found).mpr ht
    split
    · rw [leavesCanonical_done, unserviceable_canonical, mapTiles_canonical, setBist_canonical]
      exact h
    · split
      · rw [leavesCanonical_done, onBoot_canonical, mapTiles_canonical]
        exact htests _ h
      · rw [leavesCanonical_done, unserviceable_canonical, mapTiles_canonical]
        exact htests _ h

theorem execHbmTraining_canonical (found : HbmFinding) {s : State} (h : canonical s) : leavesCanonical (execHbmTraining found s) := by
  grind [execHbmTraining, leavesCanonical_next, leavesCanonical_done, bistHbm_canonical, canonical_foldl, onBoot_canonical, onDict_canonical,
      unserviceable_canonical]

theorem execConverterFail_canonical (converter : Nat) {s : State} (h : canonical s) : leavesCanonical (execConverterFail converter s) := by
  unfold execConverterFail
  split
  · exact leavesCanonical_next.mpr h
  · dsimp only
    split
    · simpa using h
    · simpa using h
    · exact leavesCanonical_restarted.mpr (canonical_stoppedState s _ _ _ _)

theorem execThermalTrip_canonical {s : State} (h : canonical s) : leavesCanonical (execThermalTrip s) := by
  unfold execThermalTrip
  split
  · exact leavesCanonical_next.mpr h
  · dsimp only
    split
    · exact leavesCanonical_restarted.mpr (canonical_stackResetWith _ 3 0)
    · exact leavesCanonical_next.mpr h

theorem execStepBoundary_canonical (durationPeriods : Nat) {s : State} (h : canonical s) : leavesCanonical (execStepBoundary durationPeriods s) := by
  have hstep := canonical_runBoundary h durationPeriods
  unfold execStepBoundary
  split
  · exact leavesCanonical_next.mpr h
  · dsimp only
    split
    · exact leavesCanonical_done.mpr hstep
    · split
      · exact leavesCanonical_done.mpr (canonical_recoveryBoundary hstep _)
      · exact leavesCanonical_done.mpr (canonical_raise ((onResil_canonical _ _).mpr hstep) _ _)

theorem execRelayedRequest_canonical (p : Packet) {s : State} (h : canonical s) : leavesCanonical (execRelayedRequest p s) := by
  unfold execRelayedRequest
  split
  · exact leavesCanonical_next.mpr h
  · split
    · exact leavesCanonical_done.mpr ((dropPacket_canonical s p).mpr h)
    · next t ht => exact canonical_finishRequest (canonical_answerRelayed ((takePacket_canonical _ _ _ ht).mpr h) p) _

theorem execDefaultsApply_canonical {s : State} (h : canonical s) : leavesCanonical (execDefaultsApply s) := by
  grind [execDefaultsApply, leavesCanonical_next, leavesCanonical_done, becomeReady_canonical, chooseDefaults_canonical, unserviceable_canonical]

theorem execRailsUp_canonical {s : State} (h : canonical s) : leavesCanonical (execRailsUp s) := by
  grind [execRailsUp, leavesCanonical_next, leavesCanonical_done, onBoot_canonical, onPower_canonical]

theorem execServiceFill_canonical {s : State} (h : canonical s) : leavesCanonical (execServiceFill s) := by
  grind [execServiceFill, leavesCanonical_next, leavesCanonical_done, onBoot_canonical]

theorem execMgmtLinkLoss_canonical {s : State} (h : canonical s) : leavesCanonical (execMgmtLinkLoss s) := by
  grind [execMgmtLinkLoss, leavesCanonical_next, leavesCanonical_done]

theorem execRailBelowFloor_canonical (layer mv : Nat) {s : State} (h : canonical s) : leavesCanonical (execRailBelowFloor layer mv s) := by
  grind [execRailBelowFloor, leavesCanonical_next, leavesCanonical_done, onPower_canonical, canonical_raise]

theorem execRailAboveFloor_canonical (layer mv : Nat) {s : State} (h : canonical s) : leavesCanonical (execRailAboveFloor layer mv s) := by
  grind [execRailAboveFloor, leavesCanonical_next, leavesCanonical_done, admitWaiting_canonical, onPower_canonical]

theorem execPaceWindow_canonical (rings : List Nat) {s : State} (h : canonical s) : leavesCanonical (execPaceWindow rings s) := by
  grind [execPaceWindow, leavesCanonical_next, leavesCanonical_done, onPower_canonical]

theorem execPowerSample_canonical (x : PowerReading) {s : State} (h : canonical s) : leavesCanonical (execPowerSample x s) := by
  grind [execPowerSample, leavesCanonical_next, leavesCanonical_done, controlSample_canonical, onCracker_canonical, onPower_canonical,
      readSensors_canonical]

theorem execRampStep_canonical {s : State} (h : canonical s) : leavesCanonical (execRampStep s) := by
  grind [execRampStep, leavesCanonical_next, leavesCanonical_done, tryRamp_canonical]

theorem execDroopBegin_canonical (rail mv : Nat) {s : State} (h : canonical s) : leavesCanonical (execDroopBegin rail mv s) := by
  grind [execDroopBegin, leavesCanonical_next, leavesCanonical_done, onPower_canonical]

theorem execDroopEnd_canonical (rail mv : Nat) {s : State} (h : canonical s) : leavesCanonical (execDroopEnd rail mv s) := by
  grind [execDroopEnd, leavesCanonical_next, leavesCanonical_done, endDroop_canonical, tryRamp_canonical]

theorem execGateRestartStep_canonical (row : Nat) {s : State} (h : canonical s) : leavesCanonical (execGateRestartStep row s) := by
  grind [execGateRestartStep, leavesCanonical_next, leavesCanonical_done, onPower_canonical]

theorem execThermalLimitStep_canonical {s : State} (h : canonical s) : leavesCanonical (execThermalLimitStep s) := by
  grind [execThermalLimitStep, leavesCanonical_next, leavesCanonical_done, canonical_foldl, onPower_canonical, canonical_raise]

theorem execVerticalTransfer_canonical (column interface : Nat) (attempts : List TransferAttempt) (spareTests : List Bool) {s : State}
    (h : canonical s) :
    leavesCanonical (execVerticalTransfer column interface attempts spareTests s) := by
  grind [execVerticalTransfer, leavesCanonical_next, leavesCanonical_done, countNamings_canonical, emit_canonical, failedTransfer_canonical,
      onStack_canonical]

theorem execPowerClusterFail_canonical (tile : Nat) {s : State} (h : canonical s) : leavesCanonical (execPowerClusterFail tile s) := by
  grind [execPowerClusterFail, leavesCanonical_next, leavesCanonical_done, decideTile_canonical, onPower_canonical, onStack_canonical,
      canonical_raise]

theorem execTileFloorTimeout_canonical (tile : Nat) {s : State} (h : canonical s) : leavesCanonical (execTileFloorTimeout tile s) := by
  grind [execTileFloorTimeout, leavesCanonical_next, leavesCanonical_done, decideTile_canonical, canonical_raise, canonical_withholdCut]

theorem execHomeSliceAccess_canonical (who : Initiator) (addr length : Nat) (write : Option (List Byte)) {s : State} (h : canonical s) :
    leavesCanonical (execHomeSliceAccess who addr length write s) := by
  unfold execHomeSliceAccess
  split
  · exact leavesCanonical_next.mpr h
  · split
    · exact leavesCanonical_done.mpr (canonical_placeFirst h _ _)
    · split
      · exact leavesCanonical_done.mpr (canonical_tellInitiator h _ _ _)
      · split
        · exact leavesCanonical_next.mpr h
        · exact leavesCanonical_next.mpr h
        · split
          · exact leavesCanonical_done.mpr (canonical_serveAccess h _ _ _ _)
          · exact leavesCanonical_done.mpr (canonical_tellInitiator h _ _ _)

theorem execSliceFillReturn_canonical (line : Nat) (onDieFail : Bool) {s : State} (h : canonical s) :
    leavesCanonical (execSliceFillReturn line onDieFail s) := by
  unfold execSliceFillReturn
  split
  · exact leavesCanonical_next.mpr h
  · split
    · exact leavesCanonical_next.mpr h
    · extract_lets s1 wanted failed s2 g s3
      have h1 : canonical s1 := (hbmAccess_canonical _ _ _ _).mpr ((hbmServed_canonical _ _ _).mpr ((onCache_canonical s _).mpr h))
      have h2 : canonical s2 := by
        simp only [s2]
        split_ifs
        · exact canonical_repairRowAt (canonical_failBurst h1 _ _) _
        · exact canonical_repairRowAt h1 _
        · exact h1
      have h3 : canonical s3 := by
        simp only [s3]
        split
        · exact (setLines_canonical _ _ _).mpr h2
        · exact h2
      clear_value s3
      rw [leavesCanonical_done, admitWaiting_canonical]
      split
      · exact h3
      · exact (lineReturned_canonical _ _).mpr h3

theorem execLineRepair_canonical (line : Nat) {s : State} (h : canonical s) : leavesCanonical (execLineRepair line s) := by
  unfold execLineRepair
  split
  · split
    · exact leavesCanonical_done.mpr (canonical_lineFreed h line)
    · split
      · exact leavesCanonical_done.mpr
          (canonical_lineFreed (canonical_onProt ((accessSlices_canonical _ _ _ _ _).mpr (canonical_putMem h _ _)) _) line)
      · split
        · exact leavesCanonical_done.mpr ((sendPacket_canonical s _).mpr h)
        · exact leavesCanonical_next.mpr h
        · exact leavesCanonical_done.mpr (canonical_enterHolding
            (canonical_refuseHeld (canonical_raise (canonical_onProt ((releaseLine_canonical s line).mpr h) _) _ _) line))
  · exact leavesCanonical_done.mpr (canonical_lineFreed h line)
  · exact leavesCanonical_next.mpr h

theorem execHbmRefresh_canonical (stack busNs : Nat) {s : State} (h : canonical s) : leavesCanonical (execHbmRefresh stack busNs s) := by
  grind [execHbmRefresh, leavesCanonical_next, leavesCanonical_done, onCache_canonical]

theorem execPatrolScrub_canonical (store : Nat) {s : State} (h : canonical s) : leavesCanonical (execPatrolScrub store s) := by
  grind [execPatrolScrub, leavesCanonical_next, leavesCanonical_done, endScrubPass_canonical, canonical_onProt, canonical_scrubWord]

theorem execHbmChannelFail_canonical (stack channel : Nat) {s : State} (h : canonical s) : leavesCanonical (execHbmChannelFail stack channel s) := by
  grind [execHbmChannelFail, leavesCanonical_next, leavesCanonical_done, canonical_enterHolding, canonical_loseMemory, canonical_onProt,
      canonical_raise, stopModule_canonical]

theorem execStallSample_canonical {s : State} (h : canonical s) : leavesCanonical (execStallSample s) := by
  unfold execStallSample
  extract_lets s1 tiles s2 s3 s4 s5
  have h4 : canonical s4 := by
    simp only [s4]
    split <;> exact h
  exact leavesCanonical_done.mpr ((onFront_canonical s5 _).mpr ((onCracker_canonical s4 _).mpr h4))

theorem execTileProgramStart_canonical (tile : Nat) {s : State} (h : canonical s) : leavesCanonical (execTileProgramStart tile s) := by
  unfold execTileProgramStart
  dsimp only
  split
  · exact leavesCanonical_next.mpr h
  · split
    · exact leavesCanonical_next.mpr h
    · split
      · simpa using h
      · simpa using h

theorem execDescriptorComplete_canonical (tile number : Nat) {s : State} (h : canonical s) :
    leavesCanonical (execDescriptorComplete tile number s) := by
  grind [execDescriptorComplete, leavesCanonical_next, leavesCanonical_done, detectTrap_canonical, canonical_issued, onTile_canonical,
      signalCounter_canonical]

theorem execTrap_canonical (tile : Nat) {s : State} (h : canonical s) : leavesCanonical (execTrap tile s) := by
  grind [execTrap, leavesCanonical_next, leavesCanonical_done, canonical_issued, canonical_localFault, onEntry_canonical, onTile_canonical]

theorem execBatchRelease_canonical (channel : Nat) {s : State} (h : canonical s) : leavesCanonical (execBatchRelease channel s) := by
  grind [execBatchRelease, leavesCanonical_next, leavesCanonical_done, accessSector_canonical, canonical_foldl, onChannel_canonical,
      onCracker_canonical]

theorem execSectorDone_canonical (channel sector : Nat) {s : State} (h : canonical s) : leavesCanonical (execSectorDone channel sector s) := by
  grind [execSectorDone, leavesCanonical_next, leavesCanonical_done, finishCommand_canonical, onChannel_canonical]

theorem execMergePass_canonical (binding : Nat) {s : State} (h : canonical s) : leavesCanonical (execMergePass binding s) := by
  grind [execMergePass, leavesCanonical_next, leavesCanonical_done, canonical_disturb, canonical_foldl, hazelRequests_canonical,
      canonical_inboundParts, canonical_localFault, onBinding_canonical, onCracker_canonical, onWork_canonical, canonical_partialRowsOf,
      canonical_poisonEscape, canonical_putMem, canonical_saveResult]

theorem execSweepFeed_canonical (binding : Nat) {s : State} (h : canonical s) : leavesCanonical (execSweepFeed binding s) := by
  grind [execSweepFeed, leavesCanonical_next, leavesCanonical_done, accessLine_canonical, feedRow_canonical, canonical_foldl, onBinding_canonical,
      onCracker_canonical]

theorem execStagedRowReady_canonical (binding row : Nat) {s : State} (h : canonical s) : leavesCanonical (execStagedRowReady binding row s) := by
  grind [execStagedRowReady, leavesCanonical_next, leavesCanonical_done, feedRow_canonical]

theorem execDenseCheckUpdate_canonical (group : Nat) {s : State} (h : canonical s) : leavesCanonical (execDenseCheckUpdate group s) := by
  grind [execDenseCheckUpdate, leavesCanonical_next, leavesCanonical_done, canonical_denseReads, canonical_makeCheck, onWork_canonical,
      canonical_tryDecide, unhint_canonical, canonical_updateGroup]

theorem execStagingCut_canonical {s : State} (h : canonical s) : leavesCanonical (execStagingCut s) := by
  grind [execStagingCut, leavesCanonical_next, leavesCanonical_done, fixStagedSet_canonical, canonical_issueCarrier, onTrain_canonical,
      canonical_sendTwinDigest, canonical_tryDecide]

theorem execSweepRow_canonical (group row : Nat) {s : State} (h : canonical s) : leavesCanonical (execSweepRow group row s) := by
  unfold execSweepRow
  split
  · exact leavesCanonical_next.mpr h
  · extract_lets g rank s0 r s1 s2 l s3 held written sent
    have h1 : canonical s1 := canonical_rowReads (canonical_writeCoefficients h) _ _ _
    have h2 : canonical s2 := (onBinding_canonical s1 _ _).mpr h1
    have h3 : canonical s3 := canonical_putThrough h2 _ _ _
    have hheld : canonical held := canonical_raise (canonical_setStageState h3 _ _ _ _) _ _
    have hsent : canonical sent := canonical_writeBack14 (canonical_setStageState (canonical_writeUpdated h3 _ _ _) _ _ _ _) _ _ _ _
    clear_value s1 s2 held sent l
    split
    · exact leavesCanonical_next.mpr h
    · split
      · exact leavesCanonical_done.mpr h1
      · split
        · exact leavesCanonical_done.mpr ((recordFault_canonical s2 _ _).mpr h2)
        · split
          · exact leavesCanonical_done.mpr ((onTrain_canonical held _).mpr hheld)
          · exact leavesCanonical_done.mpr ((touchRow_canonical _ group row).mpr ((onTrain_canonical sent _).mpr hsent))

theorem execSweepWriteAck_canonical (group row : Nat) {s : State} (h : canonical s) : leavesCanonical (execSweepWriteAck group row s) := by
  grind [execSweepWriteAck, leavesCanonical_next, leavesCanonical_done, onTrain_canonical, canonical_writeBack14]

theorem execSweepResume_canonical {s : State} (h : canonical s) : leavesCanonical (execSweepResume s) := by
  grind [execSweepResume, leavesCanonical_next, leavesCanonical_done, canonical_foldl, onCracker_canonical, onTrain_canonical, canonical_resumeGroup]

theorem execLaneFail_canonical (port lane : Nat) {s : State} (h : canonical s) : leavesCanonical (execLaneFail port lane s) := by
  grind [execLaneFail, leavesCanonical_next, leavesCanonical_done, leaveUp_canonical, linkFault_canonical, onPort_canonical]

theorem execPortTrainingDone_canonical (port : Nat) (goodLanes : NatSet) (version : Nat) {s : State} (h : canonical s) :
    leavesCanonical (execPortTrainingDone port goodLanes version s) := by
  grind [execPortTrainingDone, leavesCanonical_next, leavesCanonical_done, finishTraining_canonical]

theorem execTrainingRetry_canonical (port : Nat) (goodLanes : NatSet) (version : Nat) {s : State} (h : canonical s) :
    leavesCanonical (execTrainingRetry port goodLanes version s) := by
  grind [execTrainingRetry, leavesCanonical_next, leavesCanonical_done, finishTraining_canonical]

theorem execFlitReceive_canonical (port : Nat) (flit : ReceivedFlit) {s : State} (h : canonical s) :
    leavesCanonical (execFlitReceive port flit s) := by
  grind [execFlitReceive, leavesCanonical_next, leavesCanonical_done, answerFlit_canonical, countFec_canonical, onFabric_canonical,
      onPort_canonical, pumpPort_canonical, refuseFlit_canonical, takeHeader_canonical, takePayload_canonical]

theorem execHopDeadline_canonical (port : Nat) {s : State} (h : canonical s) : leavesCanonical (execHopDeadline port s) := by
  grind [execHopDeadline, leavesCanonical_next, leavesCanonical_done, failHop_canonical]

theorem execProbe_canonical (port : Nat) {s : State} (h : canonical s) : leavesCanonical (execProbe port s) := by
  grind [execProbe, leavesCanonical_next, leavesCanonical_done, emit_canonical, onFabric_canonical, onPort_canonical]

theorem execData_canonical (p : Packet) {s : State} (h : canonical s) : leavesCanonical (execData p s) := by
  unfold execData
  split
  · exact leavesCanonical_next.mpr h
  · refine canonical_withPacket (fun t ht => ?_) h 1 p
    dsimp only
    split_ifs
    · exact ht
    · exact canonical_reductionData ht _ _ p
    · exact ht
    · exact canonical_moveReceived ht _ _ p

theorem execReady_canonical (p : Packet) {s : State} (h : canonical s) : leavesCanonical (execReady p s) := by
  refine canonical_withPacket (fun t ht => ?_) h 2 p
  split_ifs <;> simpa using ht

theorem execGo_canonical (p : Packet) {s : State} (h : canonical s) : leavesCanonical (execGo p s) := by
  refine canonical_withPacket (fun t ht => ?_) h 3 p
  split
  · exact ht
  · exact canonical_goAtMember ht p

theorem execResult_canonical (p : Packet) {s : State} (h : canonical s) : leavesCanonical (execResult p s) := by
  refine canonical_withPacket (fun t ht => ?_) h 4 p
  dsimp only
  split
  · exact ht
  · exact canonical_tryDecide ((onTrain_canonical t _).mpr ht)

theorem execAck_canonical (p : Packet) {s : State} (h : canonical s) : leavesCanonical (execAck p s) := by
  refine canonical_withPacket (fun t ht => ?_) h 5 p
  dsimp only
  rwa [drainSend_canonical, setTx_canonical]

theorem execPathNotice_canonical (p : Packet) {s : State} (h : canonical s) : leavesCanonical (execPathNotice p s) := by
  refine canonical_withPacket (fun t ht => ?_) h 6 p
  rwa [foldl_canonical resendStream_canonical]

theorem execInbound_canonical (p : Packet) {s : State} (h : canonical s) : leavesCanonical (execInbound p s) := by
  unfold execInbound
  split
  · exact leavesCanonical_next.mpr h
  · refine canonical_withPacket (fun t ht => ?_) h 7 p
    split
    · exact ht
    · split
      · exact canonical_placeInbound ((countInbound_canonical t _ p).mpr ht) _ _ _
      · exact ht

theorem execTableReq_canonical (p : Packet) {s : State} (h : canonical s) : leavesCanonical (execTableReq p s) := by
  unfold execTableReq
  split
  · exact leavesCanonical_next.mpr h
  · exact canonical_withPacket (fun t ht => canonical_takeRequest ht p) h 8 p

theorem execTableRsp_canonical (p : Packet) {s : State} (h : canonical s) : leavesCanonical (execTableRsp p s) := by
  refine canonical_withPacket (fun t ht => ?_) h 9 p
  dsimp only
  split
  · exact ht
  · split
    · exact ht
    · next c _ _ _ x _ =>
      split
      · split
        · exact (stopModule_canonical _).mpr (canonical_haltChannel ht _ _)
        · exact canonical_haltChannel ht _ _
      · have hd := canonical_deliverRemote c x p.elemOffset ((p.payload.drop 64).zipIdx.map (fun y => (y.1, p.poison.contains (8 + y.2 / 8)))) ht
        split <;> rename_i e <;> rw [e] at hd
        · exact canonical_haltChannel hd _ _
        · split
          · exact (finishCommand_canonical _ _).mpr ((onChannel_canonical _ _ _).mpr hd)
          · exact hd

theorem execMirror_canonical (p : Packet) {s : State} (h : canonical s) : leavesCanonical (execMirror p s) := by
  refine canonical_withPacket (fun t ht => ?_) h 0xA p
  extract_lets kind before l others
  clear_value l others
  split_ifs
  · rwa [takeTwin_canonical]
  · exact canonical_takeRecord ((onResil_canonical t _).mpr ht) _ _
  · exact (onResil_canonical t _).mpr ht

theorem execMirrorAck_canonical (p : Packet) {s : State} (h : canonical s) : leavesCanonical (execMirrorAck p s) := by
  exact canonical_withPacket (fun t ht => canonical_releaseReadys ((onResil_canonical t _).mpr ht) _) h 0xB p

theorem execRelayedReply_canonical (p : Packet) {s : State} (h : canonical s) : leavesCanonical (execRelayedReply p s) := by
  refine canonical_withPacket (fun t ht => ?_) h 0xC p
  split
  · exact ht
  · exact (returnReply_canonical _ _).mpr ht

theorem execCommittedStepReport_canonical (p : Packet) {s : State} (h : canonical s) : leavesCanonical (execCommittedStepReport p s) := by
  refine canonical_withPacket (fun t ht => ?_) h 0xC p
  dsimp only
  split_ifs
  · exact ht
  · rwa [foldl_canonical (fun u n => sendPacket_canonical u _), onResil_canonical]
  · exact (onResil_canonical t _).mpr ht

theorem execRestorePoint_canonical (p : Packet) {s : State} (h : canonical s) : leavesCanonical (execRestorePoint p s) := by
  refine canonical_withPacket (fun t ht => ?_) h 0xC p
  dsimp only
  split_ifs
  · exact ht
  · rwa [runAgain_canonical, onResil_canonical]
  · rwa [checkSources_canonical, fillEnded_canonical, onResil_canonical, onResil_canonical]
  · rwa [onResil_canonical, onResil_canonical]
  · rw [runAgain_canonical]
    exact canonical_serveFills ((onResil_canonical t _).mpr ht) _

theorem execLineRequest_canonical (p : Packet) {s : State} (h : canonical s) : leavesCanonical (execLineRequest p s) := by
  refine canonical_withPacket (fun t ht => ?_) h 0xC p
  dsimp only
  split
  · exact ht
  · rw [sendPacket_canonical]
    exact canonical_lineAnswer ht _ _ _

theorem execLineReply_canonical (p : Packet) {s : State} (h : canonical s) : leavesCanonical (execLineReply p s) := by
  refine canonical_withPacket (fun t ht => ?_) h 0xC p
  dsimp only
  split_ifs <;> simpa using ht

theorem execFullTransferRequest_canonical (p : Packet) {s : State} (h : canonical s) : leavesCanonical (execFullTransferRequest p s) := by
  refine canonical_withPacket (fun t ht => ?_) h 0xC p
  dsimp only
  split
  · exact canonical_startTransfer ht
  · exact ht

theorem execHoldNotice_canonical (p : Packet) {s : State} (h : canonical s) : leavesCanonical (execHoldNotice p s) := by
  refine canonical_withPacket (fun t ht => ?_) h 0xC p
  dsimp only
  split <;> simpa using ht

theorem execAckTimer_canonical (k : StreamKey) {s : State} (h : canonical s) : leavesCanonical (execAckTimer k s) := by
  grind [execAckTimer, leavesCanonical_next, leavesCanonical_done, sendAck_canonical]

theorem execResendTimeout_canonical (k : StreamKey) {s : State} (h : canonical s) : leavesCanonical (execResendTimeout k s) := by
  grind [execResendTimeout, leavesCanonical_next, leavesCanonical_done, canonical_raise, resendStream_canonical]

theorem execReductionDeadline_canonical (k : CollKey) {s : State} (h : canonical s) : leavesCanonical (execReductionDeadline k s) := by
  grind [execReductionDeadline, leavesCanonical_next, leavesCanonical_done, maybeGo_canonical, onColl_canonical, onFabric_canonical]

theorem execCollectiveComplete_canonical (k : CollKey) {s : State} (h : canonical s) : leavesCanonical (execCollectiveComplete k s) := by
  unfold execCollectiveComplete
  extract_lets c carrier s1 s2
  have h1 : canonical s1 := (setColl_canonical s _).mpr h
  have h2 : canonical s2 := by
    simp only [s2]
    split_ifs
    · exact h1
    · exact canonical_saveResult ((onWork_canonical s1 _ _).mpr h1) _
    · split
      · exact (onBinding_canonical s1 _ _).mpr h1
      · exact h1
  clear_value s2
  split
  · exact leavesCanonical_next.mpr h
  · exact leavesCanonical_done.mpr ((signalCounter_canonical s2 _).mpr h2)

theorem execResultSend_canonical {s : State} (h : canonical s) : leavesCanonical (execResultSend s) := by
  grind [execResultSend, leavesCanonical_next, leavesCanonical_done, canonical_foldl, onResil_canonical, sendPacket_canonical]

theorem execNeighborRequest_canonical (port : Nat) (ipv6 : Bool) (addr : BitVec 128) {s : State} (h : canonical s) :
    leavesCanonical (execNeighborRequest port ipv6 addr s) := by
  grind [execNeighborRequest, leavesCanonical_next, leavesCanonical_done, emit_canonical]

theorem execRdmaWrite_canonical (origin : RdmaOrigin) (rkey : BitVec 32) (addr : BitVec 64) (bytes : List Byte) {s : State} (h : canonical s) :
    leavesCanonical (execRdmaWrite origin rkey addr bytes s) := by
  grind [execRdmaWrite, leavesCanonical_next, leavesCanonical_done, noteCe_canonical, onConn_canonical, onFront_canonical, sendNak_canonical,
      sendOn_canonical, writeDoorbell_canonical]

theorem execRdmaRead_canonical (origin : RdmaOrigin) (rkey : BitVec 32) (addr : BitVec 64) (length : Nat) {s : State} (h : canonical s) :
    leavesCanonical (execRdmaRead origin rkey addr length s) := by
  grind [execRdmaRead, leavesCanonical_next, leavesCanonical_done, noteCe_canonical, onConn_canonical, sendNak_canonical, sendOn_canonical,
      canonical_serveRead]

theorem execFlushReadRelease_canonical (conn : Nat) {s : State} (h : canonical s) : leavesCanonical (execFlushReadRelease conn s) := by
  grind [execFlushReadRelease, leavesCanonical_next, leavesCanonical_done, onConn_canonical, onFront_canonical, canonical_placeAll,
      sendNak_canonical, canonical_serveRead, canonical_takeDoorbells]

theorem execCnpReceive_canonical (conn : Nat) {s : State} (h : canonical s) : leavesCanonical (execCnpReceive conn s) := by
  grind [execCnpReceive, leavesCanonical_next, leavesCanonical_done, onConn_canonical, onFront_canonical]

theorem execEgressRateRise_canonical (conn : Nat) {s : State} (h : canonical s) : leavesCanonical (execEgressRateRise conn s) := by
  grind [execEgressRateRise, leavesCanonical_next, leavesCanonical_done, onConn_canonical]

theorem execTransportRetryTimeout_canonical (conn : Nat) {s : State} (h : canonical s) : leavesCanonical (execTransportRetryTimeout conn s) := by
  grind [execTransportRetryTimeout, leavesCanonical_next, leavesCanonical_done, connError_canonical, canonical_exportSend, onConn_canonical]

theorem execPostCount_canonical (conn : Nat) {s : State} (h : canonical s) : leavesCanonical (execPostCount conn s) := by
  grind [execPostCount, leavesCanonical_next, leavesCanonical_done, canonical_takeDoorbell]

theorem execCqConsumed_canonical (conn : Nat) {s : State} (h : canonical s) : leavesCanonical (execCqConsumed conn s) := by
  grind [execCqConsumed, leavesCanonical_next, leavesCanonical_done, canonical_takeDoorbell]

theorem execEntryRead_canonical (queue : Nat) {s : State} (h : canonical s) : leavesCanonical (execEntryRead queue s) := by
  grind [execEntryRead, leavesCanonical_next, leavesCanonical_done, canonical_readEntry]

theorem execEntryReread_canonical (queue : Nat) {s : State} (h : canonical s) : leavesCanonical (execEntryReread queue s) := by
  grind [execEntryReread, leavesCanonical_next, leavesCanonical_done, onFront_canonical, canonical_readEntry]

theorem execDispatch_canonical (q seq : Nat) {s : State} (h : canonical s) : leavesCanonical (execDispatch q seq s) := by
  unfold execDispatch
  split
  · exact leavesCanonical_next.mpr h
  · next e _ =>
    split
    · exact leavesCanonical_next.mpr h
    · split
      · have hr := canonical_readRecord h (e.field 256 48) 128
        split <;> rename_i eq <;> rw [eq] at hr
        · exact leavesCanonical_done.mpr hr
        · exact leavesCanonical_done.mpr (canonical_faultEntry hr _ _ _)
        · split
          · exact leavesCanonical_done.mpr (canonical_faultEntry hr _ _ _)
          · exact leavesCanonical_done.mpr ((dispatchTiles_canonical _ _ _ _).mpr hr)
      · simpa using h
      · have hr := canonical_readRecord h (e.field 256 48) 64
        split <;> rename_i eq <;> rw [eq] at hr
        · exact leavesCanonical_done.mpr hr
        · exact leavesCanonical_done.mpr (canonical_faultEntry hr _ _ _)
        · dsimp only
          split
          · exact leavesCanonical_done.mpr (canonical_faultEntry hr _ _ _)
          · simpa using hr
      · exact leavesCanonical_next.mpr h

theorem execFillCommand_canonical (q seq : Nat) {s : State} (h : canonical s) : leavesCanonical (execFillCommand q seq s) := by
  grind [execFillCommand, leavesCanonical_next, leavesCanonical_done, canonical_faultEntry, canonical_fillLines, onEntry_canonical,
      canonical_readRecord]

theorem execExportEntry_canonical (queue seq : Nat) {s : State} (h : canonical s) : leavesCanonical (execExportEntry queue seq s) := by
  grind [execExportEntry, leavesCanonical_next, leavesCanonical_done, addExport_canonical, onEntry_canonical]

theorem execExportAck_canonical (conn : Nat) {s : State} (h : canonical s) : leavesCanonical (execExportAck conn s) := by
  grind [execExportAck, leavesCanonical_next, leavesCanonical_done, acornExported_canonical, canonical_exportSend, onConn_canonical,
      onFront_canonical, replaceExport_canonical, startNext_canonical]

theorem execNopEntry_canonical (queue seq : Nat) {s : State} (h : canonical s) : leavesCanonical (execNopEntry queue seq s) := by
  grind [execNopEntry, leavesCanonical_next, leavesCanonical_done, canonical_endEntry, canonical_settleFault]

theorem execEntryComplete_canonical (queue seq : Nat) {s : State} (h : canonical s) : leavesCanonical (execEntryComplete queue seq s) := by
  grind [execEntryComplete, leavesCanonical_next, leavesCanonical_done, canonical_commandsReady, canonical_endEntry, canonical_releaseLate,
      releaseTrapped_canonical, canonical_settleFault]

theorem execBuddyTimeout_canonical {s : State} (h : canonical s) : leavesCanonical (execBuddyTimeout s) := by
  grind [execBuddyTimeout, leavesCanonical_next, leavesCanonical_done, canonical_raise]

theorem execMemberTimeout_canonical (node : BitVec 24) {s : State} (h : canonical s) : leavesCanonical (execMemberTimeout node s) := by
  grind [execMemberTimeout, leavesCanonical_next, leavesCanonical_done, canonical_enterHolding, onResil_canonical, canonical_raise]

theorem execShardVerify_canonical (group : Nat) (source : BitVec 24) (step : Nat) (digest : BitVec 256) (bytes : List Byte) {s : State}
    (h : canonical s) :
    leavesCanonical (execShardVerify group source step digest bytes s) := by
  grind [execShardVerify, leavesCanonical_next, leavesCanonical_done, acceptShard_canonical, canonical_placePlanes, canonical_planesOf,
      shardMismatch_canonical]

theorem execReplay_canonical {s : State} (h : canonical s) : leavesCanonical (execReplay s) := by
  grind [execReplay, leavesCanonical_next, leavesCanonical_done, canonical_foldl, onResil_canonical, canonical_replayEnded, canonical_replayGroup]

theorem execTwinTimeout_canonical {s : State} (h : canonical s) : leavesCanonical (execTwinTimeout s) := by
  grind [execTwinTimeout, leavesCanonical_next, leavesCanonical_done, onResil_canonical, canonical_raise]

theorem execTwinLateLimit_canonical {s : State} (h : canonical s) : leavesCanonical (execTwinLateLimit s) := by
  grind [execTwinLateLimit, leavesCanonical_next, leavesCanonical_done, onResil_canonical, canonical_raise, sendPacket_canonical]

theorem execTwinRejoin_canonical {s : State} (h : canonical s) : leavesCanonical (execTwinRejoin s) := by
  grind [execTwinRejoin, leavesCanonical_next, leavesCanonical_done, canonical_copyToTwin, canonical_joinTwin, onResil_canonical, runAgain_canonical]

theorem execSessionExpire_canonical (session : BitVec 64) {s : State} (h : canonical s) : leavesCanonical (execSessionExpire session s) := by
  grind [execSessionExpire, leavesCanonical_next, leavesCanonical_done, dropSession_canonical]

theorem execHelloLockoutEnd_canonical {s : State} (h : canonical s) : leavesCanonical (execHelloLockoutEnd s) := by
  grind [execHelloLockoutEnd, leavesCanonical_next, leavesCanonical_done, onDict_canonical]

theorem execRelayTimeout_canonical (requestId : BitVec 32) {s : State} (h : canonical s) : leavesCanonical (execRelayTimeout requestId s) := by
  grind [execRelayTimeout, leavesCanonical_next, leavesCanonical_done, emit_canonical, onDict_canonical]

theorem execBatchExpire_canonical (session : BitVec 64) (batch : Nat) {s : State} (h : canonical s) :
    leavesCanonical (execBatchExpire session batch s) := by
  grind [execBatchExpire, leavesCanonical_next, leavesCanonical_done, onDict_canonical]

theorem execAttestReady_canonical {s : State} (h : canonical s) : leavesCanonical (execAttestReady s) := by
  grind [execAttestReady, leavesCanonical_next, leavesCanonical_done, onBoot_canonical]

theorem execMarginSweepEnd_canonical (failed : List (Nat × Nat)) (lost : NatSet) {s : State} (h : canonical s) :
    leavesCanonical (execMarginSweepEnd failed lost s) := by
  unfold execMarginSweepEnd
  split
  · exact leavesCanonical_next.mpr h
  · exact leavesCanonical_done.mpr h

theorem execFeLinkDown_canonical (port : Nat) {s : State} (h : canonical s) : leavesCanonical (execFeLinkDown port s) := by
  grind [execFeLinkDown, leavesCanonical_next, leavesCanonical_done, onFront_canonical]

theorem execFeLinkUp_canonical (port : Nat) {s : State} (h : canonical s) : leavesCanonical (execFeLinkUp port s) := by
  grind [execFeLinkUp, leavesCanonical_next, leavesCanonical_done, onFront_canonical]

theorem execPriorityFlowControlFrame_canonical (port priority : Nat) (quanta : Nat) {s : State} (h : canonical s) :
    leavesCanonical (execPriorityFlowControlFrame port priority quanta s) := by
  grind [execPriorityFlowControlFrame, leavesCanonical_next, leavesCanonical_done, onFront_canonical, resumePort_canonical]

theorem execWriteBackComplete_canonical (line : Nat) {s : State} (h : canonical s) : leavesCanonical (execWriteBackComplete line s) := by
  grind [execWriteBackComplete, leavesCanonical_next, leavesCanonical_done, admitWaiting_canonical, hbmAccess_canonical, hbmServed_canonical,
      onCache_canonical]

theorem execTileSupplyBelowFloor_canonical (tile mv : Nat) {s : State} (h : canonical s) : leavesCanonical (execTileSupplyBelowFloor tile mv s) := by
  grind [execTileSupplyBelowFloor, leavesCanonical_next, leavesCanonical_done, onPower_canonical]

theorem execTileSupplyRestored_canonical (tile mv : Nat) {s : State} (h : canonical s) : leavesCanonical (execTileSupplyRestored tile mv s) := by
  grind [execTileSupplyRestored, leavesCanonical_next, leavesCanonical_done, onPower_canonical]

end Sys2Proof.Machine
end

section
/-! The canonical form of memory and banks after descriptors and commands of the Cracker (R84 to R96, R174 to R181), and after every command
(O55) -/

namespace Sys2Proof.Machine

open Sys2Proof

/-- Work that leaves memory and banks in canonical form, and whose value is good. -/
def Got.keepsForm {α : Type} (good : α → Prop) (r : Got α × State) : Prop := canonical r.2 ∧ ∀ a, r.1 = .ok a → good a

theorem Got.keepsForm_ok {α : Type} {good : α → Prop} {a : α} {t : State} (ha : good a) (ht : canonical t) : Got.keepsForm good (.ok a, t) :=
  ⟨ht, fun b hb => by cases hb; exact ha⟩

theorem Got.keepsForm_fault {α : Type} {good : α → Prop} {c : Code} {t : State} (ht : canonical t) : Got.keepsForm good (.fault c, t) :=
  ⟨ht, fun _ hb => nomatch hb⟩

theorem Got.keepsForm_wait {α : Type} {good : α → Prop} {t : State} (ht : canonical t) : Got.keepsForm good (.wait, t) :=
  ⟨ht, fun _ hb => nomatch hb⟩

theorem Got.keepsForm_andThen {α β : Type} {good : β → Prop} {r : Got α × State} {f : α → State → Got β × State} (hr : canonical r.2)
    (hf : ∀ a t, canonical t → Got.keepsForm good (f a t)) : Got.keepsForm good (Got.andThen r f) := by
  obtain ⟨a | c | _, t⟩ := r
  · exact hf a t hr
  · exact Got.keepsForm_fault hr
  · exact Got.keepsForm_wait hr

/-! ## Descriptors -/

/-- A descriptor whose effect keeps the canonical form. -/
def Issue.keepsForm (x : Issue) : Prop := ∀ t, canonical t → canonical (x.run t).2

theorem canonical_issueChecked {s : State} (h : canonical s) (n d : Nat) {x : Issue} (hx : x.keepsForm) : canonical (issueChecked s n d x) := by
  have hrun := hx s h
  unfold issueChecked
  extract_lets t
  iterate 4
    split
    · exact (onTile_canonical s n _).mpr h
  split <;> rename_i e <;> rw [e] at hrun
  · exact canonical_issued hrun _ _ _ _
  · exact (holdFor_canonical _ _ _).mpr hrun
  · split
    · exact (trapHere_canonical _ _ _).mpr hrun
    · exact canonical_issued hrun _ _ _ _

theorem tileOnly_keepsForm (n : Nat) (f : Tile → Tile) : (tileOnly n f).keepsForm := fun t ht => (onTile_canonical t n f).mpr ht

theorem canonical_runDescriptor {n : Nat} {kind : Nat → Bool} {prep : Nat → State → Got Issue × State}
    (hprep : ∀ d t, canonical t → Got.keepsForm Issue.keepsForm (prep d t)) {s : State} (h : canonical s) :
    canonical (runDescriptor n kind prep s) := by
  unfold runDescriptor
  extract_lets t
  split
  · exact h
  · have hf := canonical_fetch64 n t.pc h
    split <;> rename_i e <;> rw [e] at hf
    · exact (trapHere_canonical _ _ _).mpr hf
    · exact (holdFor_canonical _ _ _).mpr hf
    · next d s1 =>
      obtain ⟨hp, hgood⟩ := hprep d s1 hf
      dsimp only
      split
      · exact (trapHere_canonical _ _ _).mpr hf
      · split
        · exact h
        · split
          · exact (trapHere_canonical _ _ _).mpr hf
          · split
            · exact (trapHere_canonical _ _ _).mpr hf
            · split <;> rename_i e <;> rw [e] at hp hgood
              · exact (trapHere_canonical _ _ _).mpr hp
              · exact (holdFor_canonical _ _ _).mpr hp
              · exact canonical_issueChecked hp _ _ (hgood _ rfl)

/-- A row that runs a descriptor whose effect keeps the canonical form. -/
theorem leavesCanonical_descriptor {n : Nat} {kind : Nat → Bool} {prep : Nat → State → Got Issue × State}
    (hprep : ∀ d t, canonical t → Got.keepsForm Issue.keepsForm (prep d t)) {s : State} (h : canonical s) :
    leavesCanonical (done s (runDescriptor n kind prep s)) :=
  leavesCanonical_done.mpr (canonical_runDescriptor hprep h)

theorem execNop_canonical (tile : Nat) {s : State} (h : canonical s) : leavesCanonical (execNop tile s) := by
  refine leavesCanonical_descriptor (fun d t ht => ?_) h
  split
  · exact Got.keepsForm_fault ht
  · exact Got.keepsForm_ok (tileOnly_keepsForm _ _) ht

theorem execLoop_canonical (tile : Nat) {s : State} (h : canonical s) : leavesCanonical (execLoop tile s) := by
  refine leavesCanonical_descriptor (fun d t ht => ?_) h
  extract_lets u len count last outside
  split
  · exact Got.keepsForm_fault ht
  · split
    · exact Got.keepsForm_fault ht
    · split
      · exact Got.keepsForm_fault ht
      · exact Got.keepsForm_ok (fun u hu => (onTile_canonical u tile _).mpr hu) ht

theorem execSetb_canonical (tile : Nat) {s : State} (h : canonical s) : leavesCanonical (execSetb tile s) := by
  refine leavesCanonical_descriptor (fun d t ht => ?_) h
  split
  · exact Got.keepsForm_fault ht
  · exact Got.keepsForm_ok (tileOnly_keepsForm _ _) ht

theorem execLoadb_canonical (tile : Nat) {s : State} (h : canonical s) : leavesCanonical (execLoadb tile s) := by
  refine leavesCanonical_descriptor (fun d t ht => ?_) h
  dsimp only
  split_ifs
  · exact Got.keepsForm_fault ht
  · exact Got.keepsForm_fault ht
  · refine Got.keepsForm_ok (fun u hu => canonical_andThen (canonical_readFor _ _ _ _ hu) fun b v hv => ?_) ht
    split
    · exact hv
    · exact (onTile_canonical v tile _).mpr hv

theorem execEndProgram_canonical (tile : Nat) {s : State} (h : canonical s) : leavesCanonical (execEndProgram tile s) := by
  have hrun := canonical_runDescriptor (n := tile) (kind := opIs 0x3F) (prep := fun d s1 =>
      if bitsAt d 64 448 ≠ 0 then (.fault (malformed 0x02), s1)
      else if (tileOf s1 tile).issued = [] then (.ok (tileOnly tile (fun t => { t with program := t.program })), s1)
      else (.wait, s1)) (fun d t ht => by
    split_ifs
    · exact Got.keepsForm_fault ht
    · exact Got.keepsForm_ok (tileOnly_keepsForm _ _) ht
    · exact Got.keepsForm_wait ht) h
  rw [execEndProgram, leavesCanonical_done]
  split
  · exact (endTileProgram_canonical _ _).mpr hrun
  · exact hrun

theorem execMatmul_canonical (tile : Nat) {s : State} (h : canonical s) : leavesCanonical (execMatmul tile s) := by
  refine leavesCanonical_descriptor (fun d t ht => ?_) h
  unfold prepMatmul
  dsimp only
  split
  · exact Got.keepsForm_fault ht
  · split
    · exact Got.keepsForm_fault ht
    · exact Got.keepsForm_ok (fun u hu => canonical_runMatmul tile _ hu) ht

theorem canonical_vectorRow (vop tile : Nat) {s : State} (h : canonical s) : leavesCanonical (vectorRow vop tile s) := by
  refine leavesCanonical_descriptor (fun d t ht => ?_) h
  unfold prepVector
  extract_lets v u
  split
  · exact Got.keepsForm_fault ht
  · refine Got.keepsForm_andThen (canonical_fetchTensor tile u _ false ht) fun dst s1 h1 => ?_
    refine Got.keepsForm_andThen (canonical_fetchTensor tile u _ false h1) fun src0 s2 h2 => ?_
    refine Got.keepsForm_andThen (canonical_fetchTensor tile u _ _ h2) fun src1 s3 h3 => ?_
    refine Got.keepsForm_andThen (canonical_fetchTensor tile u _ false h3) fun src2 s4 h4 => ?_
    refine Got.keepsForm_andThen (canonical_fetchTensor tile u _ true h4) fun aux s5 h5 => ?_
    dsimp only
    split
    · exact Got.keepsForm_fault h5
    · split
      · exact Got.keepsForm_fault h5
      · exact Got.keepsForm_ok (fun u hu => canonical_runVector tile _ hu) h5

theorem canonical_streamRow (kind tile : Nat) {s : State} (h : canonical s) : leavesCanonical (streamRow kind tile s) := by
  refine leavesCanonical_descriptor (fun d t ht => ?_) h
  have hhalt : ∀ (ch : Nat) (c : Code) (u : State), canonical u →
      Got.keepsForm Issue.keepsForm (.ok ⟨2, ch, [], [], [], [], [], [], haltStream tile ch c⟩, u) :=
    fun ch c u hu => Got.keepsForm_ok (fun v hv => (haltStream_canonical tile ch c v).mpr hv) hu
  unfold prepStream
  extract_lets u ch halt
  split
  · exact Got.keepsForm_fault ht
  · have hf := canonical_fetch64 tile (baseOffset u (bitsAt d 64 4) (bitsAt d 68 48)) ht
    split <;> rename_i e <;> rw [e] at hf
    · exact Got.keepsForm_fault hf
    · exact Got.keepsForm_wait hf
    · extract_lets k
      split
      · exact hhalt _ _ _ hf
      · refine Got.keepsForm_andThen (canonical_streamTensor tile u _ hf) fun far s2 h2 => ?_
        refine Got.keepsForm_andThen ?_ fun near s3 h3 => ?_
        · split
          · exact canonical_streamTensor tile u _ h2
          · exact h2
        · refine Got.keepsForm_andThen ?_ fun index s4 h4 => ?_
          · split
            · exact canonical_streamTensor tile u _ h3
            · exact h3
          · split
            · extract_lets x
              clear_value x
              split
              · exact hhalt _ _ _ h4
              · split
                · exact Got.keepsForm_ok (fun v hv => canonical_runStream tile ch _ hv) h4
                · exact Got.keepsForm_fault h4
            · exact hhalt _ _ _ h4

/-! ## Commands of the Cracker -/

/-- A command of the Cracker that keeps the canonical form, in the state it ends in and in the one it gives (R174). -/
def keepsForm (f : CrackerCommand → State → Got State × State) : Prop := ∀ cmd t, canonical t → Got.keepsForm canonical (f cmd t)

theorem canonical_runCommand {f : CrackerCommand → State → Got State × State} (hf : keepsForm f) (c kind : Nat) {s : State} (h : canonical s) :
    canonical (runCommand c kind f s) := by
  unfold runCommand
  extract_lets x
  split
  · exact h
  · next x _ _ =>
    split
    · exact h
    · split
      · exact canonical_haltChannel h _ _
      · have hr := canonical_readSectors c x.addr 64 h
        split <;> rename_i e <;> rw [e] at hr
        · exact hr
        · exact canonical_haltChannel hr _ _
        · next b s1 =>
          split
          · exact canonical_haltChannel hr _ _
          · extract_lets cmd
            obtain ⟨hs, hgood⟩ := hf cmd s1 hr
            split
            · exact h
            · split
              · exact canonical_haltChannel hr _ _
              · split <;> rename_i e <;> rw [e] at hs hgood
                · exact hs
                · exact canonical_haltChannel (canonical_forgetNear c cmd hs) _ _
                · exact hgood _ rfl

theorem commandRan_keepsForm {s : State} (hs : canonical s) (c : Nat) (cmd : CrackerCommand) (requests : List (List Nat))
    (remote : List RemoteRows) : Got.keepsForm canonical (.ok (commandRan s c cmd requests remote), s) :=
  Got.keepsForm_ok ((commandRan_canonical s c cmd requests remote).mpr hs) hs

theorem flatBody_keepsForm (c : Nat) : keepsForm (flatBody c) := fun cmd t ht => by
  refine Got.keepsForm_andThen (canonical_readIndices c cmd ht) fun idx s0 h0 => ?_
  extract_lets s1
  have h1 : canonical s1 := (flatAhead_canonical c cmd idx s0).mpr h0
  clear_value s1
  split
  · exact Got.keepsForm_fault h1
  · split
    · exact Got.keepsForm_fault h1
    · refine Got.keepsForm_andThen (canonical_each (fun x u hu => ?_) _ h1) fun rows s2 h2 => ?_
      · split
        · exact hu
        · exact canonical_andThen (canonical_readFor _ _ _ _ hu) fun _ _ hv => hv
      · exact Got.keepsForm_andThen (canonical_deliverRows c cmd rows h2) fun _ s3 h3 => commandRan_keepsForm h3 c cmd _ _

theorem gatherBody_keepsForm (c : Nat) : keepsForm (gatherBody c) := fun cmd t ht => by
  unfold gatherBody
  extract_lets r
  refine Got.keepsForm_andThen (canonical_readIndices c cmd ht) fun idx s0 h0 => ?_
  extract_lets known s1
  have h1 : canonical s1 := (rowsAhead_canonical c cmd r idx s0).mpr h0
  clear_value s1
  split
  · exact Got.keepsForm_fault h1
  · split
    · exact Got.keepsForm_fault h1
    · refine Got.keepsForm_andThen (canonical_each (fun x u hu => ?_) _ h1) fun rows s2 h2 => ?_
      · split
        · exact hu
        · exact canonical_andThen (canonical_readRow c r _ hu) fun _ _ hv => hv
      · refine Got.keepsForm_andThen (canonical_deliverRows c cmd rows h2) fun _ s3 h3 => ?_
        refine commandRan_keepsForm ?_ c cmd _ _
        refine canonical_foldl_snd (fun x k hx => ?_) h3 _
        dsimp only
        split
        · exact hx
        · exact (askOwner_canonical _ _ _ _ _ _).mpr hx

theorem scatterBody_keepsForm (c : Nat) : keepsForm (scatterBody c) := fun cmd t ht => by
  unfold scatterBody
  extract_lets r
  refine Got.keepsForm_andThen (canonical_readIndices c cmd ht) fun idx s0 h0 => ?_
  extract_lets s1 good
  have h1 : canonical s1 := (rowsAhead_canonical c cmd r idx s0).mpr h0
  clear_value s1
  refine Got.keepsForm_andThen (canonical_each (fun x u hu => ?_) _ h1) fun rows s2 h2 => ?_
  · split
    · exact hu
    · exact canonical_andThen (canonical_readSectors c _ _ hu) fun _ _ hv => hv
  · refine Got.keepsForm_andThen (canonical_each (fun x u hu => ?_) _ h2) fun _ s3 h3 => ?_
    · split
      · exact hu
      · exact canonical_writeRow c _ _ hu
    · split
      · exact Got.keepsForm_fault h3
      · exact commandRan_keepsForm h3 c cmd _ _

theorem gradBody_keepsForm (c : Nat) : keepsForm (gradBody c) := fun cmd t ht => by
  unfold gradBody
  extract_lets r b rowLen w order
  split
  · exact Got.keepsForm_fault ht
  · refine Got.keepsForm_andThen (canonical_readIndices c cmd ht) fun idx s0 h0 => ?_
    extract_lets s1
    have h1 : canonical s1 := (rowsAhead_canonical c cmd r idx s0).mpr h0
    clear_value s1
    split
    · exact Got.keepsForm_fault h1
    · refine Got.keepsForm_andThen (canonical_gradRows c cmd rowLen idx h1) fun rows s2 h2 => ?_
      extract_lets s3 distinct
      have h3 : canonical s3 := (onBinding_canonical s2 _ _).mpr h2
      clear_value s3
      split
      rename_i s4 full bad e
      have h4 : canonical s4 := by
        have hfold := canonical_foldl_fst (f := fun (a : State × Bool × Bool) row =>
          let (values, poison) := mergedRow rowLen row rows
          let (t, f, e) := accumulateRow a.1 r.binding b rowLen cmd.microbatch row values poison
          (t, a.2.1 || f, a.2.2 || e)) (fun a row ha => canonical_accumulateRow ha _ _ _ _ _ _ _) (y := (s3, false, false)) h3 distinct
        rwa [e] at hfold
      extract_lets s5 dir requests
      have h5 : canonical s5 := by
        simp only [s5]
        split
        · exact canonical_localFault h4 _ _
        · exact h4
      clear_value s5
      split
      · exact Got.keepsForm_fault h5
      · exact commandRan_keepsForm h5 c cmd _ _

/-- The row of a command of the Cracker. -/
theorem leavesCanonical_command {f : CrackerCommand → State → Got State × State} (hf : keepsForm f) (c kind : Nat) {s : State} (h : canonical s) :
    leavesCanonical (done s (runCommand c kind f s)) :=
  leavesCanonical_done.mpr (canonical_runCommand hf c kind h)

/-- Every command keeps the canonical form. -/
theorem exec_canonical (c : Instr) {s : State} (h : canonical s) : leavesCanonical (exec c s) := by
  cases c
  case stackReset | watchdogExpiry =>
    exact canonical_resetStack h _ _
  case stackResetWrite | paceClear | energyClear | throttleClear | tempClear | tileCountersClear | crackerCountersClear |
      abortStep | silentClear | portMode | epochWrite | fabricCountersClear | feMode | fePortReset | connEnable | connReset |
      queueEnable | queueDisable | feCountersClear | buddy | snapshotBase | recoveryWrite | restoreSubmit | resume | eventAck |
      snapshotTake | memCountersClear | protCountersClear | floorCommit | uploadTarget | uploadData | uploadVerify |
      attestRequest | testStateEnter | testStateExit | marginSweep | bistRerun =>
    exact canonical_serveWrite _ _ _ h
  case copy | fill | add | sub | mul | fma | div | sqrt | rsqrt | exp | log | tanh | logistic | sin | cos | max | min | abs |
      cmpgt | select | axpb | addsr | rsum | rmax | rsumsq | rmaxabs | mxpack | mxunpack | update =>
    exact canonical_vectorRow _ _ h
  case load | store | streamGather | streamScatter | streamFill =>
    exact canonical_streamRow _ _ h
  case read | write | revert | abandon | describe | enumerate | hello | prove | close =>
    exact canonical_serve _ _ _ h
  case powerOn => exact leavesCanonical_restarted.mpr (canonical_startOrStay s _ _ _ _)
  case inputStop => simp [exec, execInputStop, h, canonical_stoppedState]
  case shutdownAssert => simp [exec, execShutdownAssert, canonical_stoppedState]
  case shutdownRelease => simp [exec, execShutdownRelease, h, canonical_startOrStay]
  case moduleInsert => simp [exec, execModuleInsert, h, canonical_startOrStay]
  case moduleRemove => simp [exec, execModuleRemove, h, canonical_stoppedState]
  case railBelowRetention => simp [exec, execRailBelowRetention, h, canonical_resetStack]
  case crackerGather => exact leavesCanonical_command (gatherBody_keepsForm _) _ _ h
  case crackerScatter => exact leavesCanonical_command (scatterBody_keepsForm _) _ _ h
  case grad => exact leavesCanonical_command (gradBody_keepsForm _) _ _ h
  case flatGather => exact leavesCanonical_command (flatBody_keepsForm _) _ _ h
  case allReduce => exact canonical_ownPart canonical_startReduction h _ 1
  case reduceScatter => exact canonical_ownPart canonical_startReduction h _ 2
  case allGather => exact canonical_ownPart canonical_startGather h _ 3
  case allToAll => exact canonical_ownPart canonical_startAllToAll h _ 4
  case broadcast => exact canonical_ownPart canonical_startBroadcast h _ 5
  case exchange => exact canonical_ownPart canonical_exchangeRows h _ 6
  case converterFail => exact execConverterFail_canonical _ h
  case romVerify => exact execRomVerify_canonical h
  case hazelBoot => exact execHazelBoot_canonical h
  case railsUp => exact execRailsUp_canonical h
  case builtInTest => exact execBuiltInTest_canonical _ h
  case serviceFill => exact execServiceFill_canonical h
  case hbmTraining => exact execHbmTraining_canonical _ h
  case defaultsApply => exact execDefaultsApply_canonical h
  case mgmtLinkLoss => exact execMgmtLinkLoss_canonical h
  case railBelowFloor => exact execRailBelowFloor_canonical _ _ h
  case railAboveFloor => exact execRailAboveFloor_canonical _ _ h
  case paceWindow => exact execPaceWindow_canonical _ h
  case powerSample => exact execPowerSample_canonical _ h
  case rampStep => exact execRampStep_canonical h
  case droopBegin => exact execDroopBegin_canonical _ _ h
  case droopEnd => exact execDroopEnd_canonical _ _ h
  case gateRestartStep => exact execGateRestartStep_canonical _ h
  case thermalLimitStep => exact execThermalLimitStep_canonical h
  case thermalTrip => exact execThermalTrip_canonical h
  case verticalTransfer => exact execVerticalTransfer_canonical _ _ _ _ h
  case powerClusterFail => exact execPowerClusterFail_canonical _ h
  case tileFloorTimeout => exact execTileFloorTimeout_canonical _ h
  case homeSliceAccess => exact execHomeSliceAccess_canonical _ _ _ _ h
  case sliceFillReturn => exact execSliceFillReturn_canonical _ _ h
  case lineRepair => exact execLineRepair_canonical _ h
  case hbmRefresh => exact execHbmRefresh_canonical _ _ h
  case patrolScrub => exact execPatrolScrub_canonical _ h
  case hbmChannelFail => exact execHbmChannelFail_canonical _ _ h
  case stallSample => exact execStallSample_canonical h
  case tileProgramStart => exact execTileProgramStart_canonical _ h
  case nop => exact execNop_canonical _ h
  case loop => exact execLoop_canonical _ h
  case setb => exact execSetb_canonical _ h
  case loadb => exact execLoadb_canonical _ h
  case matmul => exact execMatmul_canonical _ h
  case endProgram => exact execEndProgram_canonical _ h
  case descriptorComplete => exact execDescriptorComplete_canonical _ _ h
  case trap => exact execTrap_canonical _ h
  case batchRelease => exact execBatchRelease_canonical _ h
  case sectorDone => exact execSectorDone_canonical _ _ h
  case mergePass => exact execMergePass_canonical _ h
  case sweepFeed => exact execSweepFeed_canonical _ h
  case stagedRowReady => exact execStagedRowReady_canonical _ _ h
  case denseCheckUpdate => exact execDenseCheckUpdate_canonical _ h
  case stagingCut => exact execStagingCut_canonical h
  case sweepRow => exact execSweepRow_canonical _ _ h
  case sweepWriteAck => exact execSweepWriteAck_canonical _ _ h
  case sweepResume => exact execSweepResume_canonical h
  case stepBoundary => exact execStepBoundary_canonical _ h
  case laneFail => exact execLaneFail_canonical _ _ h
  case portTrainingDone => exact execPortTrainingDone_canonical _ _ _ h
  case trainingRetry => exact execTrainingRetry_canonical _ _ _ h
  case flitReceive => exact execFlitReceive_canonical _ _ h
  case hopDeadline => exact execHopDeadline_canonical _ h
  case probe => exact execProbe_canonical _ h
  case data => exact execData_canonical _ h
  case ready => exact execReady_canonical _ h
  case go => exact execGo_canonical _ h
  case result => exact execResult_canonical _ h
  case ack => exact execAck_canonical _ h
  case pathNotice => exact execPathNotice_canonical _ h
  case inbound => exact execInbound_canonical _ h
  case tableReq => exact execTableReq_canonical _ h
  case tableRsp => exact execTableRsp_canonical _ h
  case mirror => exact execMirror_canonical _ h
  case mirrorAck => exact execMirrorAck_canonical _ h
  case relayedRequest => exact execRelayedRequest_canonical _ h
  case relayedReply => exact execRelayedReply_canonical _ h
  case committedStepReport => exact execCommittedStepReport_canonical _ h
  case restorePoint => exact execRestorePoint_canonical _ h
  case lineRequest => exact execLineRequest_canonical _ h
  case lineReply => exact execLineReply_canonical _ h
  case fullTransferRequest => exact execFullTransferRequest_canonical _ h
  case holdNotice => exact execHoldNotice_canonical _ h
  case ackTimer => exact execAckTimer_canonical _ h
  case resendTimeout => exact execResendTimeout_canonical _ h
  case reductionDeadline => exact execReductionDeadline_canonical _ h
  case collectiveComplete => exact execCollectiveComplete_canonical _ h
  case resultSend => exact execResultSend_canonical h
  case neighborRequest => exact execNeighborRequest_canonical _ _ _ h
  case rdmaWrite => exact execRdmaWrite_canonical _ _ _ _ h
  case rdmaRead => exact execRdmaRead_canonical _ _ _ _ h
  case flushReadRelease => exact execFlushReadRelease_canonical _ h
  case cnpReceive => exact execCnpReceive_canonical _ h
  case egressRateRise => exact execEgressRateRise_canonical _ h
  case transportRetryTimeout => exact execTransportRetryTimeout_canonical _ h
  case postCount => exact execPostCount_canonical _ h
  case cqConsumed => exact execCqConsumed_canonical _ h
  case entryRead => exact execEntryRead_canonical _ h
  case entryReread => exact execEntryReread_canonical _ h
  case dispatch => exact execDispatch_canonical _ _ h
  case fillCommand => exact execFillCommand_canonical _ _ h
  case exportEntry => exact execExportEntry_canonical _ _ h
  case exportAck => exact execExportAck_canonical _ h
  case nopEntry => exact execNopEntry_canonical _ _ h
  case entryComplete => exact execEntryComplete_canonical _ _ h
  case buddyTimeout => exact execBuddyTimeout_canonical h
  case memberTimeout => exact execMemberTimeout_canonical _ h
  case shardVerify => exact execShardVerify_canonical _ _ _ _ _ h
  case replay => exact execReplay_canonical h
  case twinTimeout => exact execTwinTimeout_canonical h
  case twinLateLimit => exact execTwinLateLimit_canonical h
  case twinRejoin => exact execTwinRejoin_canonical h
  case sessionExpire => exact execSessionExpire_canonical _ h
  case helloLockoutEnd => exact execHelloLockoutEnd_canonical h
  case relayTimeout => exact execRelayTimeout_canonical _ h
  case batchExpire => exact execBatchExpire_canonical _ _ h
  case attestReady => exact execAttestReady_canonical h
  case marginSweepEnd => exact execMarginSweepEnd_canonical _ _ h
  case feLinkDown => exact execFeLinkDown_canonical _ h
  case feLinkUp => exact execFeLinkUp_canonical _ h
  case priorityFlowControlFrame => exact execPriorityFlowControlFrame_canonical _ _ _ h
  case writeBackComplete => exact execWriteBackComplete_canonical _ h
  case tileSupplyBelowFloor => exact execTileSupplyBelowFloor_canonical _ _ h
  case tileSupplyRestored => exact execTileSupplyRestored_canonical _ _ h
  -- SEAL, whose constructor bears a word of Lean that names no case
  next r => exact canonical_serve Findings.nothing 4 r h

end Sys2Proof.Machine

namespace Sys2Proof.Proofs

open Sys2Proof Sys2Proof.Machine

/-- Settles O55: every command keeps the canonical form, and a step runs one command or none. -/
theorem memoryStaysCanonical : Obligations.MemoryStaysCanonical := by
  intro s t hmem hbanks h
  have hs : canonical s := ⟨hmem, hbanks⟩
  unfold step at h
  split at h
  · exact leavesCanonical_next.mpr hs t h
  · next c rest _ => exact exec_canonical c (s := { s with pending := rest }) hs t h

end Sys2Proof.Proofs
end
